-- ==== Sys2Proof/Word.lean ====
section
/-! DEFINITION. The words of the FZ-2560: a byte of the three links, a station's millisecond stamp, a rack's set of
channels, and the table of records keyed by identifier. -/

namespace Sys2Proof

/-- One byte of a frame, a request body or an answer body (R176). -/
abbrev Byte := BitVec 8

/-- A station's stamp: milliseconds 0..65535, returning to 0 after 65535 (R99). -/
abbrev Stamp := BitVec 16

/-- A set of the channels 1..32 of a rack: bit c − 1 stands for channel c (R176). -/
abbrev ChannelSet := BitVec 32

/-- Records keyed by identifier, identifiers strictly rising. An identifier with no entry has no record. -/
abbrev Table (α : Type) := List (Nat × α)

end Sys2Proof
end

