-- ==== Sys2Proof/Syntax.lean ====
section
/-! DEFINITION. The commands the FZ-2560 takes: one constructor for each row of the opcode table. A host request carries
the tag and the body of its request frame as bytes (R161, R176), so every check of a body is the model's. A request
judged for installer access also carries the level of the INSTALL input as the request is taken (R60). An event of a
station line or of the rack link carries what is heard there, character by character (R114, R116, R153, R177). -/

namespace Sys2Proof

/-- One of the two station lines. -/
inductive Line where
  | a
  | b
deriving DecidableEq, Repr

/-- One of the two ends of a station line at the part. -/
inductive LineEnd where
  | a
  | b
deriving DecidableEq, Repr

/-- One character heard on a station line or on the rack link: its data bits, and whether it was correctly framed. -/
structure Character where
  data : Byte
  framed : Bool
deriving DecidableEq, Repr

/-- The characters of one answer as heard on one end of a station line, in the order they arrived. -/
structure Heard where
  side : LineEnd
  chars : List Character
deriving DecidableEq, Repr

/-- A station input, as A17.4: line, address and input (conventions, section 1.5). -/
structure StationInput where
  line : Line
  address : Nat
  input : Nat
deriving DecidableEq, Repr

/-- The commands, one for each row of the opcode table. -/
inductive Instr where
  /-- REQUEST_TRANSFER_MALFORMED (R161). A request transfer ends with an incomplete header, an unknown code or a wrong length, and is answered BAD_REQUEST, or is discarded if the slot is busy. -/
  | requestTransferMalformed (install : Bool) (bytes : List Byte)
  /-- FETCH (R162). A Fetch transfer shifts out the link status and the waiting answer or an empty frame, clears the collision flag, and frees the slot when the whole answer has been clocked. -/
  | fetch (clocked : Nat)
  /-- IDENTIFY (R165). Returns the part identifier, the revision, the reset cause and the image state. -/
  | identify (tag : Byte) (body : List Byte)
  /-- READ_ATTENTION (R169). Returns the notice set, empties it and lowers ATTN. -/
  | readAttention (tag : Byte) (body : List Byte)
  /-- CONFIGURE_CIRCUIT (R2). Checks and stores a circuit's configuration, then re-evaluates dormancy, egress and resolution under R3. -/
  | configureCircuit (tag : Byte) (body : List Byte)
  /-- UNCONFIGURE_CIRCUIT (R4). Removes every contribution of a circuit, takes it out of its zone and returns it to the defaults. -/
  | unconfigureCircuit (tag : Byte) (body : List Byte)
  /-- READ_CIRCUIT (R23). Returns a circuit's configuration, contribution list, resolved record, transition fields and UNDRIVEN and FAULTED marks. -/
  | readCircuit (tag : Byte) (body : List Byte)
  /-- SET_HOST_LEVEL (R16). Places or re-places the HOST contribution on a circuit, clamping the level and fade, and answers FULL if the placement is refused. -/
  | setHostLevel (tag : Byte) (body : List Byte)
  /-- RELEASE_HOST_LEVEL (R17). Removes the HOST contribution from a circuit and clears its host-displaced flag. -/
  | releaseHostLevel (tag : Byte) (body : List Byte)
  /-- CONFIGURE_ZONE (R18). Configures or unconfigures a zone, or sets its master fade. -/
  | configureZone (tag : Byte) (body : List Byte)
  /-- SET_MASTER (R21). Sets a zone master from the host, clamped to 1000, as a master change. -/
  | setMaster (tag : Byte) (body : List Byte)
  /-- READ_ZONE (R23). Returns a zone's master, master fade and members. -/
  | readZone (tag : Byte) (body : List Byte)
  /-- WRITE_BINDING (R50). Checks a binding record, then creates or replaces the binding. -/
  | writeBinding (install : Bool) (tag : Byte) (body : List Byte)
  /-- READ_BINDING (R59). Returns a binding's record and marks, or the withheld form for a house id while the lock is set. -/
  | readBinding (tag : Byte) (body : List Byte)
  /-- RETIRE_BINDING (R56). Releases a binding's light, removes it from its index list and frees its id. -/
  | retireBinding (install : Bool) (tag : Byte) (body : List Byte)
  /-- SUSPEND_BINDING (R54). Releases an ARMED binding's light and makes it SUSPENDED. -/
  | suspendBinding (install : Bool) (tag : Byte) (body : List Byte)
  /-- RESUME_BINDING (R55). Makes a SUSPENDED binding ARMED without placing anything. -/
  | resumeBinding (install : Bool) (tag : Byte) (body : List Byte)
  /-- FIRE_BINDING (R57). Offers one binding to the Action Unit as if its gesture had occurred, with host-specific treatment of its key-dependent parts. -/
  | fireBinding (tag : Byte) (body : List Byte)
  /-- READ_NOTIFIED (R58). Returns up to 64 ids whose notify pending mark is set, clears their marks, and gives the count still set. -/
  | readNotified (tag : Byte) (body : List Byte)
  /-- SET_PROTECT_SIZE (R60). Changes the protect size that divides the house and show partitions. -/
  | setProtectSize (install : Bool) (tag : Byte) (body : List Byte)
  /-- LOCK_HOUSE (R61). Sets the house lock and begins a save of the image. -/
  | lockHouse (install : Bool) (tag : Byte) (body : List Byte)
  /-- ERASE_HOUSE (R63). Retires every house-partition binding, clears the lock and begins a save. -/
  | eraseHouse (install : Bool) (tag : Byte) (body : List Byte)
  /-- WRITE_SCENE (R86). Checks a scene definition, then defines or replaces the scene, or rewrites it while live. -/
  | writeScene (tag : Byte) (body : List Byte)
  /-- READ_SCENE (R96). Returns a scene's entries, fades, runtime values, marks and the pool entries in use. -/
  | readScene (tag : Byte) (body : List Byte)
  /-- DELETE_SCENE (R94). Releases a live scene, returns its entries to the pool and makes its id undefined. -/
  | deleteScene (tag : Byte) (body : List Byte)
  /-- RECALL_SCENE (R95). Recalls or re-recalls a scene at a tier with recaller HOST. -/
  | recallScene (tag : Byte) (body : List Byte)
  /-- RELEASE_SCENE (R95). Releases a scene at the host's request. -/
  | releaseScene (tag : Byte) (body : List Byte)
  /-- CONFIGURE_STATION (R118). Creates or updates a station record, discarding key records and resetting runtime fields if the kind changes. -/
  | configureStation (tag : Byte) (body : List Byte)
  /-- REMOVE_STATION (R119). Removes a station's holdings, repeats, captured marks, key records and group memberships, then deletes its record. -/
  | removeStation (tag : Byte) (body : List Byte)
  /-- READ_STATION (R136). Returns a station record, its lamp states and its key records. -/
  | readStation (tag : Byte) (body : List Byte)
  /-- CONFIGURE_GROUP (R132). Replaces a group's member list and drops its delivery. -/
  | configureGroup (tag : Byte) (body : List Byte)
  /-- SEND_GROUP_LAMP (R133). Starts a new group delivery with a banner state, giving each member PENDING or OFFLINE and making Group Lamp frames wait. -/
  | sendGroupLamp (tag : Byte) (body : List Byte)
  /-- READ_GROUP_RESULT (R133). Returns a group's members, banner state, delivery number and member codes. -/
  | readGroupResult (tag : Byte) (body : List Byte)
  /-- SURVEY (R131). Suspends normal polling and gives one Call slot to each address 1..60 of a line, keeping the slot WORKING. -/
  | survey (tag : Byte) (body : List Byte)
  /-- LINE_CONTROL (R130). Turns a station line OFF, or brings an OFF line into INTACT. -/
  | lineControl (tag : Byte) (body : List Byte)
  /-- SELECT_END (R126). Sets the active end of an INTACT line. -/
  | selectEnd (tag : Byte) (body : List Byte)
  /-- LINE_RESTART (R129). Stops driving a line, treats its stations as MISSING and starts the 200 ms restart listen. -/
  | lineRestart (tag : Byte) (body : List Byte)
  /-- RESTART_LISTEN_EXPIRY (R129). A quiet listen ends: the line becomes INTACT, every ONLINE station needs a snapshot, LINES is raised and the LineRestart is answered OK. -/
  | restartListenExpiry (line : Line)
  /-- READ_LINE (R136). Returns the line record and the station addresses by state, and clears the taken-over flag. -/
  | readLine (tag : Byte) (body : List Byte)
  /-- SET_MODE (R143). Takes a house mode change requested by the host. -/
  | setMode (tag : Byte) (body : List Byte)
  /-- READ_MODE (R143). Returns the house mode, the start mode, the latch, the filtered PANIC state and the count of EGRESS circuits. -/
  | readMode (tag : Byte) (body : List Byte)
  /-- CLEAR_EGRESS (R147). Clears the egress latch unless the filtered PANIC is asserted, and removes every EGRESS contribution with fade 0. -/
  | clearEgress (tag : Byte) (body : List Byte)
  /-- CONFIGURE_RACK (R149). Configures or unconfigures a rack. -/
  | configureRack (tag : Byte) (body : List Byte)
  /-- READ_RACK (R157). Returns a rack record, its channel assignments and the last frame sent. -/
  | readRack (tag : Byte) (body : List Byte)
  /-- SET_TIMINGS (R166). Replaces the timing settings, the start fade, the start mode and the preferred ends. -/
  | setTimings (tag : Byte) (body : List Byte)
  /-- SAVE_IMAGE (R171). Begins a save of the image. -/
  | saveImage (tag : Byte) (body : List Byte)
  /-- SAVE_COMPLETE (R171). The copy is written as the image, the marker becomes VALID and IMAGE is raised. -/
  | saveComplete
  /-- RESTART (R167). Causes a reset with cause REQUEST and places no answer. -/
  | restart (tag : Byte) (body : List Byte)
  /-- POWER_RESET (R173). Application of power resets the part with cause POWER. -/
  | powerReset
  /-- PIN_RESET (R173). RESET_N driven low resets the part with cause PIN. -/
  | pinReset
  /-- START_UP (R174). At stable power or the release of RESET_N, records the cause, loads the image, clears runtime, sets mode, feeds, circuits, lines and racks. -/
  | startUp
  /-- SLOT_START (R120). A line unit chooses and sends the content of its next slot: a Continuity, a Group Lamp, or a station frame with any Lamp frame. -/
  | slotStart (line : Line)
  /-- MARKED_CHARACTER_SENT (R126). At the end of a frame's marked character, the far end is checked for the echo, updating the continuity count, entering SPLIT or healing. -/
  | markedCharacterSent (line : Line) (echo : Bool)
  /-- STATION_ANSWER (R121). A whole Answer is taken: the station's state and miss count move, events are accepted, lamps confirmed and group codes settled. -/
  | stationAnswer (line : Line) (heard : List Heard)
  /-- SNAPSHOT_ANSWER (R124). A Snapshot Answer is taken: accepted-through takes the snapshot sequence, snapshot needed is cleared and the states are compared. -/
  | snapshotAnswer (line : Line) (heard : List Heard)
  /-- ANSWER_WINDOW_EXPIRY (R116). No answer begins within 3 ms: a silent slot is a miss, or in SPLIT the frame is resent on the other end. -/
  | answerWindowExpiry (line : Line)
  /-- FOREIGN_CHARACTER (R128). A marked character the part did not send is heard: the line enters CONTESTED, or a restart listen ends LINE_BUSY. -/
  | foreignCharacter (line : Line)
  /-- PROBE_TIMER_EXPIRY (R120). Every station in EXPECTED, MISSING or MISMATCH is added to the probe list. -/
  | probeTimerExpiry (line : Line)
  /-- HEAL_TIMER_EXPIRY (R127). A SPLIT line asks for a Continuity on the preferred end. -/
  | healTimerExpiry (line : Line)
  /-- HOLD_TIMER_EXPIRY (R102). A key in DOWN becomes HELD and HOLD is reported. -/
  | holdTimerExpiry (key : StationInput)
  /-- DOUBLE_TIMER_EXPIRY (R104). A key in WAIT_SECOND reports its deferred PRESS and returns to UP. -/
  | doubleTimerExpiry (key : StationInput)
  /-- STUCK_TIMER_EXPIRY (R105). A key in DOWN or HELD enters STUCK, its holdings and repeats are removed and STUCK is raised. -/
  | stuckTimerExpiry (key : StationInput)
  /-- REPEAT_TIMER_EXPIRY (R79). A repeat record makes one RAISE or LOWER step and restarts its 100 ms timer. -/
  | repeatTimerExpiry (binding : Nat)
  /-- STEP_TIMER_EXPIRY (R25). Every fading circuit takes one step, phases complete, and every output level is recomputed. -/
  | stepTimerExpiry
  /-- BLOCK_TIMER_EXPIRY (R33). The current feed becomes the destination and the circuit begins a new BLOCK, FADING or UPSLOPE. -/
  | blockTimerExpiry (circuit : Nat)
  /-- PANIC_INPUT_CHANGE (R144). A change of the PANIC input starts or stops the 50 ms filter timer. -/
  | panicInputChange (asserted : Bool)
  /-- PANIC_FILTER_EXPIRY (R144). The filtered PANIC takes the input's value, setting the latch or raising EGRESS. -/
  | panicFilterExpiry
  /-- ROUND_TIMER_EXPIRY (R150). A rack link round begins, restarting the 40 ms timer and building the first rack's Level frame. -/
  | roundTimerExpiry
  /-- LEVEL_FRAME_SENT (R150). The part stops driving the pair, records the last frame and opens the 10 ms reply window. -/
  | levelFrameSent
  /-- RACK_REPLY (R153). A whole reply is taken: status and fault set recorded, miss count cleared and the rack's state moved. -/
  | rackReply (chars : List Character)
  /-- REPLY_WINDOW_EXPIRY (R154). A missing reply raises the miss count, may make an ONLINE rack LOST, and the round moves to the next rack or ends. -/
  | replyWindowExpiry
  /-- STATION_FRAME_SENT (R116). The last character of a frame the part sends on a station line goes out. A Group Lamp or Continuity slot ends there and its group leaves the waiting set; after a call, the 3 ms answer window opens. -/
  | stationFrameSent (line : Line)
deriving DecidableEq, Repr

end Sys2Proof
end

