-- ==== Sys2Proof/Decode.lean ====
section
/-! DEFINITION. The word form of the opcode table. The table of this block gives no row any bits, so no word spells a
command: commands come from outside as the transfers, characters, expiries and pins they are. -/

namespace Sys2Proof

/-- The command a word spells by the table's bits. No row of the table gives bits. -/
def decodeTableWord (_nbits _w : Nat) : Option Instr := none

end Sys2Proof
end

