-- ==== Sys2Proof/Config.lean ====
section
/-! DEFINITION. The capacities and fixed times the manual states, and the free values: constants with no body for what
the manual leaves open. Nothing about a free value can be proved or evaluated. -/

namespace Sys2Proof

/-- The greatest length of a contribution list (R6). -/
def Config.listLimit : Nat := 8

/-- The entries of the scene pool (R85). -/
def Config.poolSize : Nat := 2048

/-- The bindings that may share a source and a gesture (R49). -/
def Config.indexLimit : Nat := 4

/-- The members a group may have (R132). -/
def Config.memberLimit : Nat := 32

/-- The greatest length of a request body or an answer body (R161, R163). -/
def Config.bodyLimit : Nat := 250

/-- The greatest number of binding ids in one ReadNotified answer (R58). -/
def Config.notifiedLimit : Nat := 64

/-- The part identifier that Identify returns (R165). -/
def Config.partIdentifier : Nat := 2560

/-- The revision that Identify returns (R165). -/
def Config.revision : Nat := 1

/-- The states for which the manual names the states but no code (R176 lists no enumeration of them). -/
inductive OpenCode where
  | imageValid | imageInvalid
  | lineOff | lineIntact | lineSplit | lineContested
  | reachA | reachB | reachUnknown
  | classKey | classContact | classFader
  | keyUp | keyDown | keyHeld | keyWaitSecond | keyStuck
  | rackAbsent | rackWaiting | rackOnline | rackLost
deriving DecidableEq, Repr

/-- FREE VALUE. The byte that stands in an answer for a state whose code the manual does not list. -/
opaque Config.openCode : OpenCode → Byte

/-- Fields of an answer that hold no value in the present state and whose absent value R176 does not list. -/
inductive OpenField where
  | stepCount | stepTotal | blockMilliseconds
deriving DecidableEq, Repr

/-- FREE VALUE. The two bytes ReadCircuit sends for a field of R42 that has no value in the circuit's present phase. -/
opaque Config.absentField : OpenField → BitVec 16

/-- FREE VALUE. The four bytes ReadRack sends as transfer flags for a rack whose last frame is none (R157). -/
opaque Config.absentFlags : BitVec 32

/-- FREE VALUE. The edge-mode bytes of the Configure frame of a station that has no contacts (R115, section 12.6). -/
opaque Config.idleEdgeModes : BitVec 16

/-- FREE VALUE. The filter byte of the Configure frame of a station that has no contacts (R115, section 12.6). -/
opaque Config.idleFilter : Byte

/-- FREE VALUE. What the part answers where the fields of an answer body need more than the 250 bytes R163 allows. -/
opaque Config.overlongBody : List Byte → List Byte

/-- FREE VALUE. Whether, at the n-th ClearEgress carried out, the report of the latch's clearing reaches the Transition
Unit before the handovers (R39, R147 allow either order). -/
opaque Config.latchReportFirst : Nat → Bool

/-- FREE VALUE. Whether, at the n-th use, an expiry of the step timer falls inside step 3 of a mode change that also reports
a new required feed, and if so after the handover of which circuit: those up to it are handed over before the expiry, the
others after it, and the report follows (R142 allows an expiry between a handover of step 3 and the report). -/
opaque Config.stepInModeChange : Nat → Option Nat

end Sys2Proof
end

