-- ==== Sys2Proof/Machine/State.lean ====
section
/-! DEFINITION. Everything the FZ-2560 holds, as plain data: the records of each block, the host link, the image, the
station lines and the rack link with what is in flight on them, the input pins, and the queue of waiting commands.

An identifier with no entry in a table has no record: an unconfigured circuit or zone, a free binding id, an undefined
scene, an address with no station. What the manual derives from other state is not stored a second time: the partition of
a binding (R43), the source index (R46), holds counts and scene liveness (R11, R91), the members of a zone (R19), a
station's group set (R132), the pool entries in use (R85), the UNDRIVEN and FAULTED marks (R156), READY and ATTN (R159). -/

namespace Sys2Proof.Machine

/-! ## Circuits -/

/-- The house modes (R138). -/
inductive HouseMode where
  | work | prepare | performance | interval | cleaning | night
deriving DecidableEq, Repr

/-- The kinds of circuit (R1). -/
inductive CircuitKind where
  | dimmed | switched | transfer
deriving DecidableEq, Repr

/-- The two feeds of a TRANSFER circuit. A circuit of another kind has its house feed alone (R24). -/
inductive Feed where
  | house | stage
deriving DecidableEq, Repr

/-- A rack channel, written rack/channel (conventions, section 1.5). -/
structure RackChannel where
  rack : Nat
  channel : Nat
deriving DecidableEq, Repr

/-- The configuration part of a configured circuit (R1). -/
structure CircuitConfig where
  kind : CircuitKind
  house : RackChannel
  stage : Option RackChannel
  zone : Option Nat
  minTrim : Nat
  maxTrim : Nat
  threshold : Nat
  rest : Nat
  downslope : Nat
  block : Nat
  upslope : Nat
  audience : Bool
  egress : Bool
deriving DecidableEq, Repr

/-- The party a contribution belongs to (R5). -/
inductive Origin where
  | binding (id : Nat)
  | scene (id : Nat)
  | host
  | egress
deriving DecidableEq, Repr

/-- The party that recalled a scene (R5, R84). -/
inductive Recaller where
  | binding (id : Nat)
  | host
deriving DecidableEq, Repr

/-- One claim on one circuit (R5). Tiers are 0 AMBIENT, 1 LOCAL, 2 SHOW, 3 EGRESS. -/
structure Contribution where
  origin : Origin
  tier : Nat
  level : Nat
  arrival : Nat
  release : Nat
  recaller : Option Recaller
  heldBy : Option StationInput
  dormant : Bool
deriving DecidableEq, Repr

/-- The resolved record of a circuit (R1); a winning tier of none is NONE. -/
structure Resolved where
  winning : Option Nat
  raw : Nat
  target : Nat
  hostDisplaced : Bool
deriving DecidableEq, Repr

/-- What a circuit's drive level is doing (R24). -/
inductive CircuitPhase where
  | steady | fading | downslope | block | upslope
deriving DecidableEq, Repr

/-- The Transition Unit's fields of a circuit (R24). -/
structure Transition where
  level : Nat
  phase : CircuitPhase
  target : Nat
  egressFlag : Bool
  origin : Nat
  fadeEnd : Nat
  stepCount : Nat
  stepTotal : Nat
  blockTimer : Option Nat
  feed : Feed
  pendingTransfer : Option Feed
  relay : Option Feed
  output : Nat
deriving DecidableEq, Repr

/-- A configured circuit: its configuration, its contribution list oldest first, its resolved record and its transition
fields (R1, R6, R24). -/
structure Circuit where
  config : CircuitConfig
  claims : List Contribution
  resolved : Resolved
  transition : Transition
deriving DecidableEq, Repr

/-- The record of a circuit 1..256 as R1 and R24 lay it down, configured or not. An unconfigured circuit has no feed. The
state holds the records of the configured circuits, and State.circuitRecord gives the record of any. -/
structure CircuitRecord where
  configured : Bool
  kind : CircuitKind
  house : Option RackChannel
  stage : Option RackChannel
  zone : Option Nat
  minTrim : Nat
  maxTrim : Nat
  threshold : Nat
  rest : Nat
  downslope : Nat
  block : Nat
  upslope : Nat
  audience : Bool
  egress : Bool
  claims : List Contribution
  resolved : Resolved
  transition : Transition
deriving DecidableEq, Repr

/-- A configured zone (R18). -/
structure Zone where
  master : Nat
  masterFade : Nat
deriving DecidableEq, Repr

/-! ## Bindings -/

/-- The gestures (R43). -/
inductive Gesture where
  | down | up | press | hold | holdEnd | double | move
deriving DecidableEq, Repr

/-- A set of house modes (R43). -/
structure ModeSet where
  work : Bool
  prepare : Bool
  performance : Bool
  interval : Bool
  cleaning : Bool
  night : Bool
deriving DecidableEq, Repr

/-- A circuit or zone target. -/
inductive Area where
  | circuit (id : Nat)
  | zone (id : Nat)
deriving DecidableEq, Repr

/-- An action with the fields R44 gives it and no others. -/
inductive Action where
  | level (area : Area) (level tier fade : Nat) (momentary : Bool)
  | toggle (area : Area) (level tier fade : Nat)
  | release (area : Area) (tier : Nat)
  | scene (id tier : Nat)
  | sceneOff (id : Nat)
  | master (zone level : Nat)
  | raise (zone step : Nat)
  | lower (zone step : Nat)
  | followMaster (zone : Nat)
  | followLevel (area : Area) (tier fade : Nat)
  | mode (mode : HouseMode)
  | notify
deriving DecidableEq, Repr

/-- How the lamp of a binding's source key follows it (R43). -/
inductive LampLink where
  | follow | scene | mode
deriving DecidableEq, Repr

/-- The record of a binding in use, as the image stores it (R43, R170). -/
structure BindingRecord where
  source : StationInput
  gesture : Gesture
  modes : ModeSet
  action : Action
  lamp : Option LampLink
  suspended : Bool
deriving DecidableEq, Repr

/-- A binding in use: its record and its runtime marks (R45). -/
structure Binding where
  record : BindingRecord
  displacedMark : Bool
  partialMark : Bool
  notifyPending : Bool
  captured : Bool
deriving DecidableEq, Repr

/-- Where the gesture behind a firing came from (R65). -/
inductive FiringSource where
  | station (key : StationInput)
  | host
deriving DecidableEq, Repr

/-- The binding the Action Unit holds while it carries out its action, with the firing context (R65). -/
structure Firing where
  binding : Nat
  gesture : Gesture
  source : FiringSource
  position : Option Nat
deriving DecidableEq, Repr

/-- A repeat record (R78). -/
structure Repeat where
  binding : Nat
  zone : Nat
  upward : Bool
  step : Nat
  key : StationInput
  timer : Nat
deriving DecidableEq, Repr

/-! ## Scenes -/

/-- The definition of a scene, as the image stores it: entries of circuit and level, and the fades (R84, R170). -/
structure SceneDef where
  entries : List (Nat × Nat)
  fadeIn : Nat
  fadeOut : Nat
deriving DecidableEq, Repr

/-- A defined scene: its definition and its runtime (R84). -/
structure Scene where
  definition : SceneDef
  liveTier : Option Nat
  recaller : Option Recaller
  partialMark : Bool
  displacedMark : Bool
deriving DecidableEq, Repr

/-! ## Stations and keys -/

/-- The class of a station input (R98). -/
inductive InputClass where
  | key | contact | fader
deriving DecidableEq, Repr

/-- What a key is doing (R97). -/
inductive KeyState where
  | up | down | held | waitSecond | stuck
deriving DecidableEq, Repr

/-- A key record (R97). Timers are none when stopped and otherwise hold the milliseconds left. The momentary holdings are
pairs of binding and circuit, in rising order. -/
structure KeyRecord where
  inputClass : InputClass
  state : KeyState
  plainRelease : Bool
  downStamp : Option Stamp
  lastUpStamp : Option Stamp
  holdTimer : Option Nat
  doubleTimer : Option Nat
  stuckTimer : Option Nat
  position : Option Nat
  holdings : List (Nat × Nat)
deriving DecidableEq, Repr

/-- The edge modes of a contact (R107). -/
inductive EdgeMode where
  | rise | fall | both
deriving DecidableEq, Repr

/-- The contact filters: 10, 20, 40 or 160 ms (R117). -/
inductive ContactFilter where
  | ms10 | ms20 | ms40 | ms160
deriving DecidableEq, Repr

/-- The station kinds (R117). -/
inductive StationKind where
  | keypad | fader | contact
deriving DecidableEq, Repr

/-- The configuration of a station, as the image stores it: the expected kind, and for a CONTACT its eight edge modes and
its filter (R117, R170). -/
inductive StationSetup where
  | keypad
  | fader
  | contact (edges : List EdgeMode) (filter : ContactFilter)
deriving DecidableEq, Repr

/-- The states of a station (R117). -/
inductive StationState where
  | expected | joining | online | mismatch | missing
deriving DecidableEq, Repr

/-- A lamp or banner state (R115). -/
inductive LampState where
  | off | on | flash
deriving DecidableEq, Repr

/-- The desired and the confirmed state of one lamp key; a confirmed state of none is UNKNOWN (R117). -/
structure Lamp where
  key : Nat
  desired : LampState
  confirmed : Option LampState
deriving DecidableEq, Repr

/-- A station record with its key records; a reach of none is UNKNOWN (R117, R97). -/
structure Station where
  setup : StationSetup
  state : StationState
  reach : Option LineEnd
  missCount : Nat
  accepted : Nat
  snapshotNeeded : Bool
  configurePending : Bool
  lamps : List Lamp
  keys : Table KeyRecord
deriving DecidableEq, Repr

/-! ## Station lines -/

/-- The states of a station line (R125). -/
inductive LineState where
  | off | intact | split | contested
deriving DecidableEq, Repr

/-- Which of the polled set and the probe list takes the next station call (R120). -/
inductive Turn where
  | polled | probe
deriving DecidableEq, Repr

/-- The frame of a station call (R120). -/
inductive CallFrame where
  | call | configure | snapshotCall
deriving DecidableEq, Repr

/-- A station call in progress: the station, the frame, the lamp states sent with it, the group it queries for the
delivery of the moment, whether it was chosen from the probe list, and whether the station record it was begun for has
been removed or given another kind (R118, R119). -/
structure StationCall where
  address : Nat
  frame : CallFrame
  lampsSent : Option (List (Nat × LampState))
  query : Option Nat
  fromProbeList : Bool
  voided : Bool
deriving DecidableEq, Repr

/-- What a slot carries (R115, R131). -/
inductive SlotUse where
  | continuity
  | groupLamp (group : Nat)
  | call (call : StationCall)
  | survey (address : Nat)
deriving DecidableEq, Repr

/-- The slot in progress on a line: what it carries, its frames as bytes with the address first, the end it is driven on,
the frames still to go out on that end with the one going out first, the end on which the content is still to be sent
where it is to be sent on both, and the milliseconds left of the answer window while it is open (R115, R116, R127). -/
structure Slot where
  carries : SlotUse
  content : List (List Byte)
  side : LineEnd
  sending : List (List Byte)
  otherSide : Option LineEnd
  window : Option Nat
deriving DecidableEq, Repr

/-- A Survey in progress: the next address, the addresses heard with the kind code reported or 0xFE for GARBLED, and the
timer expiries held until its end (R131). -/
structure Survey where
  next : Nat
  found : List (Nat × Byte)
  probeHeld : Bool
  healHeld : Bool
deriving DecidableEq, Repr

/-- A line unit: the line record of R125, the groups whose Group Lamp frame waits (R133), a Continuity asked for by the
heal timer (R127), the Survey and the slot in progress, and the station records of the line (R117). preferredInUse is the
preferred end that last took effect: a change of the setting takes effect at the next heal, restart, LineControl ON or
reset (R125). -/
structure LineUnit where
  state : LineState
  preferred : LineEnd
  preferredInUse : LineEnd
  active : LineEnd
  continuity : Nat
  healTimer : Option Nat
  probeTimer : Option Nat
  takenOver : Bool
  listen : Option Nat
  nextPolled : Nat
  turn : Turn
  probeList : List Nat
  waiting : List Nat
  continuityAsked : Bool
  survey : Option Survey
  slot : Option Slot
  stations : Table Station
deriving DecidableEq, Repr

/-- A member of a group (R132). -/
structure Member where
  line : Line
  address : Nat
deriving DecidableEq, Repr

/-- The codes of a group delivery (R133). -/
inductive GroupCode where
  | pending | ok | refused | garbled | noAnswer | offline
deriving DecidableEq, Repr

/-- One member's entry in a delivery: its code and its query count (R132). -/
structure DeliveryEntry where
  member : Member
  code : GroupCode
  queries : Nat
deriving DecidableEq, Repr

/-- A group record (R132). -/
structure Group where
  members : List Member
  banner : LampState
  lastNumber : Nat
  delivery : Option (List DeliveryEntry)
deriving DecidableEq, Repr

/-! ## Racks -/

/-- The states of a rack; ABSENT is an unconfigured rack (R148). -/
inductive RackState where
  | absent | waiting | online | lost
deriving DecidableEq, Repr

/-- The status a rack reports (R148). -/
inductive RackStatus where
  | ready | hot | breaker
deriving DecidableEq, Repr

/-- The content of a Level frame: the levels of channels 1..32 in order, and the transfer flags (R151). -/
structure LevelFrame where
  levels : List Nat
  flags : ChannelSet
deriving DecidableEq, Repr

/-- A rack record (R148). -/
structure Rack where
  state : RackState
  missCount : Nat
  status : Option RackStatus
  faults : ChannelSet
  last : Option LevelFrame
deriving DecidableEq, Repr

/-- The slot in progress on the rack link: the rack, the frame, the milliseconds left of the reply window (none while the
frame is going out), and whether the rack has been unconfigured since the slot began (R149, R150). -/
structure RackSlot where
  rack : Nat
  frame : LevelFrame
  window : Option Nat
  voided : Bool
deriving DecidableEq, Repr

/-! ## Host link, image and start-up -/

/-- The result codes (R163). -/
inductive Result where
  | ok | badRequest | outOfRange | noSuch | duplicate | full | inUse | locked | notInstaller | busySaving | active
  | lineBusy | notNow | none
deriving DecidableEq, Repr

/-- A request as taken: code, tag and body (R159). -/
structure Request where
  code : Byte
  tag : Byte
  body : List Byte
deriving DecidableEq, Repr

/-- An answer frame but for its link status, which is formed as the Fetch begins (R162, R163). -/
structure Answer where
  tag : Byte
  result : Result
  clamped : Bool
  body : List Byte
deriving DecidableEq, Repr

/-- The slot state with the request in work or the waiting answer (R159). -/
inductive HostSlot where
  | idle
  | working (request : Request)
  | answerReady (answer : Answer)
deriving DecidableEq, Repr

/-- The members of the notice set (R159). -/
inductive Notice where
  | stations | lines | racks | faults | stuck | notify | mode | egress | group | image
deriving DecidableEq, Repr

/-- The notice set (R159). -/
structure NoticeSet where
  stations : Bool
  lines : Bool
  racks : Bool
  faults : Bool
  stuck : Bool
  notify : Bool
  mode : Bool
  egress : Bool
  group : Bool
  image : Bool
deriving DecidableEq, Repr

/-- The causes of a reset (R173). -/
inductive ResetCause where
  | power | pin | request
deriving DecidableEq, Repr

/-- Whether the part runs, or a reset lasts and start-up has not run (R173). -/
inductive Power where
  | running
  | inReset (cause : ResetCause)
deriving DecidableEq, Repr

/-- The settings of SetTimings but for the preferred ends: hold threshold and double window in ms, stuck limit in s,
start fade in tenths, start mode (R100, R166, R170). -/
structure Settings where
  hold : Nat
  doubleWindow : Nat
  stuck : Nat
  startFade : Nat
  startMode : HouseMode
deriving DecidableEq, Repr

/-- What the image stores of one station line: the preferred end, the setting ON or OFF, and the stations (R170). -/
structure LineImage where
  preferred : LineEnd
  on : Bool
  stations : Table StationSetup
deriving DecidableEq, Repr

/-- The items of the image (R170). -/
structure Image where
  circuits : Table CircuitConfig
  zones : Table Zone
  bindings : Table BindingRecord
  scenes : Table SceneDef
  groups : Table (List Member)
  racks : List Nat
  protectSize : Nat
  houseLock : Bool
  settings : Settings
  lineA : LineImage
  lineB : LineImage
deriving DecidableEq, Repr

/-- The whole state of the part. -/
structure State where
  /-- Whether the part runs or a reset lasts (R173). -/
  power : Power
  /-- The PANIC input (section 1.2, R144). -/
  panicInput : Bool
  /-- The INSTALL input as it stood at the last request judged by it (section 1.2, R60). -/
  installInput : Bool
  /-- The bytes shifted out on SDO in the last transfer the part took part in (R160, R162). -/
  sdo : List Byte
  /-- Slot state, request in work and answer slot (R159). -/
  hostSlot : HostSlot
  /-- The collision flag (R159). -/
  collision : Bool
  /-- The notice set (R159). -/
  notices : NoticeSet
  /-- The image; none while the validity marker is INVALID, since its content is then lost (R170, R172). -/
  image : Option Image
  /-- The copy being written while a save runs (R171). -/
  saving : Option Image
  /-- The cause recorded at the last start-up (R173). -/
  resetCause : ResetCause
  /-- The timing settings, start fade and start mode (R100, R166). -/
  settings : Settings
  /-- The house mode (R138). -/
  mode : HouseMode
  /-- The egress latch (R138). -/
  latch : Bool
  /-- The filtered PANIC (R138). -/
  panicFiltered : Bool
  /-- The PANIC filter timer (R138). -/
  panicTimer : Option Nat
  /-- The configured circuits (R1). -/
  circuits : Table Circuit
  /-- The configured zones (R18). -/
  zones : Table Zone
  /-- The Transition Unit's required feed (R24). -/
  requiredFeed : Feed
  /-- The Transition Unit's copy of the egress latch (R24). -/
  latchCopy : Bool
  /-- The 20 ms step timer (R25). -/
  stepTimer : Option Nat
  /-- The bindings in use (R43). -/
  bindings : Table Binding
  /-- The protect size (R60). -/
  protectSize : Nat
  /-- The house lock (R61, R62). -/
  houseLock : Bool
  /-- The binding being fired (R65). -/
  offered : Option Firing
  /-- The repeat list (R78). -/
  repeats : List Repeat
  /-- The defined scenes (R84). -/
  scenes : Table Scene
  /-- Line unit A (R125). -/
  lineA : LineUnit
  /-- Line unit B (R125). -/
  lineB : LineUnit
  /-- The group records 1..15 (R132). -/
  groups : Table Group
  /-- The rack records 1..8 (R148). -/
  racks : Table Rack
  /-- The 40 ms round timer; none once it has expired and the round it asks for has not begun (R150). -/
  roundTimer : Option Nat
  /-- The slot in progress on the rack link; none between rounds (R150). -/
  rackSlot : Option RackSlot
  /-- THE MODEL'S OWN: how many free choices of order have been used (no field of the manual). -/
  freeUses : Nat
  /-- THE MODEL'S OWN: the commands that wait, first in, first out. -/
  pending : List Instr
deriving DecidableEq, Repr

/-- Why the part stops with a fault. The manual gives every command an effect, so nothing raises a fault. -/
inductive Fault where
deriving DecidableEq, Repr

/-- Why a command has no meaning here. -/
inductive Refusal where
  /-- Raised by an arm of exec for a command that has no meaning yet; safe. -/
  | notModelled (mnemonic : String)
deriving DecidableEq, Repr

/-! ## After reset -/

/-- The settings where the image is invalid (R100, R170). -/
def Settings.blank : Settings :=
  { hold := 600, doubleWindow := 400, stuck := 120, startFade := 30, startMode := .work }

/-- The items of the image where the marker is INVALID (R170). -/
def Image.blank : Image :=
  { circuits := [], zones := [], bindings := [], scenes := [], groups := [], racks := [], protectSize := 0,
    houseLock := false, settings := .blank, lineA := ⟨.a, true, []⟩, lineB := ⟨.a, true, []⟩ }

/-- The notice set with no member (R159). -/
def NoticeSet.empty : NoticeSet :=
  { stations := false, lines := false, racks := false, faults := false, stuck := false, notify := false, mode := false,
    egress := false, group := false, image := false }

/-- A line unit right after reset, on the given preferred end, ON or OFF (R125). -/
def LineUnit.fresh (preferred : LineEnd) (on : Bool) (stations : Table Station) : LineUnit :=
  { state := if on then .intact else .off, preferred := preferred, preferredInUse := preferred, active := preferred,
    continuity := 0, healTimer := none, probeTimer := if on then some 1000 else none, takenOver := false, listen := none,
    nextPolled := 1, turn := .polled, probeList := [], waiting := [], continuityAsked := false, survey := none,
    slot := none, stations := stations }

/-- A group record with the given members right after reset (R132). -/
def Group.fresh (members : List Member) : Group :=
  { members := members, banner := .off, lastNumber := 7, delivery := none }

/-- The record of an unconfigured rack (R148). -/
def Rack.blank : Rack :=
  { state := .absent, missCount := 0, status := none, faults := 0, last := none }

/-- The identifiers 1..n. -/
def identifiers (n : Nat) : List Nat := (List.range n).map (· + 1)

/-- The machine right after a power reset whose start-up found the image invalid (R174, R175): the tables empty, IMAGE
raised, the timers of R175 running, and no command waiting. -/
def State.reset : State :=
  { power := .running, panicInput := false, installInput := false, sdo := [], hostSlot := .idle, collision := false,
    notices := { NoticeSet.empty with image := true }, image := none, saving := none, resetCause := .power,
    settings := .blank, mode := .work, latch := false, panicFiltered := false, panicTimer := none, circuits := [],
    zones := [], requiredFeed := .house, latchCopy := false, stepTimer := some 20, bindings := [], protectSize := 0,
    houseLock := false, offered := none, repeats := [], scenes := [], lineA := .fresh .a true [],
    lineB := .fresh .a true [], groups := (identifiers 15).map fun g => (g, .fresh []),
    racks := (identifiers 8).map fun r => (r, .blank), roundTimer := some 40, rackSlot := none, freeUses := 0,
    pending := [] }

end Sys2Proof.Machine
end

