-- ==== Sys2Proof/Machine/Operands.lean ====
section
/-! DEFINITION. The encodings of chapter 12: byte order, the code of every enumeration, the bodies of requests that carry
a record, the frames of the station lines and the rack link with their checks. A decoder of a body says whether the body
is malformed, holds a value outside its range, or gives a record (R176). -/

namespace Sys2Proof.Machine

/-! ## Numbers and sets in bytes -/

/-- A two-byte quantity, most significant byte first (R176). -/
def be16 (h l : Byte) : Nat := h.toNat * 256 + l.toNat

/-- The low eight bits of a number as a byte. -/
def byteOf (n : Nat) : Byte := BitVec.ofNat 8 n

/-- A two-byte quantity as bytes, most significant first (R176). -/
def bytes16 (n : Nat) : List Byte := [byteOf (n / 256), byteOf n]

/-- A set of channels as four bytes, most significant first (R176). -/
def bytes32 (v : BitVec 32) : List Byte :=
  [v.extractLsb' 24 8, v.extractLsb' 16 8, v.extractLsb' 8 8, v.extractLsb' 0 8]

/-- Four bytes, most significant first, as a set of channels (R176). -/
def be32 (a b c d : Byte) : BitVec 32 := a ++ b ++ c ++ d

/-- A flag or mark (R176). -/
def flagByte (b : Bool) : Byte := if b then 1 else 0

/-- Reading a flag; a code other than 0 and 1 is outside the encoding (R176). -/
def flagOfByte (b : Byte) : Option Bool :=
  match b.toNat with
  | 0 => some false
  | 1 => some true
  | _ => none

/-- An enumeration or tier that may be absent: 0xFF when absent (R176). -/
def orAbsent (b : Option Byte) : Byte := b.getD 0xFF

/-- The number whose set bits are those named (R176). -/
def bitsOf (bits : List Nat) : Nat := bits.foldl (fun n i => n ||| (1 <<< i)) 0

/-- A set of addresses in eight bytes, bit a − 1 for address a (R176). -/
def addressSet (addresses : List Nat) : List Byte :=
  (List.range 8).map fun i => byteOf (bitsOf (addresses.map (· - 1)) >>> (8 * (7 - i)))

/-- Whether a list of numbers is strictly rising. -/
def rising : List Nat → Bool
  | x :: y :: rest => decide (x < y) && rising (y :: rest)
  | _ => true

/-- Whether a number lies in the range given. -/
def within (low high n : Nat) : Bool := decide (low ≤ n) && decide (n ≤ high)

/-! ## Enumeration codes (section 12.2) -/

def lineCode : Line → Byte
  | .a => 0
  | .b => 1

def lineOfCode (b : Byte) : Option Line :=
  match b.toNat with
  | 0 => some .a
  | 1 => some .b
  | _ => none

def endCode : LineEnd → Byte
  | .a => 0
  | .b => 1

def endOfCode (b : Byte) : Option LineEnd :=
  match b.toNat with
  | 0 => some .a
  | 1 => some .b
  | _ => none

def Result.code : Result → Byte
  | .ok => 0 | .badRequest => 1 | .outOfRange => 2 | .noSuch => 3 | .duplicate => 4 | .full => 5 | .inUse => 6
  | .locked => 7 | .notInstaller => 8 | .busySaving => 9 | .active => 10 | .lineBusy => 11 | .notNow => 12 | .none => 255

def HouseMode.code : HouseMode → Byte
  | .work => 0 | .prepare => 1 | .performance => 2 | .interval => 3 | .cleaning => 4 | .night => 5

/-- The house mode of a code, given as a number (section 12.2). -/
def modeOfNat : Nat → Option HouseMode
  | 0 => some .work
  | 1 => some .prepare
  | 2 => some .performance
  | 3 => some .interval
  | 4 => some .cleaning
  | 5 => some .night
  | _ => none

def Gesture.code : Gesture → Byte
  | .down => 0 | .up => 1 | .press => 2 | .hold => 3 | .holdEnd => 4 | .double => 5 | .move => 6

def gestureOfCode (b : Byte) : Option Gesture :=
  match b.toNat with
  | 0 => some .down
  | 1 => some .up
  | 2 => some .press
  | 3 => some .hold
  | 4 => some .holdEnd
  | 5 => some .double
  | 6 => some .move
  | _ => none

def LampLink.code : LampLink → Byte
  | .follow => 0 | .scene => 1 | .mode => 2

/-- A lamp link field: 0xFF when absent, none outside the enumeration. -/
def lampLinkOfCode (b : Byte) : Option (Option LampLink) :=
  match b.toNat with
  | 0 => some (some .follow)
  | 1 => some (some .scene)
  | 2 => some (some .mode)
  | 255 => some none
  | _ => none

def CircuitKind.code : CircuitKind → Byte
  | .dimmed => 0 | .switched => 1 | .transfer => 2

def circuitKindOfCode (b : Byte) : Option CircuitKind :=
  match b.toNat with
  | 0 => some .dimmed
  | 1 => some .switched
  | 2 => some .transfer
  | _ => none

def CircuitPhase.code : CircuitPhase → Byte
  | .steady => 0 | .fading => 1 | .downslope => 2 | .block => 3 | .upslope => 4

def Feed.code : Feed → Byte
  | .house => 0 | .stage => 1

def StationKind.code : StationKind → Byte
  | .keypad => 0 | .fader => 1 | .contact => 2

def stationKindOfNat : Nat → Option StationKind
  | 0 => some .keypad
  | 1 => some .fader
  | 2 => some .contact
  | _ => none

def LampState.code : LampState → Byte
  | .off => 0 | .on => 1 | .flash => 2

def lampStateOfCode (b : Byte) : Option LampState :=
  match b.toNat with
  | 0 => some .off
  | 1 => some .on
  | 2 => some .flash
  | _ => none

/-- A confirmed lamp state, UNKNOWN being 3. -/
def confirmedCode : Option LampState → Byte
  | some s => s.code
  | none => 3

def EdgeMode.code : EdgeMode → Byte
  | .rise => 0 | .fall => 1 | .both => 2

def edgeModeOfCode (b : Byte) : Option EdgeMode :=
  match b.toNat with
  | 0 => some .rise
  | 1 => some .fall
  | 2 => some .both
  | _ => none

def ContactFilter.code : ContactFilter → Byte
  | .ms10 => 0 | .ms20 => 1 | .ms40 => 2 | .ms160 => 3

def filterOfCode (b : Byte) : Option ContactFilter :=
  match b.toNat with
  | 0 => some .ms10
  | 1 => some .ms20
  | 2 => some .ms40
  | 3 => some .ms160
  | _ => none

def RackStatus.code : RackStatus → Byte
  | .ready => 0 | .hot => 1 | .breaker => 2

def rackStatusOfCode (b : Byte) : Option RackStatus :=
  match b.toNat with
  | 0 => some .ready
  | 1 => some .hot
  | 2 => some .breaker
  | _ => none

def GroupCode.code : GroupCode → Byte
  | .pending => 0 | .ok => 1 | .refused => 2 | .garbled => 3 | .noAnswer => 4 | .offline => 5

def ResetCause.code : ResetCause → Byte
  | .power => 0 | .pin => 1 | .request => 2

def StationState.code : StationState → Byte
  | .expected => 0 | .joining => 1 | .online => 2 | .mismatch => 3 | .missing => 4

/-! The states whose codes section 12.2 does not list. -/

def LineState.code : LineState → Byte
  | .off => Config.openCode .lineOff
  | .intact => Config.openCode .lineIntact
  | .split => Config.openCode .lineSplit
  | .contested => Config.openCode .lineContested

def reachCode : Option LineEnd → Byte
  | some .a => Config.openCode .reachA
  | some .b => Config.openCode .reachB
  | none => Config.openCode .reachUnknown

def InputClass.code : InputClass → Byte
  | .key => Config.openCode .classKey
  | .contact => Config.openCode .classContact
  | .fader => Config.openCode .classFader

def KeyState.code : KeyState → Byte
  | .up => Config.openCode .keyUp
  | .down => Config.openCode .keyDown
  | .held => Config.openCode .keyHeld
  | .waitSecond => Config.openCode .keyWaitSecond
  | .stuck => Config.openCode .keyStuck

def RackState.code : RackState → Byte
  | .absent => Config.openCode .rackAbsent
  | .waiting => Config.openCode .rackWaiting
  | .online => Config.openCode .rackOnline
  | .lost => Config.openCode .rackLost

def imageStateCode (valid : Bool) : Byte := Config.openCode (if valid then .imageValid else .imageInvalid)

/-! ## Sets of modes -/

/-- Whether a mode is in the set. -/
def ModeSet.has (m : ModeSet) : HouseMode → Bool
  | .work => m.work
  | .prepare => m.prepare
  | .performance => m.performance
  | .interval => m.interval
  | .cleaning => m.cleaning
  | .night => m.night

/-- A set of modes as a byte: bit n for the mode of code n (R176). -/
def ModeSet.toByte (m : ModeSet) : Byte :=
  flagByte m.work ||| flagByte m.prepare <<< 1 ||| flagByte m.performance <<< 2 ||| flagByte m.interval <<< 3 |||
    flagByte m.cleaning <<< 4 ||| flagByte m.night <<< 5

/-- A set of modes from its byte; a set bit with no member is outside the encoding, and an empty set is malformed
(R176, R50). -/
def modeSetOfByte (b : Byte) : Option ModeSet :=
  if b = 0 ∨ 64 ≤ b.toNat then none
  else some ⟨b.getLsbD 0, b.getLsbD 1, b.getLsbD 2, b.getLsbD 3, b.getLsbD 4, b.getLsbD 5⟩

/-! ## Origins, recallers, targets -/

/-- An origin: its kind code and identifier (R176, section 12.2). HOST and EGRESS have no identifier, and 0 is sent (DESIGN
CHOICE, log entry 43). -/
def Origin.bytes : Origin → List Byte
  | .binding b => 0 :: bytes16 b
  | .scene s => 1 :: bytes16 s
  | .host => 2 :: bytes16 0
  | .egress => 3 :: bytes16 0

/-- A recaller that may be absent: its kind code and identifier, or 0xFF and 0 (R176, section 12.2). HOST has no identifier,
and 0 is sent (DESIGN CHOICE, log entry 43). -/
def recallerBytes : Option Recaller → List Byte
  | some (.binding b) => 0 :: bytes16 b
  | some .host => 2 :: bytes16 0
  | none => 0xFF :: bytes16 0

/-- Held-by-key: line, address, input; 0xFF, 0, 0 when absent (R176). -/
def heldByBytes : Option StationInput → List Byte
  | some k => [lineCode k.line, byteOf k.address, byteOf k.input]
  | none => [0xFF, 0, 0]

/-- A level that may be absent: 0xFFFF when absent (R176). -/
def levelBytes (n : Option Nat) : List Byte := bytes16 (n.getD 0xFFFF)

/-! ## Bodies that carry a record -/

/-- What a decoder of a body finds (R176). -/
inductive Parsed (α : Type) where
  | malformed
  | outOfRange
  | ok (value : α)

/-- A feed as sent: rack and channel; an absent feed is sent as 0, 0 (R176). -/
def feedOf (rack channel : Byte) : Option RackChannel :=
  if rack = 0 ∧ channel = 0 then none else some ⟨rack.toNat, channel.toNat⟩

def RackChannel.inRange (f : RackChannel) : Bool := within 1 8 f.rack && within 1 32 f.channel

/-- The ranges of R1 and R2, check 3. -/
def CircuitConfig.inRange (c : CircuitConfig) : Bool :=
  c.house.inRange && c.stage.all RackChannel.inRange && c.zone.all (within 1 32) && within 0 999 c.minTrim &&
    within (c.minTrim + 1) 1000 c.maxTrim && (c.kind != .switched || within 1 1000 c.threshold) && within 0 1000 c.rest &&
    within 0 100 c.downslope && within 200 2000 c.block && within 0 100 c.upslope

/-- The ConfigureCircuit body: the identifier, then the fields of R1 in the order of its table. A threshold carried for a
kind other than SWITCHED is not checked and is stored as 500 (R2). -/
def decodeCircuit (body : List Byte) : Parsed (Nat × CircuitConfig) :=
  match body with
  | [ih, il, kind, hr, hc, sr, sc, zone, nh, nl, xh, xl, th, tl, rh, rl, dh, dl, bh, bl, uh, ul, flags] =>
    match circuitKindOfCode kind, feedOf hr hc with
    | some kind, some house =>
      let stage := feedOf sr sc
      let config : CircuitConfig :=
        { kind := kind, house := house, stage := stage, zone := if zone = 0 then none else some zone.toNat,
          minTrim := be16 nh nl, maxTrim := be16 xh xl,
          threshold := if kind = .switched then be16 th tl else 500, rest := be16 rh rl, downslope := be16 dh dl,
          block := be16 bh bl, upslope := be16 uh ul, audience := flags.getLsbD 0, egress := flags.getLsbD 1 }
      if stage.isSome != decide (kind = .transfer) || decide (4 ≤ flags.toNat) then .malformed
      else if within 1 256 (be16 ih il) && config.inRange then .ok (be16 ih il, config)
      else .outOfRange
    | _, _ => .malformed
  | _ => .malformed

/-- The configuration part as ReadCircuit sends it, in the order of R1's table. -/
def CircuitConfig.bytes (c : CircuitConfig) : List Byte :=
  [c.kind.code, byteOf c.house.rack, byteOf c.house.channel, byteOf (c.stage.elim 0 (·.rack)),
    byteOf (c.stage.elim 0 (·.channel)), byteOf (c.zone.getD 0)] ++ bytes16 c.minTrim ++ bytes16 c.maxTrim ++
    bytes16 c.threshold ++ bytes16 c.rest ++ bytes16 c.downslope ++ bytes16 c.block ++ bytes16 c.upslope ++
    [flagByte c.audience ||| flagByte c.egress <<< 1]

/-! ### Bindings (section 12.4) -/

/-- The kinds of action, by their codes. -/
def Action.code : Action → Byte
  | .level .. => 0 | .toggle .. => 1 | .release .. => 2 | .scene .. => 3 | .sceneOff .. => 4 | .master .. => 5
  | .raise .. => 6 | .lower .. => 7 | .followMaster .. => 8 | .followLevel .. => 9 | .mode .. => 10 | .notify => 11

/-- The target as sent: a kind code and a two-byte identifier (section 12.2). -/
def Area.bytes : Area → List Byte
  | .circuit c => 0 :: bytes16 c
  | .zone z => 1 :: bytes16 z

def Action.targetBytes : Action → List Byte
  | .level a .. | .toggle a .. | .release a _ | .followLevel a .. => a.bytes
  | .scene s _ | .sceneOff s => 2 :: bytes16 s
  | .master z _ | .raise z _ | .lower z _ | .followMaster z => 1 :: bytes16 z
  | .mode m => 3 :: bytes16 m.code.toNat
  | .notify => 4 :: bytes16 0

/-- The fields after the common part, in the order level, tier, fade, step, momentary (section 12.4). -/
def Action.fieldBytes : Action → List Byte
  | .level _ l t f m => bytes16 l ++ [byteOf t] ++ bytes16 f ++ [flagByte m]
  | .toggle _ l t f => bytes16 l ++ [byteOf t] ++ bytes16 f
  | .release _ t | .scene _ t => [byteOf t]
  | .master _ l => bytes16 l
  | .raise _ n | .lower _ n => [byteOf n]
  | .followLevel _ t f => [byteOf t] ++ bytes16 f
  | .sceneOff _ | .followMaster _ | .mode _ | .notify => []

/-- The body of WriteBinding for a record (section 12.4). -/
def encodeBinding (id : Nat) (r : BindingRecord) : List Byte :=
  bytes16 id ++ [lineCode r.source.line, byteOf r.source.address, byteOf r.source.input, r.gesture.code,
    r.modes.toByte, r.action.code, orAbsent (r.lamp.map LampLink.code)] ++ r.action.targetBytes ++ r.action.fieldBytes

/-- A circuit or zone target from its kind code. -/
def areaOf (kind id : Nat) : Option Area :=
  match kind with
  | 0 => some (.circuit id)
  | 1 => some (.zone id)
  | _ => none

/-- The action of a body: none where a field is missing, added or of a kind the action does not allow (R44), some none
where a MODE or NOTIFY target carries an identifier outside the range of its kind (R50, check 3). -/
def decodeAction (code kind id : Nat) (fields : List Byte) : Option (Option Action) :=
  match code, fields with
  | 0, [lh, ll, t, fh, fl, m] =>
    match areaOf kind id, flagOfByte m with
    | some a, some m => some (some (.level a (be16 lh ll) t.toNat (be16 fh fl) m))
    | _, _ => none
  | 1, [lh, ll, t, fh, fl] => (areaOf kind id).map fun a => some (.toggle a (be16 lh ll) t.toNat (be16 fh fl))
  | 2, [t] => (areaOf kind id).map fun a => some (.release a t.toNat)
  | 3, [t] => if kind = 2 then some (some (.scene id t.toNat)) else none
  | 4, [] => if kind = 2 then some (some (.sceneOff id)) else none
  | 5, [lh, ll] => if kind = 1 then some (some (.master id (be16 lh ll))) else none
  | 6, [n] => if kind = 1 then some (some (.raise id n.toNat)) else none
  | 7, [n] => if kind = 1 then some (some (.lower id n.toNat)) else none
  | 8, [] => if kind = 1 then some (some (.followMaster id)) else none
  | 9, [t, fh, fl] => (areaOf kind id).map fun a => some (.followLevel a t.toNat (be16 fh fl))
  | 10, [] => if kind = 3 then some ((modeOfNat id).map .mode) else none
  | 11, [] => if kind = 4 then some (if id = 0 then some .notify else none) else none
  | _, _ => none

/-- The gestures R44 allows an action, and momentary yes with DOWN alone. -/
def Action.allows (a : Action) (g : Gesture) : Bool :=
  match a with
  | .raise .. | .lower .. => g == .down || g == .hold
  | .followMaster _ | .followLevel .. => g == .move
  | .level _ _ _ _ momentary => g != .move && (!momentary || g == .down)
  | _ => g != .move

/-- The lamp links R44 allows an action. -/
def Action.allowsLamp (a : Action) (lamp : Option LampLink) : Bool :=
  match lamp, a with
  | none, _ => true
  | some .follow, .level .. | some .follow, .toggle .. | some .follow, .followLevel .. => true
  | some .scene, .scene .. | some .scene, .sceneOff _ => true
  | some .mode, .mode _ => true
  | _, _ => false

def Area.inRange : Area → Bool
  | .circuit c => within 1 256 c
  | .zone z => within 1 32 z

/-- The ranges of R43 and R44, by R50 check 3. -/
def Action.inRange : Action → Bool
  | .level a l t f _ | .toggle a l t f => a.inRange && within 0 1000 l && within 0 2 t && within 0 6000 f
  | .release a t => a.inRange && within 0 2 t
  | .scene s t => within 1 96 s && within 0 2 t
  | .sceneOff s => within 1 96 s
  | .master z l => within 1 32 z && within 0 1000 l
  | .raise z n | .lower z n => within 1 32 z && within 1 100 n
  | .followMaster z => within 1 32 z
  | .followLevel a t f => a.inRange && within 1 1 t && within 0 6000 f
  | .mode _ | .notify => true

def StationInput.inRange (k : StationInput) : Bool := within 1 60 k.address && within 1 16 k.input

/-- The WriteBinding body (R50, checks 2 and 3; section 12.4). The request sets the state to ARMED. -/
def decodeBinding (body : List Byte) : Parsed (Nat × BindingRecord) :=
  match body with
  | ih :: il :: line :: address :: input :: gesture :: modes :: action :: lamp :: kind :: th :: tl :: fields =>
    match lineOfCode line, gestureOfCode gesture, modeSetOfByte modes, lampLinkOfCode lamp,
      decodeAction action.toNat kind.toNat (be16 th tl) fields with
    | some line, some gesture, some modes, some lamp, some (some action) =>
      let source : StationInput := ⟨line, address.toNat, input.toNat⟩
      if !action.allows gesture || !action.allowsLamp lamp then .malformed
      else if within 1 1024 (be16 ih il) && StationInput.inRange source && action.inRange then
        .ok (be16 ih il, ⟨source, gesture, modes, action, lamp, false⟩)
      else .outOfRange
    | some _, some gesture, some _, some lamp, some none =>
      let lampOk := lamp == none || (lamp == some .mode && action.toNat == 10)
      if gesture == .move || !lampOk then .malformed else .outOfRange
    | _, _, _, _, _ => .malformed
  | _ => .malformed

/-! ### Scenes (section 12.5) -/

/-- The entries of a scene body, three bytes each: the circuit in the upper twelve bits, the level in the lower. -/
def decodeEntries : List Byte → Option (List (Nat × Nat))
  | [] => some []
  | a :: b :: c :: rest =>
    (decodeEntries rest).map ((a.toNat * 16 + b.toNat / 16, b.toNat % 16 * 256 + c.toNat) :: ·)
  | _ => none

/-- The WriteScene body (R86, checks 2 and 3). -/
def decodeScene (body : List Byte) : Parsed (Nat × SceneDef) :=
  match body with
  | id :: ih :: il :: oh :: ol :: count :: rest =>
    match decodeEntries rest with
    | some entries =>
      if count.toNat ≠ entries.length ∨ ¬ within 1 64 entries.length ∨ ¬ rising (entries.map Prod.fst) then .malformed
      else if within 1 96 id.toNat && entries.all (fun e => within 1 256 e.1 && within 0 1000 e.2) &&
          within 0 6000 (be16 ih il) && within 0 6000 (be16 oh ol) then
        .ok (id.toNat, ⟨entries, be16 ih il, be16 oh ol⟩)
      else .outOfRange
    | none => .malformed
  | _ => .malformed

/-- The scene body as ReadScene sends it (section 12.5). -/
def encodeScene (id : Nat) (d : SceneDef) : List Byte :=
  [byteOf id] ++ bytes16 d.fadeIn ++ bytes16 d.fadeOut ++ [byteOf d.entries.length] ++
    d.entries.flatMap fun e => [byteOf (e.1 / 16), byteOf (e.1 % 16 * 16 + e.2 / 256), byteOf e.2]

/-! ### Stations, groups, settings -/

/-- The ConfigureStation body: line, address, kind and, for CONTACT, eight edge modes and the filter (R118). -/
def decodeStation (body : List Byte) : Parsed (Line × Nat × StationSetup) :=
  match body with
  | line :: address :: kind :: rest =>
    let setup : Option StationSetup :=
      match stationKindOfNat kind.toNat, rest with
      | some .keypad, [] => some .keypad
      | some .fader, [] => some .fader
      | some .contact, [a, b, c, d, e, f, g, h, filter] =>
        match [a, b, c, d, e, f, g, h].mapM edgeModeOfCode, filterOfCode filter with
        | some edges, some filter => some (.contact edges filter)
        | _, _ => none
      | _, _ => none
    match lineOfCode line, setup with
    | some line, some setup => if within 1 60 address.toNat then .ok (line, address.toNat, setup) else .outOfRange
    | _, _ => .malformed
  | _ => .malformed

/-- A member's place in the order of R132: by line, then by address. -/
def Member.rank (m : Member) : Nat := (lineCode m.line).toNat * 256 + m.address

/-- A list of members, two bytes each: line and address. -/
def decodeMembers : List Byte → Option (List Member)
  | [] => some []
  | line :: address :: rest =>
    match lineOfCode line, decodeMembers rest with
    | some line, some ms => some (⟨line, address.toNat⟩ :: ms)
    | _, _ => none
  | _ => none

/-- The ConfigureGroup body: the group and its members (R132). -/
def decodeGroup (body : List Byte) : Parsed (Nat × List Member) :=
  match body with
  | group :: rest =>
    match decodeMembers rest with
    | some ms =>
      if Config.memberLimit < ms.length ∨ ¬ rising (ms.map Member.rank) then .malformed
      else if within 1 15 group.toNat && ms.all (fun m => within 1 60 m.address) then .ok (group.toNat, ms)
      else .outOfRange
    | none => .malformed
  | _ => .malformed

/-- The SetTimings body (R166, checks 2 and 3). -/
def decodeSettings (body : List Byte) : Parsed (Settings × LineEnd × LineEnd) :=
  match body with
  | [hh, hl, dh, dl, sh, sl, fh, fl, mode, ea, eb] =>
    match modeOfNat mode.toNat, endOfCode ea, endOfCode eb with
    | some mode, some ea, some eb =>
      if within 300 3000 (be16 hh hl) && within 150 1000 (be16 dh dl) && within 10 600 (be16 sh sl) &&
          within 0 6000 (be16 fh fl) then
        .ok (⟨be16 hh hl, be16 dh dl, be16 sh sl, be16 fh fl, mode⟩, ea, eb)
      else .outOfRange
    | _, _, _ => .malformed
  | _ => .malformed

/-! ## Station line frames (section 12.6) -/

/-- The sum of data bytes modulo 256. -/
def byteSum (bytes : List Byte) : Byte := bytes.foldl (· + ·) 0

/-- A frame closed with its check character (R177). -/
def withCheck (bytes : List Byte) : List Byte := bytes ++ [-(byteSum bytes)]

/-- The address character of a group (R114). -/
def groupAddress (group : Nat) : Byte := byteOf (64 + group)

/-- A Call frame (section 12.6); bits 6..4 of its first content byte are 0 (DESIGN CHOICE, log entry 40). -/
def callFrame (address accepted : Nat) (deltas : Bool) (query : Option Nat) : List Byte :=
  withCheck [byteOf address, 0x01, byteOf accepted ||| flagByte deltas <<< 7, byteOf (query.getD 0)]

/-- A Lamp frame: two bits for each of up to 16 keys, key 1 in the lowest bits of the last byte. The bits of a key without a
lamp are 0 (DESIGN CHOICE, log entry 39). -/
def lampFrame (address : Nat) (lamps : List (Nat × LampState)) : List Byte :=
  let word : BitVec 32 := lamps.foldl (fun w l =>
    let lamp : BitVec 32 := l.2.code.setWidth 32
    w ||| (lamp <<< (2 * (l.1 - 1)))) 0
  withCheck ([byteOf address, 0x02] ++ bytes32 word)

/-- The edge modes of eight contacts in two bytes, contact 1 in the lowest bits. -/
def edgeWord (edges : List EdgeMode) : BitVec 16 :=
  edges.reverse.foldl (fun w e => (w <<< 2) ||| e.code.setWidth 16) 0

/-- The two-byte set of groups, bit g − 1 for group g (R176). -/
def groupSetBytes (groups : List Nat) : List Byte := bytes16 (bitsOf (groups.map (· - 1)))

def configureFrame (address : Nat) (setup : StationSetup) (groups : List Nat) : List Byte :=
  match setup with
  | .keypad => withCheck ([byteOf address, 0x03, 0] ++ bytes16 Config.idleEdgeModes.toNat ++ [Config.idleFilter] ++
      groupSetBytes groups)
  | .fader => withCheck ([byteOf address, 0x03, 1] ++ bytes16 Config.idleEdgeModes.toNat ++ [Config.idleFilter] ++
      groupSetBytes groups)
  | .contact edges filter => withCheck ([byteOf address, 0x03, 2] ++ bytes16 (edgeWord edges).toNat ++ [filter.code] ++
      groupSetBytes groups)

def snapshotCallFrame (address : Nat) : List Byte := withCheck [byteOf address, 0x04]

/-- A Group Lamp frame (section 12.6); bits 7, 6 and 3 of its content are 0 (DESIGN CHOICE, log entry 40). -/
def groupLampFrame (group : Nat) (banner : LampState) (number : Nat) : List Byte :=
  withCheck [groupAddress group, 0x05, banner.code <<< 4 ||| byteOf number]

def continuityFrame : List Byte := withCheck [0, 0x06]

/-- The edge of a station event, a MOVE with its position (R115). -/
inductive Edge where
  | down | up
  | move (position : Nat)
deriving DecidableEq, Repr

/-- An event of an Answer (R115). -/
structure StationEvent where
  sequence : Nat
  input : Nat
  edge : Edge
  stamp : Stamp
deriving DecidableEq, Repr

/-- The group acknowledgement of an Answer (R115). -/
inductive GroupAck where
  | none
  | number (n : Nat)
  | notMember
deriving DecidableEq, Repr

/-- An Answer as received (R115). -/
structure AnswerFrame where
  kindCode : Nat
  overrun : Bool
  ack : GroupAck
  events : List StationEvent
deriving DecidableEq, Repr

/-- The state of one input in a Snapshot Answer: down or closed, or a position (R115). -/
inductive InputReading where
  | down (yes : Bool)
  | position (level : Nat)
deriving DecidableEq, Repr

/-- A Snapshot Answer as received, its inputs in rising order (R115). -/
structure SnapshotFrame where
  kind : StationKind
  sequence : Nat
  inputs : List (Nat × InputReading)
deriving DecidableEq, Repr

/-- The data of a run of characters that is correctly framed and whose check holds (R177). -/
def soundBytes (chars : List Character) : Option (List Byte) :=
  if chars.all (·.framed) && byteSum (chars.map (·.data)) == 0 then some (chars.map (·.data)) else none

def ackOf (b : Byte) : GroupAck :=
  if b = 0x80 then .notMember else if b.toNat < 8 then .number b.toNat else .none

/-- The events of an Answer, and the bytes after them. -/
def decodeEvents : Nat → List Byte → Option (List StationEvent × List Byte)
  | 0, rest => some ([], rest)
  | n + 1, head :: input :: sh :: sl :: rest =>
    let event (e : Edge) : StationEvent := ⟨head.toNat / 16, input.toNat, e, sh ++ sl⟩
    match head.toNat % 4, rest with
    | 0, rest => (decodeEvents n rest).map fun r => (event .down :: r.1, r.2)
    | 1, rest => (decodeEvents n rest).map fun r => (event .up :: r.1, r.2)
    | 2, ph :: pl :: rest => (decodeEvents n rest).map fun r => (event (.move (be16 ph pl)) :: r.1, r.2)
    | _, _ => none
  | _, _ => none

/-- A whole and correct Answer, none where it is GARBLED (R116, R177). -/
def decodeAnswer (chars : List Character) : Option AnswerFrame :=
  match soundBytes chars with
  | some (type :: head :: ack :: rest) =>
    if type = 0x81 then
      match decodeEvents (head.toNat / 16 % 4) rest with
      | some (events, [_]) => some ⟨head.toNat % 16, head.getLsbD 7, ackOf ack, events⟩
      | _ => none
    else none
  | _ => none

/-- Which of the inputs from first on are down, by the bits of a number. -/
def readingsOf (first count bits : Nat) : List (Nat × InputReading) :=
  (List.range count).map fun i => (first + i, .down (bits.testBit i))

/-- A whole and correct Snapshot Answer, none where it is GARBLED (R116, R177). -/
def decodeSnapshot (chars : List Character) : Option SnapshotFrame :=
  match soundBytes chars with
  | some (type :: kind :: sequence :: rest) =>
    if type = 0x82 then
      match stationKindOfNat kind.toNat, rest with
      | some .keypad, [h, l, _] => some ⟨.keypad, sequence.toNat % 16, readingsOf 1 12 (be16 h l)⟩
      | some .fader, [ah, al, bh, bl, ch, cl, dh, dl, keys, _] =>
        some ⟨.fader, sequence.toNat % 16,
          [(1, .position (be16 ah al)), (2, .position (be16 bh bl)), (3, .position (be16 ch cl)),
            (4, .position (be16 dh dl))] ++ readingsOf 5 4 keys.toNat⟩
      | some .contact, [contacts, _] => some ⟨.contact, sequence.toNat % 16, readingsOf 1 8 contacts.toNat⟩
      | _, _ => none
    else none
  | _ => none

/-! ## Rack link frames (section 12.7) -/

/-- The characters of a Level frame: 70 of them (section 12.7). -/
def LevelFrame.bytes (rack : Nat) (f : LevelFrame) : List Byte :=
  withCheck ([byteOf rack] ++ f.levels.flatMap bytes16 ++ bytes32 f.flags)

/-- A rack's reply as received (R153). -/
structure RackReplyFrame where
  rack : Nat
  status : RackStatus
  faults : ChannelSet
deriving DecidableEq, Repr

/-- A reply that passes the tests of R153 but for its rack identifier. -/
def decodeReply (chars : List Character) : Option RackReplyFrame :=
  match soundBytes chars with
  | some [rack, status, a, b, c, d, _] => (rackStatusOfCode status).map fun s => ⟨rack.toNat, s, be32 a b c d⟩
  | _ => none

end Sys2Proof.Machine
end

