-- ==== Sys2Proof/Machine/Ops.lean ====
section
/-! DEFINITION. The named operations over the tables and the records of State: every read and every write of a record
goes through one of these. -/

namespace Sys2Proof.Machine

/-! ## Tables -/

/-- The record of an identifier, if it has one. -/
def Table.at? {α : Type} : Table α → Nat → Option α
  | [], _ => none
  | (k, v) :: rest, i => if k = i then some v else Table.at? rest i

/-- The table with this record at the identifier: replaced where there is one, else entered in its place in the order. -/
def Table.put {α : Type} : Table α → Nat → α → Table α
  | [], i, x => [(i, x)]
  | (k, v) :: rest, i, x =>
    if k = i then (i, x) :: rest else if i < k then (i, x) :: (k, v) :: rest else (k, v) :: Table.put rest i x

/-- The table without a record at the identifier. -/
def Table.remove {α : Type} (t : Table α) (i : Nat) : Table α := t.filter fun e => e.1 != i

/-- The table with a change made to the record at the identifier, if it has one. -/
def Table.adjust {α : Type} (t : Table α) (i : Nat) (f : α → α) : Table α :=
  t.map fun e => if e.1 = i then (e.1, f e.2) else e

/-- The table with a change made to every record. -/
def Table.mapAll {α β : Type} (t : Table α) (f : Nat → α → β) : Table β := t.map fun e => (e.1, f e.1 e.2)

/-- The identifiers of the records, rising. -/
def Table.ids {α : Type} (t : Table α) : List Nat := t.map Prod.fst

/-- The identifiers of the records a test holds of, rising. -/
def Table.idsWhere {α : Type} (t : Table α) (p : α → Bool) : List Nat := (t.filter fun e => p e.2).map Prod.fst

/-! ## Records of the state -/

/-- The other of two ends. -/
def otherEnd : LineEnd → LineEnd
  | .a => .b
  | .b => .a

/-- The other of two feeds. -/
def Feed.other : Feed → Feed
  | .house => .stage
  | .stage => .house

/-- The state with these circuits. -/
def State.withCircuits (s : State) (x : Table Circuit) : State := { s with circuits := x }

/-- The state with these zones. -/
def State.withZones (s : State) (x : Table Zone) : State := { s with zones := x }

/-- The state with these bindings. -/
def State.withBindings (s : State) (x : Table Binding) : State := { s with bindings := x }

/-- The state with these scenes. -/
def State.withScenes (s : State) (x : Table Scene) : State := { s with scenes := x }

/-- The state with these groups. -/
def State.withGroups (s : State) (x : Table Group) : State := { s with groups := x }

/-- The state with these racks. -/
def State.withRacks (s : State) (x : Table Rack) : State := { s with racks := x }

/-- The state with this repeat list. -/
def State.withRepeats (s : State) (x : List Repeat) : State := { s with repeats := x }

/-- The state with this binding held by the Action Unit, or none. -/
def State.withOffered (s : State) (x : Option Firing) : State := { s with offered := x }

/-- The state with this slot on the rack link, or none. -/
def State.withRackSlot (s : State) (x : Option RackSlot) : State := { s with rackSlot := x }

/-- The state with this round timer. -/
def State.withRoundTimer (s : State) (x : Option Nat) : State := { s with roundTimer := x }

/-- The state with the slot of the host link in this state. -/
def State.withHostSlot (s : State) (x : HostSlot) : State := { s with hostSlot := x }

/-- The state with the house lock set or clear. -/
def State.withHouseLock (s : State) (x : Bool) : State := { s with houseLock := x }

/-- The state with this house mode. -/
def State.withMode (s : State) (x : HouseMode) : State := { s with mode := x }

/-- The state with this queue of commands. -/
def State.withPending (s : State) (x : List Instr) : State := { s with pending := x }

/-- A line unit. -/
def State.unit (s : State) : Line → LineUnit
  | .a => s.lineA
  | .b => s.lineB

/-- The state with this line unit. -/
def State.setUnit (s : State) : Line → LineUnit → State
  | .a, u => { s with lineA := u }
  | .b, u => { s with lineB := u }

/-- The state with a change made to a line unit. -/
def State.onUnit (s : State) (l : Line) (f : LineUnit → LineUnit) : State := s.setUnit l (f (s.unit l))

/-- The station record at an address, if there is one (R117). -/
def State.station? (s : State) (l : Line) (a : Nat) : Option Station := Table.at? (s.unit l).stations a

/-- The state with a change made to the station record at an address, if there is one. -/
def State.onStation (s : State) (l : Line) (a : Nat) (f : Station → Station) : State :=
  s.onUnit l fun u => { u with stations := Table.adjust u.stations a f }

/-- The key record of a station input, if it has one (R97). -/
def State.key? (s : State) (k : StationInput) : Option KeyRecord :=
  (s.station? k.line k.address).bind fun st => Table.at? st.keys k.input

/-- The state with a change made to the key record of a station input, if it has one. -/
def State.onKey (s : State) (k : StationInput) (f : KeyRecord → KeyRecord) : State :=
  s.onStation k.line k.address fun st => { st with keys := Table.adjust st.keys k.input f }

/-- The state with a change made to a configured circuit. -/
def State.onCircuit (s : State) (c : Nat) (f : Circuit → Circuit) : State :=
  s.withCircuits (Table.adjust s.circuits c f)

/-- The state with a change made to a binding in use. -/
def State.onBinding (s : State) (b : Nat) (f : Binding → Binding) : State :=
  s.withBindings (Table.adjust s.bindings b f)

/-- The state with a change made to a defined scene. -/
def State.onScene (s : State) (n : Nat) (f : Scene → Scene) : State :=
  s.withScenes (Table.adjust s.scenes n f)

/-- The state with a change made to a group record. -/
def State.onGroup (s : State) (g : Nat) (f : Group → Group) : State :=
  s.withGroups (Table.adjust s.groups g f)

/-- The state with a change made to a rack record. -/
def State.onRack (s : State) (r : Nat) (f : Rack → Rack) : State :=
  s.withRacks (Table.adjust s.racks r f)

/-! ## Derived values -/

/-- The circuits that hold a contribution of an origin, rising (R11). -/
def State.holders (s : State) (o : Origin) : List Nat :=
  Table.idsWhere s.circuits fun c => c.claims.any fun k => k.origin == o

/-- The holds count of a binding, or the held count of a scene: the number of circuits whose list contains a contribution
of the origin, dormant or not (R11, R91). -/
def State.holds (s : State) (o : Origin) : Nat := (s.holders o).length

/-- Whether a scene is live (R11, R84). -/
def State.live (s : State) (n : Nat) : Bool := decide (0 < s.holds (.scene n))

/-- The members of a zone: the configured circuits whose zone field names it, rising (R19). -/
def State.members (s : State) (z : Nat) : List Nat :=
  Table.idsWhere s.circuits fun c => c.config.zone == some z

/-- The circuits a circuit or zone target reaches (R66). -/
def State.reached (s : State) : Area → List Nat
  | .circuit c => [c]
  | .zone z => s.members z

/-- The record of a configured circuit (R1, R24). -/
def Circuit.record (x : Circuit) : CircuitRecord :=
  { configured := true, kind := x.config.kind, house := some x.config.house, stage := x.config.stage,
    zone := x.config.zone, minTrim := x.config.minTrim, maxTrim := x.config.maxTrim, threshold := x.config.threshold,
    rest := x.config.rest, downslope := x.config.downslope, block := x.config.block, upslope := x.config.upslope,
    audience := x.config.audience, egress := x.config.egress, claims := x.claims, resolved := x.resolved,
    transition := x.transition }

/-- The record of an unconfigured circuit: the defaults of R1, an empty list, winning tier NONE with raw and T 0, and the
unconfigured values of R24. -/
def CircuitRecord.unconfigured : CircuitRecord :=
  { configured := false, kind := .dimmed, house := none, stage := none, zone := none, minTrim := 0, maxTrim := 1000,
    threshold := 500, rest := 0, downslope := 10, block := 500, upslope := 10, audience := false, egress := false,
    claims := [], resolved := { winning := none, raw := 0, target := 0, hostDisplaced := false },
    transition :=
      { level := 0, phase := .steady, target := 0, egressFlag := false, origin := 0, fadeEnd := 0, stepCount := 0,
        stepTotal := 1, blockTimer := none, feed := .house, pendingTransfer := none, relay := none, output := 0 } }

/-- The record of a circuit, configured or not (R1). -/
def State.circuitRecord (s : State) (c : Nat) : CircuitRecord :=
  ((Table.at? s.circuits c).map Circuit.record).getD .unconfigured

/-- The values of an unconfigured zone (R18). -/
def Zone.unconfigured : Zone := { master := 1000, masterFade := 2 }

/-- The master and the master fade of a zone, configured or not (R18). -/
def State.zoneRecord (s : State) (z : Nat) : Zone := (Table.at? s.zones z).getD .unconfigured

/-- The master that scales a circuit's target, none for a circuit with no zone (R15). -/
def State.masterOf (s : State) (c : CircuitConfig) : Option Nat := c.zone.map fun z => (s.zoneRecord z).master

/-- The pool entries in use (R85). -/
def State.poolInUse (s : State) : Nat := (s.scenes.map fun e => e.2.definition.entries.length).sum

/-- The index list of a station input and a gesture: the bindings in use that name both, rising (R46). -/
def State.indexList (s : State) (k : StationInput) (g : Gesture) : List Nat :=
  Table.idsWhere s.bindings fun b => b.record.source == k && b.record.gesture == g

/-- Whether a binding may act: ARMED, with the present house mode among its modes (R47). -/
def State.mayAct (s : State) (b : Binding) : Bool := !b.record.suspended && b.record.modes.has s.mode

/-- Whether an id lies in the house partition (R43, R60). -/
def State.inHouse (s : State) (b : Nat) : Bool := decide (b ≤ s.protectSize)

/-- The groups whose member list names a station: its group set, rising (R132). -/
def State.groupSet (s : State) (m : Member) : List Nat := Table.idsWhere s.groups fun g => g.members.contains m

/-- Whether a rack is ONLINE (R40). -/
def State.rackOnline (s : State) (r : Nat) : Bool :=
  ((Table.at? s.racks r).map fun k => k.state == .online).getD false

/-- The rack channel of a feed of a circuit (R31). -/
def CircuitConfig.channelOf (c : CircuitConfig) : Feed → Option RackChannel
  | .house => some c.house
  | .stage => c.stage

/-- The rack of a feed is ONLINE (R31). -/
def State.feedOnline (s : State) (c : CircuitConfig) (f : Feed) : Bool :=
  ((c.channelOf f).map fun ch => s.rackOnline ch.rack).getD false

/-- The station kind of a record (R117). -/
def StationSetup.kind : StationSetup → StationKind
  | .keypad => .keypad
  | .fader => .fader
  | .contact .. => .contact

/-- The feed a house mode requires (R138). -/
def HouseMode.requires : HouseMode → Feed
  | .performance | .interval => .stage
  | .work | .prepare | .cleaning | .night => .house

end Sys2Proof.Machine
end

