-- ==== Sys2Proof/Machine/Flags.lean ====
section
/-! DEFINITION. The flags and marks the outside sees: the notice set with ATTN, READY, the link status byte, and the marks
of circuits derived from the Rack Table. -/

namespace Sys2Proof.Machine

/-- A member put into a notice set (R168). -/
def NoticeSet.with (n : Notice) (s : NoticeSet) : NoticeSet :=
  match n with
  | .stations => { s with stations := true }
  | .lines => { s with lines := true }
  | .racks => { s with racks := true }
  | .faults => { s with faults := true }
  | .stuck => { s with stuck := true }
  | .notify => { s with notify := true }
  | .mode => { s with mode := true }
  | .egress => { s with egress := true }
  | .group => { s with group := true }
  | .image => { s with image := true }

/-- Whether a member is in a notice set. -/
def NoticeSet.has (s : NoticeSet) : Notice → Bool
  | .stations => s.stations
  | .lines => s.lines
  | .racks => s.racks
  | .faults => s.faults
  | .stuck => s.stuck
  | .notify => s.notify
  | .mode => s.mode
  | .egress => s.egress
  | .group => s.group
  | .image => s.image

/-- The notice set as two bytes (section 12.2). -/
def NoticeSet.bytes (s : NoticeSet) : List Byte :=
  [flagByte s.group ||| flagByte s.image <<< 1,
    flagByte s.stations ||| flagByte s.lines <<< 1 ||| flagByte s.racks <<< 2 ||| flagByte s.faults <<< 3 |||
      flagByte s.stuck <<< 4 ||| flagByte s.notify <<< 5 ||| flagByte s.mode <<< 6 ||| flagByte s.egress <<< 7]

/-- A raise puts its member into the notice set (R168). -/
def State.raise (s : State) (n : Notice) : State := { s with notices := s.notices.with n }

/-- Whether the notice set is not empty. -/
def State.attention (s : State) : Bool := s.notices != .empty

/-- The ATTN output: high while the notice set is not empty, low while a reset lasts (R159, R173). -/
def State.attn (s : State) : Bool := s.power == .running && s.attention

/-- The READY output: high while the slot state is ANSWER_READY, low while a reset lasts (R159, R173). -/
def State.ready (s : State) : Bool :=
  match s.power, s.hostSlot with
  | .running, .answerReady _ => true
  | _, _ => false

/-- The link status byte as a Fetch begins (R162, section 12.3). -/
def State.linkStatus (s : State) : Byte :=
  let slot : Byte := match s.hostSlot with
    | .idle => 0x00
    | .working _ => 0x20
    | .answerReady _ => 0x40
  flagByte s.collision <<< 7 ||| slot ||| flagByte s.attention <<< 4

/-- UNDRIVEN: the rack of the circuit's current feed is not ONLINE (R156). -/
def State.undriven (s : State) (c : Circuit) : Bool := !s.feedOnline c.config c.transition.feed

/-- Whether the channel of a feed is in its rack's fault set (R156). -/
def State.feedFaulted (s : State) (c : CircuitConfig) (f : Feed) : Bool :=
  match c.channelOf f with
  | some ch => ((Table.at? s.racks ch.rack).map fun r => r.faults.getLsbD (ch.channel - 1)).getD false
  | none => false

end Sys2Proof.Machine
end

