-- ==== Sys2Proof/Machine/Transition.lean ====
section
/-! DEFINITION. The Transition Unit (chapter 2): the fade arithmetic, the output level, the handover in each phase, the
transfer between feeds, and the reports of the required feed, of the egress latch and of a rack that goes ONLINE. -/

namespace Sys2Proof.Machine

/-! ## Fade and output -/

/-- The drive level after step k of a fade of n steps: d0 + trunc((e − d0) × k / n), the division truncated toward zero
(R26). -/
def fadeLevel (d0 e k n : Nat) : Nat := ((d0 : Int) + Int.tdiv (((e : Int) - d0) * k) n).toNat

/-- A fade begins from the present drive level with a fade end and a time in tenths (R26). -/
def Transition.beginFade (t : Transition) (fadeEnd tenths : Nat) : Transition :=
  { t with origin := t.level, fadeEnd := fadeEnd, stepCount := 0, stepTotal := max 1 (5 * tenths) }

/-- The output level of a circuit (R28, R29). -/
def outputLevel (c : CircuitConfig) (t : Transition) : Nat :=
  if c.kind = .switched then (if c.threshold ≤ t.level then 1000 else 0)
  else if t.egressFlag then t.level
  else if t.level = 0 then 0
  else c.minTrim + t.level * (c.maxTrim - c.minTrim) / 1000

/-- The output level is recomputed (R30). -/
def Transition.refresh (c : CircuitConfig) (t : Transition) : Transition := { t with output := outputLevel c t }

/-- The Transition Unit's fields of a circuit that has just been configured, or at start-up: drive level 0, STEADY, on the
feed given; a TRANSFER circuit has its relay flag equal to its current feed (R3, R24). R24 gives the fade origin, fade end,
step count and step total of an unconfigured circuit alone; a configured one has the same 0, 0, 0 and 1 (DESIGN CHOICE, log
entry 41). -/
def Transition.fresh (kind : CircuitKind) (feed : Feed) : Transition :=
  { level := 0, phase := .steady, target := 0, egressFlag := false, origin := 0, fadeEnd := 0, stepCount := 0,
    stepTotal := 1, blockTimer := none, feed := if kind = .transfer then feed else .house, pendingTransfer := none,
    relay := if kind = .transfer then some feed else none, output := 0 }

/-! ## Transfers -/

/-- BLOCK begins toward a destination feed (R33). -/
def Transition.beginBlock (c : CircuitConfig) (dest : Feed) (t : Transition) : Transition :=
  .refresh c { t with level := 0, phase := .block, relay := some dest, blockTimer := some c.block }

/-- A transfer begins with DOWNSLOPE (R32). -/
def Transition.beginTransfer (c : CircuitConfig) (t : Transition) : Transition :=
  .refresh c { t.beginFade 0 c.downslope with phase := .downslope, pendingTransfer := none }

/-- The need for a transfer toward a feed arises: it begins at once where both conditions hold, and is pending otherwise
(R31). -/
def Transition.need (c : CircuitConfig) (ready : Bool) (dest : Feed) (t : Transition) : Transition :=
  if ready then t.beginTransfer c else { t with pendingTransfer := some dest }

/-- The phases in which a transfer may begin (R31). -/
def CircuitPhase.mayTransfer : CircuitPhase → Bool
  | .steady | .fading | .upslope => true
  | .downslope | .block => false

/-- The phases of a transfer in progress (R2, R4). -/
def CircuitPhase.inTransfer : CircuitPhase → Bool
  | .steady | .fading => false
  | .downslope | .block | .upslope => true

/-- The phases in which the step timer takes a step (R25). -/
def CircuitPhase.moves : CircuitPhase → Bool
  | .fading | .downslope | .upslope => true
  | .steady | .block => false

/-- One step of a circuit at an expiry of the step timer, with the completion of the phase where the step completes the
fade, and the output level recomputed (R25, R26). -/
def Transition.step (c : CircuitConfig) (t : Transition) : Transition :=
  if t.phase.moves then
    let k := t.stepCount + 1
    let moved := { t with stepCount := k, level := fadeLevel t.origin t.fadeEnd k t.stepTotal }
    if k < t.stepTotal then moved.refresh c
    else if t.phase = .downslope then moved.beginBlock c t.feed.other
    else ({ moved with phase := .steady } : Transition).refresh c
  else t.refresh c

/-- A handover, by the phase that it finds (R27, R35, R36, R37). -/
def Transition.handover (c : CircuitConfig) (target : Nat) (egress : Bool) (tenths : Nat) (t : Transition) : Transition :=
  let t := { t with target := target, egressFlag := egress }
  match t.phase with
  | .steady | .fading =>
    if target = t.level then .refresh c { t with phase := .steady }
    else .refresh c { t.beginFade target tenths with phase := .fading }
  | .downslope =>
    if egress then
      .refresh c { t.beginFade target tenths with phase := .fading, pendingTransfer := some t.feed.other }
    else t.refresh c
  | .block => t.refresh c
  | .upslope =>
    if egress then .refresh c { t.beginFade target tenths with phase := .fading }
    else .refresh c (t.beginFade target c.upslope)

/-- A new required feed reaches a TRANSFER circuit according to its phase (R38). -/
def Transition.feedReport (c : CircuitConfig) (required : Feed) (ready : Bool) (t : Transition) : Transition :=
  match t.phase with
  | .steady | .fading | .upslope =>
    if required = t.feed then { t with pendingTransfer := none } else t.need c ready required
  | .downslope =>
    if required = t.feed then .refresh c { t.beginFade t.target c.upslope with phase := .fading } else t
  | .block => t

/-- The block timer of a circuit in BLOCK expires: the destination becomes the current feed, and the circuit enters a new
BLOCK, FADING or UPSLOPE (R33, R34). -/
def Transition.endBlock (c : CircuitConfig) (required : Feed) (ready : Bool) (t : Transition) : Transition :=
  let t := { t with feed := t.feed.other, blockTimer := none }
  if required ≠ t.feed ∧ ready then t.beginBlock c required
  else
    let t := if required ≠ t.feed then { t with pendingTransfer := some required } else t
    if t.egressFlag then .refresh c { t.beginFade t.target 0 with phase := .fading }
    else .refresh c { t.beginFade t.target c.upslope with phase := .upslope }

/-! ## On the state -/

/-- Both conditions of R31 for a transfer toward a feed: the egress latch copy is clear and the feed's rack is ONLINE. -/
def State.transferReady (s : State) (c : CircuitConfig) (dest : Feed) : Bool := !s.latchCopy && s.feedOnline c dest

/-- The state with a change made to a circuit's transition fields. -/
def State.onTransition (s : State) (c : Nat) (f : CircuitConfig → Transition → Transition) : State :=
  s.onCircuit c fun x => { x with transition := f x.config x.transition }

/-- A circuit's pending transfer begins if its destination feed meets a test and the circuit is in STEADY, FADING or
UPSLOPE (R39, R40, R41). -/
def Circuit.beginPending (test : CircuitConfig → Feed → Bool) (c : Circuit) : Circuit :=
  match c.transition.pendingTransfer with
  | some dest =>
    if c.transition.phase.mayTransfer && test c.config dest then
      { c with transition := c.transition.beginTransfer c.config }
    else c
  | none => c

/-- The Mode Unit reports a new required feed: every TRANSFER circuit takes it (R31, R38, R142). -/
def State.reportFeed (s : State) (required : Feed) : State :=
  { s with
    requiredFeed := required
    circuits := Table.mapAll s.circuits fun _ c =>
      if c.config.kind = .transfer then
        { c with transition := c.transition.feedReport c.config required (s.transferReady c.config required) }
      else c }

/-- The clearing of the egress latch reaches the Transition Unit (R39). -/
def State.reportLatchClear (s : State) : State :=
  { s with latchCopy := false, circuits := Table.mapAll s.circuits fun _ c => c.beginPending s.feedOnline }

/-- The Rack Link Controller reports that a rack has entered ONLINE (R40). -/
def State.reportRackOnline (s : State) (rack : Nat) : State :=
  s.withCircuits (Table.mapAll s.circuits fun _ c =>
    c.beginPending fun cfg f => s.transferReady cfg f && ((cfg.channelOf f).map (·.rack) == some rack))

/-- An expiry of the step timer: every configured circuit takes its step and has its output level recomputed, and the
timer runs again (R25). -/
def State.stepExpiry (s : State) : State :=
  { s with
    stepTimer := some 20
    circuits := Table.mapAll s.circuits fun _ c => { c with transition := c.transition.step c.config } }

/-- An expiry of the block timer of a circuit in BLOCK (R33). -/
def State.blockExpiry (s : State) (c : Nat) : State :=
  s.onTransition c fun cfg t =>
    if t.phase = .block then t.endBlock cfg s.requiredFeed (s.transferReady cfg s.requiredFeed) else t

end Sys2Proof.Machine
end

