-- ==== Sys2Proof/Machine/Resolver.lean ====
section
/-! DEFINITION. The Level Resolver (chapter 1): dormancy, resolution, placement, removal with the accounting of owners,
and the zone masters. -/

namespace Sys2Proof.Machine

/-! ## Resolution of one list -/

/-- Whether a contribution is dormant on a circuit in a house mode (R12). -/
def dormantIn (mode : HouseMode) (c : CircuitConfig) (tier : Nat) : Bool :=
  decide (tier ≤ 1) && c.audience && mode == .performance

/-- The contributions that resolution regards: those not dormant (R12). -/
def activeClaims (claims : List Contribution) : List Contribution := claims.filter fun k => !k.dormant

/-- The winning tier: the highest with a contribution that is not dormant; none is NONE (R14). -/
def winningTier (claims : List Contribution) : Option Nat := ((activeClaims claims).map (·.tier)).max?

/-- The levels of a tier's contributions that are not dormant, oldest first. -/
def tierLevels (claims : List Contribution) (tier : Nat) : List Nat :=
  ((activeClaims claims).filter fun k => k.tier == tier).map (·.level)

/-- The raw value: the rest level for NONE, highest takes precedence in tier 0, latest in tiers 1 and 2, 1000 in tier 3
(R14). -/
def rawValue (rest : Nat) (claims : List Contribution) : Nat :=
  match winningTier claims with
  | none => rest
  | some 0 => ((tierLevels claims 0).max?).getD 0
  | some 3 => 1000
  | some t => ((tierLevels claims t).getLast?).getD 0

/-- The target: 1000 for EGRESS, otherwise the raw value scaled by the master of the circuit's zone (R15). -/
def targetOf (winning : Option Nat) (raw : Nat) (master : Option Nat) : Nat :=
  if winning = some 3 then 1000 else master.elim raw fun m => raw * m / 1000

/-- The resolution of a circuit and its handover to the Transition Unit with the fade given (R13). -/
def Circuit.resolve (master : Option Nat) (tenths : Nat) (c : Circuit) : Circuit :=
  let winning := winningTier c.claims
  let raw := rawValue c.config.rest c.claims
  let target := targetOf winning raw master
  { c with
    resolved := { c.resolved with winning := winning, raw := raw, target := target }
    transition := c.transition.handover c.config target (winning == some 3) tenths }

/-- The resolution of a circuit by identifier (R13). -/
def State.resolve (s : State) (c : Nat) (tenths : Nat) : State :=
  s.onCircuit c fun x => x.resolve (s.masterOf x.config) tenths

/-! ## Placement -/

/-- What came of a placement on one circuit: the circuit is not configured, or the claim was appended (after a
displacement, with the victim), re-placed or refused (R6, R7, R8). -/
inductive Verdict where
  | unconfigured
  | appended (victim : Option Contribution)
  | replaced
  | refused
deriving DecidableEq, Repr

/-- The lowest tier present in a list, dormant contributions counted (R8). -/
def lowestTier (claims : List Contribution) : Option Nat := (claims.map (·.tier)).min?

/-- A placement in a contribution list (R6, R7, R8). -/
def insertClaim (k : Contribution) (claims : List Contribution) : List Contribution × Verdict :=
  if claims.any (fun x => x.origin == k.origin) then
    (claims.eraseP (fun x => x.origin == k.origin) ++ [k], .replaced)
  else if claims.length < Config.listLimit then (claims ++ [k], .appended none)
  else
    match lowestTier claims with
    | some low =>
      if low ≤ k.tier then
        (claims.eraseP (fun x => x.tier == low) ++ [k], .appended (claims.find? fun x => x.tier == low))
      else (claims, .refused)
    | none => (claims, .refused)

/-- The displaced mark of R9, given to the owner of the victim's origin. -/
def State.markDisplaced (s : State) (c : Nat) : Origin → State
  | .binding b => s.onBinding b fun x => { x with displacedMark := true }
  | .scene n => s.onScene n fun x => { x with displacedMark := true }
  | .host => s.onCircuit c fun x => { x with resolved := { x.resolved with hostDisplaced := true } }
  | .egress => s

/-- The partial mark of R9, given to the owner of a refused origin. The SetHostLevel of a refused HOST claim is answered
FULL instead (R16). -/
def State.markRefused (s : State) : Origin → State
  | .binding b => s.onBinding b fun x => { x with partialMark := true }
  | .scene n => s.onScene n fun x => { x with partialMark := true }
  | .host | .egress => s

/-- A scene whose last contribution has left has no live tier and no recaller (R11, R91). -/
def State.judgeLive (s : State) (n : Nat) : State :=
  if s.live n then s else s.onScene n fun x => { x with liveTier := none, recaller := none }

/-- A contribution of an origin has left a list. A scene that held its last one ceases to be live (R11). Where a party
other than the binding took it, a FOLLOW binding loses its captured mark (R10, R111). -/
def State.departed (s : State) (byOther : Bool) : Origin → State
  | .binding b => if byOther then s.onBinding b fun x => { x with captured := false } else s
  | .scene n => s.judgeLive n
  | .host | .egress => s

/-- A placement of a contribution on a circuit, with its resolution and the reports to the owners (R6, R7, R8, R9, R11). -/
def State.place (s : State) (c : Nat) (claim : Contribution) : State × Verdict :=
  match Table.at? s.circuits c with
  | none => (s, .unconfigured)
  | some x =>
    let k := { claim with dormant := dormantIn s.mode x.config claim.tier }
    match insertClaim k x.claims with
    | (_, .refused) => (s.markRefused k.origin, .refused)
    | (claims, verdict) =>
      let s := (s.onCircuit c fun x => { x with claims := claims }).resolve c k.arrival
      match verdict with
      | .appended (some victim) => ((s.markDisplaced c victim.origin).departed true victim.origin, verdict)
      | _ => (s, verdict)

/-- The removal of the contribution of an origin from a circuit, with its resolution and the accounting; nothing where the
list holds none (R10). -/
def State.remove (s : State) (byOther : Bool) (o : Origin) (c : Nat) : State :=
  match (Table.at? s.circuits c).bind fun x => x.claims.find? fun k => k.origin == o with
  | none => s
  | some k =>
    ((s.onCircuit c fun x => { x with claims := x.claims.eraseP fun k => k.origin == o }).resolve c k.release).departed
      byOther o

/-- The removal of an origin from every circuit that holds it, in ascending circuit identifier (R53, R73, R147). -/
def State.removeEverywhere (s : State) (o : Origin) : State :=
  (s.holders o).foldl (fun s c => s.remove false o c) s

/-! ## Dormancy -/

/-- The contributions whose dormancy a mode changes on a circuit. -/
def Circuit.shifted (mode : HouseMode) (c : Circuit) : List Contribution :=
  c.claims.filter fun k => k.dormant != dormantIn mode c.config k.tier

/-- A circuit's dormancy re-evaluated (R12). -/
def Circuit.redorm (mode : HouseMode) (c : Circuit) : Circuit :=
  { c with claims := c.claims.map fun k => { k with dormant := dormantIn mode c.config k.tier } }

/-- The fade of a change of dormancy: the greatest release fade of those that became dormant, or the greatest arrival fade
of those that woke (R12). -/
def shiftFade (shifted : List Contribution) : Nat :=
  ((shifted.map fun k => if k.dormant then k.arrival else k.release).max?).getD 0

/-- A circuit's dormancy re-evaluated in a mode change: an AUDIENCE circuit on which a contribution changed is resolved once,
with the fade of the change (R12, R141). -/
def State.redormCircuit (s : State) (c : Circuit) : Circuit :=
  let shifted := c.shifted s.mode
  if c.config.audience && !shifted.isEmpty then (c.redorm s.mode).resolve (s.masterOf c.config) (shiftFade shifted) else c

/-- Dormancy is re-evaluated on the AUDIENCE circuits whose identifiers a test holds of (R141). -/
def State.redormWhere (s : State) (test : Nat → Bool) : State :=
  s.withCircuits (Table.mapAll s.circuits fun i c => if test i then s.redormCircuit c else c)

/-- Dormancy is re-evaluated on every AUDIENCE circuit (R141). -/
def State.redormAll (s : State) : State := s.redormWhere fun _ => true

/-! ## Zone masters -/

/-- A master change clears the captured mark of every FOLLOW_MASTER binding on the zone but its maker (R22). -/
def Binding.losesCapture (zone : Nat) (b : Binding) : Bool := b.record.action == .followMaster zone

/-- A master change made by a party, with the fade handed over; not made where the zone is not configured or the value is
the present master (R20, R22). -/
def State.masterChange (s : State) (zone value tenths : Nat) (maker : Option Nat) : State :=
  match Table.at? s.zones zone with
  | none => s
  | some z =>
    if z.master = value then s
    else
      let s := s.withZones (Table.adjust s.zones zone fun z => { z with master := value })
      let s := (s.members zone).foldl (fun s c => s.resolve c tenths) s
      s.withBindings (Table.mapAll s.bindings fun i b =>
        if b.losesCapture zone && maker != some i then { b with captured := false } else b)

/-- The master fade of a zone (R18). -/
def State.masterFade (s : State) (zone : Nat) : Nat := (s.zoneRecord zone).masterFade

end Sys2Proof.Machine
end

