-- ==== Sys2Proof/Machine/Scenes.lean ====
section
/-! DEFINITION. The Scene Store (chapter 5): recall, release, rewrite while live, and the judgement of a scene's marks. -/

namespace Sys2Proof.Machine

/-- The contribution a scene places for an entry (R88, R93). -/
def sceneClaim (n tier : Nat) (d : SceneDef) (recaller : Option Recaller) (level : Nat) : Contribution :=
  { origin := .scene n, tier := tier, level := level, arrival := d.fadeIn, release := d.fadeOut, recaller := recaller,
    heldBy := none, dormant := false }

/-- What a run of placements has met so far: whether any was made or refused, and whether any was refused. -/
structure Tally where
  any : Bool
  refused : Bool
deriving DecidableEq, Repr

/-- A placement counted. -/
def Tally.count (t : Tally) : Verdict → Tally
  | .unconfigured => t
  | .refused => ⟨true, true⟩
  | .appended _ | .replaced => ⟨true, t.refused⟩

/-- Placements made one after another, each on its own circuit. -/
def State.placeAll (s : State) (claims : List (Nat × Contribution)) : State × Tally :=
  claims.foldl (fun (acc : State × Tally) (e : Nat × Contribution) =>
    let r := acc.1.place e.1 e.2
    (r.1, acc.2.count r.2)) (s, ⟨false, false⟩)

/-- The judgement of a scene's marks after its last placement (R90). -/
def State.judgeScene (s : State) (n : Nat) (refused : Bool) : State :=
  let held := s.holds (.scene n)
  s.onScene n fun x =>
    if refused then { x with partialMark := true }
    else { x with
      partialMark := false
      displacedMark := x.displacedMark && held != x.definition.entries.length }

/-- A recall of a scene at a tier for a recaller; of a live scene, a re-recall (R88, R89). -/
def State.recall (s : State) (n tier : Nat) (recaller : Recaller) : State :=
  match Table.at? s.scenes n with
  | none => s
  | some sc =>
    let s := s.onScene n fun x => { x with liveTier := some tier, recaller := some recaller }
    let d := sc.definition
    let r := s.placeAll (d.entries.map fun e => (e.1, sceneClaim n tier d (some recaller) e.2))
    (r.1.judgeScene n r.2.refused).judgeLive n

/-- A release of a scene: its contribution is removed from each of its entries' circuits in ascending identifier (R92). -/
def State.releaseScene (s : State) (n : Nat) : State :=
  match Table.at? s.scenes n with
  | none => s
  | some sc => sc.definition.entries.foldl (fun s e => s.remove true (.scene n) e.1) s

/-- Whether an entry of a new definition is placed by a rewrite: added, of another level, or under changed fades (R93). -/
def rewritePlaces (old new : SceneDef) (e : Nat × Nat) : Bool :=
  !(old.entries.contains e && old.fadeIn == new.fadeIn && old.fadeOut == new.fadeOut)

/-- The circuits a rewrite drops, rising (R93). -/
def rewriteDrops (old new : SceneDef) : List Nat :=
  (old.entries.map Prod.fst).filter fun c => !(new.entries.map Prod.fst).contains c

/-- A rewrite of a live scene: placements first, then removals, then the judgement where a placement was made (R93). -/
def State.rewriteLive (s : State) (n : Nat) (sc : Scene) (new : SceneDef) : State :=
  let old := sc.definition
  let s := s.onScene n fun x => { x with definition := new }
  let r := s.placeAll ((new.entries.filter (rewritePlaces old new)).map fun e =>
    (e.1, sceneClaim n (sc.liveTier.getD 0) new sc.recaller e.2))
  let s := (rewriteDrops old new).foldl (fun s c => s.remove true (.scene n) c) r.1
  if r.2.any then s.judgeScene n r.2.refused else s

/-- A definition of a scene that is not live (R87). -/
def Scene.define (d : SceneDef) : Scene :=
  { definition := d, liveTier := none, recaller := none, partialMark := false, displacedMark := false }

end Sys2Proof.Machine
end

