-- ==== Sys2Proof/Machine/Bindings.lean ====
section
/-! DEFINITION. The Binding Table's operations (chapter 3): the release of a binding's light, creation, replacement and
retirement. -/

namespace Sys2Proof.Machine

/-- A binding as a WriteBinding leaves it: the record with every mark clear (R51, R52). -/
def Binding.fresh (r : BindingRecord) : Binding :=
  { record := r, displacedMark := false, partialMark := false, notifyPending := false, captured := false }

/-- The live scenes a binding recalled, rising (R53). -/
def State.recalledBy (s : State) (b : Nat) : List Nat :=
  ((s.scenes.filter fun e => e.2.recaller == some (.binding b)).map Prod.fst).filter s.live

/-- The release of a binding's light, in the five steps of R53. -/
def State.releaseLight (s : State) (b : Nat) : State :=
  match Table.at? s.bindings b with
  | none => s
  | some x =>
    let s := s.removeEverywhere (.binding b)
    let s := (s.recalledBy b).foldl (fun s n => s.releaseScene n) s
    let s := s.withRepeats (s.repeats.filter fun r => r.binding != b)
    let s := s.onKey x.record.source fun k => { k with holdings := k.holdings.filter fun p => p.1 != b }
    s.onBinding b fun x => { x with captured := false }

/-- A WriteBinding that passed its checks: a creation, or a replacement after the release of the old light (R51, R52). -/
def State.writeBinding (s : State) (b : Nat) (r : BindingRecord) : State :=
  let s := s.releaseLight b
  s.withBindings (Table.put s.bindings b (.fresh r))

/-- A retirement: the light is released and the id becomes free (R56). -/
def State.retire (s : State) (b : Nat) : State :=
  let s := s.releaseLight b
  s.withBindings (Table.remove s.bindings b)

/-- A suspension (R54): the light of an ARMED binding is released and the binding becomes SUSPENDED. -/
def State.suspend (s : State) (b : Nat) : State :=
  (s.releaseLight b).onBinding b fun x => { x with record := { x.record with suspended := true } }

/-- A resumption (R55). -/
def State.resume (s : State) (b : Nat) : State :=
  s.onBinding b fun x => { x with record := { x.record with suspended := false } }

/-- The target of an action where it is a circuit (R49). -/
def Action.area? : Action → Option Area
  | .level a .. | .toggle a .. | .release a _ | .followLevel a .. => some a
  | .master z _ | .raise z _ | .lower z _ | .followMaster z => some (.zone z)
  | .scene .. | .sceneOff _ | .mode _ | .notify => none

/-- The target of an action where it is a scene. -/
def Action.sceneTarget? : Action → Option Nat
  | .scene n _ | .sceneOff n => some n
  | _ => none

/-- Two records agree in source, gesture, action and target (R49). -/
def BindingRecord.agrees (r q : BindingRecord) : Bool :=
  r.source == q.source && r.gesture == q.gesture && r.action.code == q.action.code &&
    r.action.targetBytes == q.action.targetBytes

/-- Whether the target of an action exists (R50, check 5). -/
def State.targetExists (s : State) (a : Action) : Bool :=
  match a.area?, a.sceneTarget? with
  | some (.circuit c), _ => (Table.at? s.circuits c).isSome
  | some (.zone z), _ => (Table.at? s.zones z).isSome
  | none, some n => (Table.at? s.scenes n).isSome
  | none, none => true

end Sys2Proof.Machine
end

