-- ==== Sys2Proof/Machine/Modes.lean ====
section
/-! DEFINITION. The Mode Unit (chapter 8): the mode change, the egress latch, and the PANIC filter. -/

namespace Sys2Proof.Machine

/-! ## Mode changes -/

/-- The bindings whose light a mode change releases, rising: ARMED, with the old mode and without the new one among their
modes (R140). -/
def State.leaving (s : State) (old new : HouseMode) : List Nat :=
  Table.idsWhere s.bindings fun b => !b.record.suspended && b.record.modes.has old && !b.record.modes.has new

/-- Step 3 of a mode change that goes on to report a new required feed. An expiry of the step timer may fall after any of
its handovers and before the report (R142). Whether one does, and after which circuit's handover, is a free value
(DESIGN CHOICE, log entry 31). -/
def State.redormBeforeReport (s : State) : State :=
  let between := Config.stepInModeChange s.freeUses
  let s := { s with freeUses := s.freeUses + 1 }
  match between with
  | none => s.redormAll
  | some c => ((s.redormWhere fun i => i ≤ c).stepExpiry).redormWhere fun i => c < i

/-- A mode change taken as one operation, steps 1 to 4 of R139; nothing where the mode is the present one. Step 5 needs
no action, since lamps are derived at each slot (R134). -/
def State.changeMode (s : State) (new : HouseMode) : State :=
  let old := s.mode
  if new = old then s
  else
    let s := s.withMode new
    let s := (s.leaving old new).foldl (fun s b => s.releaseLight b) s
    let shifts := old == .performance || new == .performance
    if old.requires = new.requires then if shifts then s.redormAll else s
    else (if shifts then s.redormBeforeReport else s).reportFeed new.requires

/-! ## The egress latch -/

/-- The contribution of origin EGRESS (R5, R145). -/
def egressClaim : Contribution :=
  { origin := .egress, tier := 3, level := 1000, arrival := 0, release := 0, recaller := none, heldBy := none,
    dormant := false }

/-- The configured circuits with the EGRESS flag, rising (R145). -/
def State.egressCircuits (s : State) : List Nat := Table.idsWhere s.circuits fun c => c.config.egress

/-- The setting of the egress latch (R145). -/
def State.setLatch (s : State) : State :=
  let s := { s with latch := true, latchCopy := true }
  let s := s.egressCircuits.foldl (fun s c => (s.place c egressClaim).1) s
  s.raise .egress

/-- The clearing of the egress latch: every EGRESS contribution is removed with fade 0, and the clearing is reported to the
Transition Unit before or after those handovers, an order the manual leaves open (R147, R39). -/
def State.clearLatch (s : State) : State :=
  let first := Config.latchReportFirst s.freeUses
  let s := { s with latch := false, freeUses := s.freeUses + 1 }
  let s := if first then s.reportLatchClear else s
  let s := s.removeEverywhere .egress
  let s := if first then s else s.reportLatchClear
  s.raise .egress

/-! ## The PANIC input -/

/-- A change of the PANIC input: the filter timer is started where the input comes to differ from the filtered state, and
stopped where it comes back (R144). -/
def State.panicChange (s : State) (asserted : Bool) : State :=
  if asserted = s.panicInput then s
  else
    { s with
      panicInput := asserted
      panicTimer := if asserted = s.panicFiltered then none else some 50 }

/-- The filter timer expires: the filtered state takes the input's value (R144, R145). -/
def State.panicExpiry (s : State) : State :=
  match s.panicTimer with
  | none => s
  | some _ =>
    let s := { s with panicTimer := none, panicFiltered := s.panicInput }
    if s.panicFiltered && !s.latch then s.setLatch else s.raise .egress

end Sys2Proof.Machine
end

