-- ==== Sys2Proof/Machine/Actions.lean ====
section
/-! DEFINITION. The Action Unit (chapter 4), fader pickup (section 6.7), and the lookup that offers the bindings of a
gesture (R47). -/

namespace Sys2Proof.Machine

/-! ## Placing actions -/

/-- The contribution of a binding (R67, R110). -/
def bindingClaim (b tier level arrival release : Nat) (heldBy : Option StationInput) : Contribution :=
  { origin := .binding b, tier := tier, level := level, arrival := arrival, release := release, recaller := none,
    heldBy := heldBy, dormant := false }

/-- A pair entered in a set of momentary holdings kept in rising order; a pair already present stays (R70). -/
def addPair (p : Nat × Nat) : List (Nat × Nat) → List (Nat × Nat)
  | [] => [p]
  | q :: rest =>
    if q = p then q :: rest
    else if p.1 < q.1 ∨ (p.1 = q.1 ∧ p.2 < q.2) then p :: q :: rest
    else q :: addPair p rest

/-- The pair of a momentary placement that was appended or re-placed enters its key's set (R70). -/
def State.recordHolding (s : State) (b c : Nat) (key : Option StationInput) (v : Verdict) : State :=
  match key, v with
  | some k, .appended _ | some k, .replaced => s.onKey k fun r => { r with holdings := addPair (b, c) r.holdings }
  | _, _ => s

/-- The judgement of a binding's marks at the end of a firing (R69). -/
def State.judgeBinding (s : State) (b : Nat) (t : Tally) : State :=
  if t.any then
    s.onBinding b fun x =>
      if t.refused then { x with partialMark := true } else { x with partialMark := false, displacedMark := false }
  else s

/-- A firing that places a contribution on each circuit of its target, with the judgement of its marks (R66 to R70). -/
def State.firePlacing (s : State) (b : Nat) (area : Area) (claim : Contribution) : State :=
  let r := (s.reached area).foldl (fun (acc : State × Tally) c =>
    let r := acc.1.place c claim
    (r.1.recordHolding b c claim.heldBy r.2, acc.2.count r.2)) (s, ⟨false, false⟩)
  r.1.judgeBinding b r.2

/-- The contributions of a tier on a circuit are removed oldest first, each resolved (R74). The releasing binding's own
contributions are removed by itself, those of others by another party (R10). -/
def State.releaseTier (s : State) (b tier c : Nat) : State :=
  let origins := ((Table.at? s.circuits c).map fun x =>
    (x.claims.filter fun k => k.tier == tier).map (·.origin)).getD []
  origins.foldl (fun s o => s.remove (o != .binding b) o c) s

/-! ## Masters -/

/-- A step of a RAISE or LOWER (R79). -/
def State.stepMaster (s : State) (zone : Nat) (upward : Bool) (step : Nat) : State :=
  match Table.at? s.zones zone with
  | none => s
  | some z => s.masterChange zone (if upward then min 1000 (z.master + step) else z.master - step) z.masterFade none

/-- The repeat record of a binding whose key's gesture fired it: an existing record's timer is restarted (R78). -/
def State.startRepeat (s : State) (b zone : Nat) (upward : Bool) (step : Nat) (key : StationInput) : State :=
  if s.repeats.any fun r => r.binding == b then
    s.withRepeats (s.repeats.map fun r => if r.binding = b then { r with timer := 100 } else r)
  else s.withRepeats (s.repeats ++ [⟨b, zone, upward, step, key, 100⟩])

/-- A RAISE or LOWER that fires: one step, and from a station a repeat record (R57, R78). -/
def State.fireRepeat (s : State) (b zone : Nat) (upward : Bool) (step : Nat) (source : FiringSource) : State :=
  let s := s.stepMaster zone upward step
  match source with
  | .station k => s.startRepeat b zone upward step k
  | .host => s

/-- A repeat timer expires: one step, and the timer runs again (R79). -/
def State.repeatExpiry (s : State) (b : Nat) : State :=
  match s.repeats.find? fun r => r.binding == b with
  | none => s
  | some r =>
    let s := s.stepMaster r.zone r.upward r.step
    s.withRepeats (s.repeats.map fun r => if r.binding = b then { r with timer := 100 } else r)

/-! ## Faders -/

/-- The reference value of a fader binding, none where there is none (R109). -/
def State.reference (s : State) (b : Nat) : Action → Option Nat
  | .followMaster z => (Table.at? s.zones z).map (·.master)
  | .followLevel area .. =>
    let circuits := (s.reached area).filterMap (Table.at? s.circuits)
    let own := circuits.filterMap fun c => (c.claims.find? fun k => k.origin == .binding b).map (·.level)
    match own, circuits with
    | l :: _, _ => some l
    | [], c :: _ => some c.resolved.raw
    | [], [] => none
  | _ => none

/-- A position is applied (R110). -/
def State.applyPosition (s : State) (b position : Nat) : Action → State
  | .followMaster z => s.masterChange z position 0 (some b)
  | .followLevel area tier fade => s.firePlacing b area (bindingClaim b tier position 0 fade none)
  | _ => s

/-- Whether a fader that moves from P to Q meets or crosses a reference (R110). -/
def captures (p : Option Nat) (q reference : Nat) : Bool :=
  q == reference || p.any fun p => decide (p < reference ∧ reference < q) || decide (q < reference ∧ reference < p)

/-- Pickup of an offered fader binding with positions P and Q (R110). -/
def State.pickup (s : State) (b : Nat) (captured : Bool) (action : Action) (p : Option Nat) (q : Nat) : State :=
  if captured then s.applyPosition b q action
  else
    match s.reference b action with
    | some r =>
      if captures p q r then (s.onBinding b fun x => { x with captured := true }).applyPosition b q action else s
    | none => s

/-! ## Firing -/

/-- A MODE binding asks for a mode change; in PERFORMANCE the request is ignored with notice MODE. A change caused by a
station's gesture raises MODE (R82, R142). -/
def State.fireMode (s : State) (mode : HouseMode) (source : FiringSource) : State :=
  if s.mode = .performance then s.raise .mode
  else if mode = s.mode then s
  else
    let s := s.changeMode mode
    match source with
    | .station _ => s.raise .mode
    | .host => s

/-- The key a firing's momentary contributions are held by (R67, R70). -/
def FiringSource.heldBy (source : FiringSource) (momentary : Bool) : Option StationInput :=
  match source with
  | .station k => if momentary then some k else none
  | .host => none

/-- The action of an offered binding, with the positions P and Q of a MOVE (R67 to R83). A fire from the host applies its
position as a MOVE of the captured binding would (R57). -/
def State.perform (s : State) (b : Nat) (x : Binding) (source : FiringSource) (p : Option Nat) (q : Nat) : State :=
  match x.record.action with
  | .level area level tier fade momentary =>
    s.firePlacing b area (bindingClaim b tier level fade fade (source.heldBy momentary))
  | .toggle area level tier fade =>
    if 0 < s.holds (.binding b) then s.removeEverywhere (.binding b)
    else s.firePlacing b area (bindingClaim b tier level fade fade none)
  | .release area tier => (s.reached area).foldl (fun s c => s.releaseTier b tier c) s
  | .scene n tier => s.recall n tier (.binding b)
  | .sceneOff n => s.releaseScene n
  | .master zone level => s.masterChange zone level (s.masterFade zone) none
  | .raise zone step => s.fireRepeat b zone true step source
  | .lower zone step => s.fireRepeat b zone false step source
  | .followMaster _ | .followLevel .. =>
    match source with
    | .station _ => s.pickup b x.captured x.record.action p q
    | .host => s.applyPosition b q x.record.action
  | .mode mode => s.fireMode mode source
  | .notify => (s.onBinding b fun x => { x with notifyPending := true }).raise .notify

/-- An offered binding is held while its action is carried out whole, and then dropped (R65). The action is one command
here, so but in a mode change an expiry of the step timer comes before or after the handovers of all its circuits, never
between those of two (DESIGN CHOICE, log entry 35). -/
def State.fire (s : State) (b : Nat) (x : Binding) (source : FiringSource) (p : Option Nat) (q : Option Nat) : State :=
  ((s.withOffered (some ⟨b, x.record.gesture, source, q⟩)).perform b x source p (q.getD 0)).withOffered none

/-- A binding reached in an index list is offered if, at that moment, it may act (R47). -/
def State.offer (s : State) (key : StationInput) (p q : Option Nat) (b : Nat) : State :=
  match Table.at? s.bindings b with
  | some x => if s.mayAct x then s.fire b x (.station key) p q else s
  | none => s

/-- A gesture is reported: the bindings of its index list are reached in ascending id (R47). -/
def State.report (s : State) (key : StationInput) (g : Gesture) (p : Option Nat := none) (q : Option Nat := none) : State :=
  (s.indexList key g).foldl (fun s b => s.offer key p q b) s

/-- Whether a key has a DOUBLE binding at this moment (R48). -/
def State.hasDouble (s : State) (key : StationInput) : Bool :=
  (s.indexList key .double).any fun b => (Table.at? s.bindings b).any s.mayAct

end Sys2Proof.Machine
end

