-- ==== Sys2Proof/Machine/Gestures.lean ====
section
/-! DEFINITION. The Gesture Unit (chapter 6): key records, classification of keys and contacts, fader moves, stuck keys,
a station lost and regained, and snapshots. -/

namespace Sys2Proof.Machine

/-! ## Key records -/

/-- A newly created key record (R97). -/
def KeyRecord.fresh (c : InputClass) : KeyRecord :=
  { inputClass := c, state := .up, plainRelease := false, downStamp := none, lastUpStamp := none, holdTimer := none,
    doubleTimer := none, stuckTimer := none, position := none, holdings := [] }

/-- The key records of a station of a kind (R98). -/
def StationKind.keyRecords : StationKind → Table KeyRecord
  | .keypad => (identifiers 12).map fun i => (i, .fresh .key)
  | .fader => (identifiers 8).map fun i => (i, .fresh (if i ≤ 4 then .fader else .key))
  | .contact => (identifiers 8).map fun i => (i, .fresh .contact)

/-- The contact edge mode of an input (R107). -/
def StationSetup.edgeOf (setup : StationSetup) (input : Nat) : EdgeMode :=
  match setup with
  | .contact edges _ => (edges[input - 1]?).getD .both
  | _ => .both

/-- A key's momentary holdings are removed: for each pair, the contribution where it still names the key; then the set is
emptied (R71, R72). -/
def State.dropHoldings (s : State) (key : StationInput) : State :=
  match s.key? key with
  | none => s
  | some r =>
    let s := r.holdings.foldl (fun s (p : Nat × Nat) =>
      let named := ((Table.at? s.circuits p.2).bind fun c => c.claims.find? fun k => k.origin == .binding p.1).any
        fun k => k.heldBy == some key
      if named then s.remove false (.binding p.1) p.2 else s) s
    s.onKey key fun r => { r with holdings := [] }

/-- The repeat records of a key are removed (R80). -/
def State.dropRepeats (s : State) (key : StationInput) : State :=
  s.withRepeats (s.repeats.filter fun r => r.key != key)

/-- A key comes up: its holdings and repeats go (R71, R80). -/
def State.letGo (s : State) (key : StationInput) : State := (s.dropHoldings key).dropRepeats key

/-! ## Keys -/

/-- A first press (R101). A synthesized DOWN has no stamp (R112). -/
def State.firstPress (s : State) (key : StationInput) (stamp : Option Stamp) : State :=
  let s := s.onKey key fun r => { r with
    state := .down, plainRelease := false, downStamp := stamp, lastUpStamp := none, doubleTimer := none,
    holdTimer := some s.settings.hold, stuckTimer := some (s.settings.stuck * 1000) }
  s.report key .down

/-- A second press within the double window (R101). -/
def State.secondPress (s : State) (key : StationInput) (stamp : Option Stamp) : State :=
  let s := s.onKey key fun r => { r with
    state := .down, plainRelease := true, downStamp := stamp, lastUpStamp := none, doubleTimer := none,
    stuckTimer := some (s.settings.stuck * 1000) }
  (s.report key .down).report key .double

/-- The deferred PRESS is reported and the key returns to UP (R101, R104). -/
def State.pressNow (s : State) (key : StationInput) : State :=
  let s := s.onKey key fun r => { r with state := .up, lastUpStamp := none, doubleTimer := none }
  s.report key .press

/-- A key returned to UP with its stamps absent, its mark clear and its timers stopped (R103, R105). -/
def KeyRecord.toUp (r : KeyRecord) : KeyRecord :=
  { r with
    state := .up, plainRelease := false, downStamp := none, lastUpStamp := none, holdTimer := none,
    doubleTimer := none, stuckTimer := none }

/-- An UP synthesized after a snapshot or a lost UP: UP, and HOLD_END if HELD, and no other gesture (R101, R112). -/
def State.synthesizedUp (s : State) (key : StationInput) (was : KeyState) : State :=
  let s := s.letGo key
  let s := s.onKey key .toUp
  match was with
  | .down => s.report key .up
  | .held => (s.report key .up).report key .holdEnd
  | .up | .waitSecond | .stuck => s

/-- Whether the gap between the last up stamp and a DOWN's stamp lies within the double window; false where a stamp is
absent (R99, R101). -/
def withinWindow (r : KeyRecord) (stamp : Option Stamp) (window : Nat) : Bool :=
  match r.lastUpStamp, stamp with
  | some u, some d => decide ((d - u).toNat ≤ window)
  | _, _ => false

/-- A DOWN event for a KEY input (R101). -/
def State.keyDown (s : State) (key : StationInput) (r : KeyRecord) (stamp : Stamp) : State :=
  match r.state with
  | .up => s.firstPress key (some stamp)
  | .waitSecond =>
    if withinWindow r (some stamp) s.settings.doubleWindow then s.secondPress key (some stamp)
    else (s.pressNow key).firstPress key (some stamp)
  | .down => (s.synthesizedUp key .down).firstPress key (some stamp)
  | .held => (s.synthesizedUp key .held).firstPress key (some stamp)
  | .stuck => s

/-- Whether the press length reaches the hold threshold; false where a stamp is absent (R99, R103). -/
def longPress (r : KeyRecord) (stamp : Stamp) (threshold : Nat) : Bool :=
  match r.downStamp with
  | some d => decide (threshold ≤ (stamp - d).toNat)
  | none => false

/-- An UP event for a KEY input (R103, R105). -/
def State.keyUp (s : State) (key : StationInput) (r : KeyRecord) (stamp : Stamp) : State :=
  let double := s.hasDouble key
  let s := s.onKey key fun r => { r with holdTimer := none, stuckTimer := none }
  let s := s.letGo key
  match r.state with
  | .up | .waitSecond => s
  | .stuck => s.onKey key .toUp
  | .held => ((s.onKey key .toUp).report key .up).report key .holdEnd
  | .down =>
    if r.plainRelease then (s.onKey key .toUp).report key .up
    else if longPress r stamp s.settings.hold then
      (((s.onKey key .toUp).report key .up).report key .hold).report key .holdEnd
    else if double then
      (s.onKey key fun r => { r with
        state := .waitSecond, downStamp := none, lastUpStamp := some stamp,
        doubleTimer := some s.settings.doubleWindow }).report key .up
    else ((s.onKey key .toUp).report key .up).report key .press

/-- The hold timer of a key in DOWN expires (R102). -/
def State.holdExpiry (s : State) (key : StationInput) : State :=
  match s.key? key with
  | some r =>
    if r.holdTimer.isSome ∧ r.state = .down then
      (s.onKey key fun r => { r with state := .held, holdTimer := none }).report key .hold
    else s
  | none => s

/-- The double timer of a key in WAIT_SECOND expires (R104). -/
def State.doubleExpiry (s : State) (key : StationInput) : State :=
  match s.key? key with
  | some r => if r.doubleTimer.isSome ∧ r.state = .waitSecond then s.pressNow key else s
  | none => s

/-- The stuck timer of a key in DOWN or HELD expires (R105). -/
def State.stuckExpiry (s : State) (key : StationInput) : State :=
  match s.key? key with
  | some r =>
    if r.stuckTimer.isSome ∧ (r.state = .down ∨ r.state = .held) then
      let s := s.onKey key fun r => { r with
        state := .stuck, plainRelease := false, downStamp := none, holdTimer := none, stuckTimer := none }
      (s.letGo key).raise .stuck
    else s
  | none => s

/-! ## Contacts and faders -/

/-- A contact closes or opens, under its edge mode (R107). Any opening ends the repeats of its key (R80). -/
def State.contactEvent (s : State) (key : StationInput) (edge : EdgeMode) (closing : Bool) : State :=
  if closing then
    let s := s.onKey key fun r => { r with state := .down }
    if edge = .fall then s else s.report key .down
  else if edge = .rise then (s.dropRepeats key).onKey key fun r => { r with state := .up }
  else ((s.letGo key).onKey key fun r => { r with state := .up }).report key .up

/-- A MOVE of a fader to a position: MOVE is reported with the old and the new position, and then the record takes the
new one (R108). -/
def State.faderMove (s : State) (key : StationInput) (r : KeyRecord) (position : Nat) : State :=
  let q := min 1000 position
  (s.report key .move r.position (some q)).onKey key fun r => { r with position := some q }

/-! ## Events and snapshots -/

/-- An accepted event of a station is carried out whole; one for an input with no key record, or of a class that cannot
have it, derives no gesture (R98). -/
def State.stationEvent (s : State) (l : Line) (a : Nat) (e : StationEvent) : State :=
  let key : StationInput := ⟨l, a, e.input⟩
  match s.key? key with
  | none => s
  | some r =>
    let edge := ((s.station? l a).map fun st => st.setup.edgeOf e.input).getD .both
    match r.inputClass, e.edge with
    | .key, .down => s.keyDown key r e.stamp
    | .key, .up => s.keyUp key r e.stamp
    | .contact, .down => s.contactEvent key edge true
    | .contact, .up => s.contactEvent key edge false
    | .fader, .move p => s.faderMove key r p
    | _, _ => s

/-- One input of a Snapshot Answer is compared with its key record (R112). A position above 1000 is taken as 1000 before the
comparison, so that with P at 1000 no MOVE is synthesized; R108 clamps at the MOVE alone (DESIGN CHOICE, log entry 33). -/
def State.compareInput (s : State) (l : Line) (a : Nat) (reading : Nat × InputReading) : State :=
  let key : StationInput := ⟨l, a, reading.1⟩
  match s.key? key with
  | none => s
  | some r =>
    let edge := ((s.station? l a).map fun st => st.setup.edgeOf reading.1).getD .both
    match r.inputClass, reading.2 with
    | .key, .down true =>
      match r.state with
      | .up => s.firstPress key none
      | .waitSecond => (s.pressNow key).firstPress key none
      | .down | .held | .stuck => s
    | .key, .down false =>
      match r.state with
      | .down | .held | .stuck => s.synthesizedUp key r.state
      | .up | .waitSecond => s
    | .contact, .down closed =>
      if closed = (r.state == .down) then s else s.contactEvent key edge closed
    | .fader, .position q => if r.position = some (min 1000 q) then s else s.faderMove key r q
    | _, _ => s

/-- A Snapshot Answer is compared with the key records in ascending input number (R112). -/
def State.compareSnapshot (s : State) (l : Line) (a : Nat) (inputs : List (Nat × InputReading)) : State :=
  inputs.foldl (fun s reading => s.compareInput l a reading) s

/-! ## A station lost, regained or discarded -/

/-- The inputs of a station that have key records, rising. -/
def State.keysOf (s : State) (l : Line) (a : Nat) : List StationInput :=
  ((s.station? l a).map fun st => (Table.ids st.keys).map fun i => (⟨l, a, i⟩ : StationInput)).getD []

/-- The captured marks of the bindings whose source is one of a station's inputs are cleared (R98, R106, R119). -/
def State.clearCaptures (s : State) (l : Line) (a : Nat) : State :=
  s.withBindings (Table.mapAll s.bindings fun _ b =>
    if b.record.source.line = l ∧ b.record.source.address = a then { b with captured := false } else b)

/-- What a key record keeps at its station's entry into MISSING (R106). -/
def KeyRecord.atMissing (r : KeyRecord) : KeyRecord :=
  let r := { r with holdTimer := none, doubleTimer := none, stuckTimer := none }
  if r.inputClass ≠ .key then r
  else
    match r.state with
    | .waitSecond => { r with state := .up, lastUpStamp := none }
    | .down | .held => { r with plainRelease := true, downStamp := none }
    | .up | .stuck => r

/-- The Gesture Unit is told that a station has entered MISSING, or is treated as MISSING (R106). The keys are taken in
rising input, an order the manual leaves open (DESIGN CHOICE, log entry 36). -/
def State.gestureMissing (s : State) (l : Line) (a : Nat) : State :=
  let keys := s.keysOf l a
  if keys.isEmpty then s
  else
    let s := keys.foldl (fun s k => (s.onKey k .atMissing).letGo k) s
    s.clearCaptures l a

/-- The stuck timers of a station's keys in DOWN or HELD are started again at its return (R106). -/
def State.gestureReturn (s : State) (l : Line) (a : Nat) : State :=
  (s.keysOf l a).foldl (fun s k => s.onKey k fun r =>
    if r.inputClass = .key ∧ (r.state = .down ∨ r.state = .held) then
      { r with stuckTimer := some (s.settings.stuck * 1000) }
    else r) s

/-- The key records of a station are discarded, with their holdings, repeats and captured marks (R98). The keys are taken in
rising input (DESIGN CHOICE, log entry 36). -/
def State.discardKeys (s : State) (l : Line) (a : Nat) : State :=
  let s := (s.keysOf l a).foldl (fun s k => s.letGo k) s
  (s.clearCaptures l a).onStation l a fun st => { st with keys := [] }

end Sys2Proof.Machine
end

