-- ==== Sys2Proof/Machine/Groups.lean ====
section
/-! DEFINITION. Group records and group deliveries (section 7.7). -/

namespace Sys2Proof.Machine

/-- Whether a delivery holds a PENDING code. -/
def Group.hasPending (g : Group) : Bool := (g.delivery.getD []).any fun e => e.code == .pending

/-- Whether a member on a line holds PENDING. -/
def Group.pendingOn (g : Group) (l : Line) : Bool :=
  (g.delivery.getD []).any fun e => e.code == .pending && e.member.line == l

/-- A group whose members on a line hold no PENDING code leaves the line's set of waiting Group Lamp frames (R133). -/
def State.pruneWaiting (s : State) (group : Nat) (g : Group) (l : Line) : State :=
  if g.pendingOn l then s else s.onUnit l fun u => { u with waiting := u.waiting.filter (· != group) }

/-- A change to the entries of a group's delivery: where it settles the last PENDING code notice GROUP is raised, and the
waiting frames that no PENDING member needs are dropped (R133). -/
def State.onDelivery (s : State) (group : Nat) (f : DeliveryEntry → DeliveryEntry) : State :=
  match Table.at? s.groups group with
  | none => s
  | some g =>
    let g' := { g with delivery := g.delivery.map fun es => es.map f }
    let s := s.onGroup group fun _ => g'
    let s := if g.hasPending && !g'.hasPending then s.raise .group else s
    (s.pruneWaiting group g' .a).pruneWaiting group g' .b

/-- Every PENDING code that a test holds of becomes OFFLINE, group by group (R133). -/
def State.offlineWhere (s : State) (test : Member → Bool) : State :=
  (Table.ids s.groups).foldl (fun s group => s.onDelivery group fun e =>
    if e.code == .pending && test e.member then { e with code := .offline } else e) s

/-- The PENDING codes of a station become OFFLINE (R133). -/
def State.offlineStation (s : State) (l : Line) (a : Nat) : State := s.offlineWhere fun m => m == ⟨l, a⟩

/-- A group's Group Lamp frame is made to wait on a line; a group already there is not added twice (R133). -/
def insertWaiting (group : Nat) : List Nat → List Nat
  | [] => [group]
  | x :: rest => if x = group then x :: rest else if group < x then group :: x :: rest else x :: insertWaiting group rest

def State.wait (s : State) (group : Nat) (l : Line) : State :=
  s.onUnit l fun u => { u with waiting := insertWaiting group u.waiting }

/-- The group a Call to a station queries: the lowest whose delivery holds PENDING for it (R133). -/
def State.owedQuery (s : State) (m : Member) : Option Nat :=
  (Table.idsWhere s.groups fun g =>
    (g.delivery.getD []).any fun e => e.member == m && e.code == .pending).head?

/-- How a slot that carried a query ended (R133). -/
inductive QueryEnd where
  | acknowledged (ack : GroupAck)
  | garbled
  | silent
deriving DecidableEq, Repr

/-- A PENDING code the slot's end leaves PENDING: the query count rises, and at 3 the code becomes NO_ANSWER (R133). -/
def DeliveryEntry.asked (e : DeliveryEntry) : DeliveryEntry :=
  if 3 ≤ e.queries + 1 then { e with queries := e.queries + 1, code := .noAnswer }
  else { e with queries := e.queries + 1 }

/-- The end of a slot that carried a group query to a member settles the member's code (R133). -/
def State.settleQuery (s : State) (group : Nat) (m : Member) (how : QueryEnd) : State :=
  let present := ((Table.at? s.groups group).map (·.lastNumber)).getD 0
  let other := match how with
    | .acknowledged (.number n) => n != present
    | _ => false
  let waits := other && ((Table.at? s.groups group).any fun g =>
    (g.delivery.getD []).any fun e => e.member == m && e.code == .pending)
  let s := if waits then s.wait group m.line else s
  s.onDelivery group fun e =>
    if e.member == m && e.code == .pending then
      match how with
      | .acknowledged (.number n) => if n = present then { e with code := .ok } else e.asked
      | .acknowledged .notMember => { e with code := .refused }
      | .acknowledged .none => e.asked
      | .garbled => { e with code := .garbled }
      | .silent => e.asked
    else e

/-- The queries of slots in progress for a group's replaced delivery are no longer of its delivery (R133). -/
def SlotUse.dropQuery (group : Nat) : SlotUse → SlotUse
  | .call c => .call (if c.query = some group then { c with query := none } else c)
  | u => u

def State.forgetQueries (s : State) (group : Nat) : State :=
  let f (u : LineUnit) : LineUnit := { u with slot := u.slot.map fun x => { x with carries := x.carries.dropQuery group } }
  (s.onUnit .a f).onUnit .b f

/-- A new delivery of a banner state (R133). -/
def State.deliver (s : State) (group : Nat) (banner : LampState) : State :=
  match Table.at? s.groups group with
  | none => s
  | some g =>
    let reachable (m : Member) : Bool :=
      ((s.unit m.line).state == .intact || (s.unit m.line).state == .split) &&
        (s.station? m.line m.address).any fun st => st.state == .online
    let entries := g.members.map fun m => (⟨m, if reachable m then .pending else .offline, 0⟩ : DeliveryEntry)
    let g' : Group := { g with banner := banner, lastNumber := (g.lastNumber + 1) % 8, delivery := some entries }
    let s := (s.forgetQueries group).onGroup group fun _ => g'
    let s := if g'.pendingOn .a then s.wait group .a else s.pruneWaiting group g' .a
    let s := if g'.pendingOn .b then s.wait group .b else s.pruneWaiting group g' .b
    if g'.hasPending then s else s.raise .group

/-- A group's member list is replaced and its delivery becomes none; an ONLINE station whose group set changes has
configure pending set (R132). -/
def State.setMembers (s : State) (group : Nat) (members : List Member) : State :=
  match Table.at? s.groups group with
  | none => s
  | some g =>
    let g' : Group := { g with members := members, delivery := none }
    let s := (s.forgetQueries group).onGroup group fun _ => g'
    let s := (s.pruneWaiting group g' .a).pruneWaiting group g' .b
    let mark (l : Line) (s : State) : State :=
      s.onUnit l fun u => { u with
        stations := Table.mapAll u.stations fun a st =>
          if st.state == .online && (g.members.contains ⟨l, a⟩ != members.contains ⟨l, a⟩) then
            { st with configurePending := true }
          else st }
    mark .b (mark .a s)

/-- A removed station leaves the member list and the delivery of every group (R119). R119 raises no notice, while R133 raises
GROUP when the last PENDING code of a delivery settles: GROUP is raised where the removal settles it (DESIGN CHOICE, log
entry 42). -/
def State.leaveGroups (s : State) (m : Member) : State :=
  let s := s.offlineWhere fun x => x == m
  s.withGroups (Table.mapAll s.groups fun _ g =>
    { g with
      members := g.members.filter (· != m)
      delivery := g.delivery.map fun es => es.filter fun e => e.member != m })

end Sys2Proof.Machine
end

