-- ==== Sys2Proof/Machine/HostLink.lean ====
section
/-! DEFINITION. The Host Link's exchange (chapter 10): taking a request, placing the answer, the Fetch. -/

namespace Sys2Proof.Machine

/-- What the owner of a request returns for its answer (R161, R163). -/
structure Reply where
  result : Result
  clamped : Bool := false
  body : List Byte := []
deriving DecidableEq, Repr

/-- What comes of a request's work: it is answered, it keeps the slot WORKING, or a reset has followed (R161, R164,
R167). -/
inductive Work where
  | answered (reply : Reply) (s : State)
  | inWork (s : State)
  | ended (s : State)

/-- An answer OK with an empty body. -/
def Work.done (s : State) : Work := .answered { result := .ok } s

/-- A refusal: a result other than OK, with no body (R163). -/
def Work.refuse (r : Result) (s : State) : Work := .answered { result := r } s

/-- An answer OK with a body. A body over 250 bytes is one the manual gives no form (R163). -/
def Work.read (body : List Byte) (s : State) : Work :=
  .answered { result := .ok, body :=
    if body.length ≤ Config.bodyLimit then body else (Config.overlongBody body).take Config.bodyLimit } s

/-- The answer is placed: the slot becomes ANSWER_READY and READY goes high (R161). -/
def State.placeAnswer (s : State) (tag : Byte) (r : Reply) : State :=
  s.withHostSlot (.answerReady ⟨tag, r.result, r.clamped, r.body⟩)

/-- The INSTALL input is looked at as a request judged by it is taken (R60). -/
def State.seeInstall (s : State) (install : Bool) : State := { s with installInput := install }

/-- The bytes a request transfer of n bytes shifts out (R160). -/
def State.shiftZeros (s : State) (n : Nat) : State := { s with sdo := List.replicate n 0 }

/-- The end of a request transfer with a whole header, a code of the catalogue and a body of the length it names. While a
reset lasts it is lost. In IDLE it is taken and carried to its owner. In WORKING or ANSWER_READY it is discarded and the
collision flag is set (R160, R161, R173). -/
def State.takeRequest (s : State) (code tag : Byte) (body : List Byte) (work : State → Work) : State :=
  if s.power ≠ .running then s
  else
    let s := s.shiftZeros (3 + body.length)
    match s.hostSlot with
    | .idle =>
      if Config.bodyLimit < body.length then s.placeAnswer tag { result := .badRequest }
      else
        match work (s.withHostSlot (.working ⟨code, tag, body⟩)) with
        | .answered r s => s.placeAnswer tag r
        | .inWork s => s
        | .ended s => s
    | _ => { s with collision := true }

/-- The end of a malformed request transfer of n bytes (R160, R161). -/
def State.takeMalformed (s : State) (n : Nat) (tag : Byte) : State :=
  if s.power ≠ .running then s
  else
    let s := s.shiftZeros n
    match s.hostSlot with
    | .idle => s.placeAnswer tag { result := .badRequest }
    | _ => { s with collision := true }

/-- The completion of a request that takes time: its answer is placed (R164). -/
def State.complete (s : State) (r : Reply) : State :=
  match s.hostSlot with
  | .working q => s.placeAnswer q.tag r
  | _ => s

/-- The answer frame shifted out by a Fetch that begins now: link status, tag echo, result, note flags, length and body; an
empty frame where no answer waits (R162, R163, section 12.3). Bits 7..1 of the note flags are 0 (DESIGN CHOICE, log entry
40). -/
def State.answerFrame (s : State) : List Byte :=
  match s.hostSlot with
  | .answerReady a => [s.linkStatus, a.tag, a.result.code, flagByte a.clamped, byteOf a.body.length] ++ a.body
  | _ => [s.linkStatus, 0, Result.none.code, 0, 0]

/-- A Fetch of n bytes after the Fetch code: bytes beyond the frame are 0. The collision flag is cleared once the link
status is out, and the slot becomes IDLE once the whole answer is (R162). R162 says what is sent beyond the frame for a
waiting answer alone; zeros beyond an empty frame are the model's (DESIGN CHOICE, log entry 34). -/
def State.fetched (s : State) (n : Nat) : State :=
  if s.power ≠ .running then s
  else
    let frame := s.answerFrame
    let out := (frame ++ List.replicate (n - frame.length) 0).take n
    let slot := match s.hostSlot with
      | .answerReady a => if frame.length ≤ n then .idle else .answerReady a
      | h => h
    { s with sdo := out, collision := s.collision && n == 0, hostSlot := slot }

end Sys2Proof.Machine
end

