-- ==== Sys2Proof/Machine/Lines.lean ====
section
/-! DEFINITION. The line units (chapter 7): what a slot carries, echoes and line states, the end of a slot, station states
and events, Survey, restart and control of a line. -/

namespace Sys2Proof.Machine

/-! ## Lamps -/

/-- The lamp keys of a kind (R117). -/
def StationKind.lampKeys : StationKind → List Nat
  | .keypad => identifiers 12
  | .fader => [5, 6, 7, 8]
  | .contact => []

/-- The lamp record after reset: desired OFF, confirmed UNKNOWN (R117). -/
def StationKind.lamps (k : StationKind) : List Lamp := k.lampKeys.map fun i => ⟨i, .off, none⟩

/-- The binding a key's lamp follows: the lowest-id ARMED binding whose source is the key and that has a lamp link
(R134). -/
def State.lampBinding (s : State) (key : StationInput) : Option (Nat × Binding) :=
  s.bindings.find? fun e => e.2.record.source == key && !e.2.record.suspended && e.2.record.lamp.isSome

/-- The desired lamp state of a key (R134). -/
def State.desiredLamp (s : State) (key : StationInput) : LampState :=
  match s.lampBinding key with
  | none => .off
  | some (b, x) =>
    match x.record.lamp, x.record.action with
    | some .follow, _ =>
      let holders := s.holders (.binding b)
      if holders.isEmpty then .off
      else if holders.any (fun c => (Table.at? s.circuits c).any fun y => y.transition.phase != .steady) then .flash
      else .on
    | some .scene, a => if a.sceneTarget?.any s.live then .on else .off
    | some .mode, .mode m => if s.mode = m then .on else .off
    | _, _ => .off

/-- The desired states of a station are derived at the start of its slot (R134). -/
def State.deriveLamps (s : State) (l : Line) (a : Nat) : State :=
  s.onStation l a fun st => { st with lamps := st.lamps.map fun p => { p with desired := s.desiredLamp ⟨l, a, p.key⟩ } }

/-- Whether a lamp key's desired state differs from its confirmed state; UNKNOWN differs from every state (R135). -/
def Lamp.differs (p : Lamp) : Bool := p.confirmed != some p.desired

/-- Confirmed states become UNKNOWN (R122, R129). -/
def Station.forgetLamps (st : Station) : Station :=
  { st with lamps := st.lamps.map fun p => { p with confirmed := none } }

/-- The states sent are confirmed (R135). -/
def Station.confirmLamps (sent : List (Nat × LampState)) (st : Station) : Station :=
  { st with lamps := st.lamps.map fun p => { p with
      confirmed := ((sent.find? fun e => e.1 == p.key).map (·.2)).or p.confirmed } }

/-! ## Station states -/

/-- Whether a station is in the polled set (R120). -/
def StationState.polled : StationState → Bool
  | .online | .joining => true
  | _ => false

/-- Whether a station belongs on the probe list (R120). -/
def StationState.probed : StationState → Bool
  | .expected | .missing | .mismatch => true
  | _ => false

/-- A station enters ONLINE (R122). -/
def State.enterOnline (s : State) (l : Line) (a : Nat) : State :=
  let fresh := (s.keysOf l a).isEmpty
  let s := s.onStation l a fun st => { st.forgetLamps with
    state := .online
    keys := if fresh then st.setup.kind.keyRecords else st.keys }
  let s := if fresh then s else s.gestureReturn l a
  s.raise .stations

/-- A station enters MISSING (R122). -/
def State.enterMissing (s : State) (l : Line) (a : Nat) : State :=
  let s := (s.onStation l a fun st => { st with state := .missing }).gestureMissing l a
  (s.offlineStation l a).raise .stations

/-- A station enters MISMATCH (R122). -/
def State.enterMismatch (s : State) (l : Line) (a : Nat) : State :=
  let s := (s.onStation l a fun st => { st with state := .mismatch }).discardKeys l a
  (s.offlineStation l a).raise .stations

/-- A miss of a station (R121, R127). -/
def State.stationMiss (s : State) (l : Line) (a : Nat) : State :=
  let s := if (s.unit l).state = .split then s.onStation l a fun st => { st with reach := none } else s
  match s.station? l a with
  | none => s
  | some st =>
    if st.state.polled then
      let n := min 3 (st.missCount + 1)
      let s := s.onStation l a fun st => { st with missCount := n }
      if n = 3 then s.enterMissing l a else s
    else s

/-- The events of an Answer from an ONLINE station, in order; one beyond the next number ends the Answer as an overrun
(R123). -/
def State.acceptEvents (s : State) (l : Line) (a : Nat) : List StationEvent → State
  | [] => s
  | e :: rest =>
    let accepted := ((s.station? l a).map (·.accepted)).getD 0
    let d := (e.sequence + 32 - (accepted + 1) % 16) % 16
    if d = 0 then
      let s := s.onStation l a fun st => { st with accepted := e.sequence }
      (s.stationEvent l a e).acceptEvents l a rest
    else if 10 ≤ d then s.acceptEvents l a rest
    else s.onStation l a fun st => { st with snapshotNeeded := true }

/-- The record of an answered slot before its state moves: lamps confirmed, reach learnt in SPLIT, miss count 0 (R121,
R127, R135). Where the answer was heard on both ends in SPLIT, the reach is that of the copy taken (DESIGN CHOICE, log
entry 37). -/
def State.noteAnswered (s : State) (l : Line) (c : StationCall) (side : LineEnd) : State :=
  let split := (s.unit l).state == .split
  s.onStation l c.address fun st =>
    let st := (c.lampsSent.map fun sent => st.confirmLamps sent).getD st
    { st with missCount := 0, reach := if split then some side else st.reach }

/-- A station answered with another kind than it is expected to have (R121). -/
def State.wrongKind (s : State) (l : Line) (a : Nat) (state : StationState) : State :=
  if state = .mismatch then s else s.enterMismatch l a

/-- An Answer taken for a station call (R121, R123, R133). -/
def State.takeAnswer (s : State) (l : Line) (c : StationCall) (side : LineEnd) (f : AnswerFrame) : State :=
  let a := c.address
  let s := s.noteAnswered l c side
  match s.station? l a with
  | none => s
  | some st =>
    if stationKindOfNat f.kindCode ≠ some st.setup.kind then s.wrongKind l a st.state
    else
      match st.state with
      | .expected | .missing | .mismatch => s.onStation l a fun st => { st with state := .joining }
      | .joining =>
        (s.onStation l a fun st => { st with configurePending := false, snapshotNeeded := true }).enterOnline l a
      | .online =>
        let s := if c.frame = .configure then s.onStation l a fun st => { st with configurePending := false } else s
        let s := s.acceptEvents l a f.events
        let s := if f.overrun then s.onStation l a fun st => { st with snapshotNeeded := true } else s
        match c.query with
        | some g => s.settleQuery g ⟨l, a⟩ (.acknowledged f.ack)
        | none => s

/-- A Snapshot Answer taken for a station call (R121, R124). -/
def State.takeSnapshot (s : State) (l : Line) (c : StationCall) (side : LineEnd) (f : SnapshotFrame) : State :=
  let a := c.address
  let s := s.noteAnswered l c side
  match s.station? l a with
  | none => s
  | some st =>
    if f.kind ≠ st.setup.kind then s.wrongKind l a st.state
    else if st.state = .online then
      (s.onStation l a fun st => { st with accepted := f.sequence, snapshotNeeded := false }).compareSnapshot l a f.inputs
    else s

/-! ## The end of a slot -/

/-- How a slot that expects an answer ended (R116). -/
inductive SlotEnd where
  | answer (side : LineEnd) (frame : AnswerFrame)
  | snapshot (side : LineEnd) (frame : SnapshotFrame)
  | garbled
  | silent
deriving DecidableEq, Repr

/-- A miss at the end of a station call: the query's code is settled first (R133), then the miss is counted (R121). -/
def State.missedCall (s : State) (l : Line) (c : StationCall) (how : QueryEnd) : State :=
  let s := match c.query with
    | some g => s.settleQuery g ⟨l, c.address⟩ how
    | none => s
  s.stationMiss l c.address

/-- The end of a station call's slot. An answer to a slot begun before its record was removed or given another kind is
discarded and counts as no miss (R118, R119). -/
def State.endCall (s : State) (l : Line) (c : StationCall) (how : SlotEnd) : State :=
  let s := if c.fromProbeList then s.onUnit l fun u => { u with probeList := u.probeList.erase c.address } else s
  if c.voided then s
  else
    match how with
    | .answer side f => if c.frame = .snapshotCall then s.missedCall l c .garbled else s.takeAnswer l c side f
    | .snapshot side f => if c.frame = .snapshotCall then s.takeSnapshot l c side f else s.missedCall l c .garbled
    | .garbled => s.missedCall l c .garbled
    | .silent => s.missedCall l c .silent

/-- Every station in EXPECTED, MISSING or MISMATCH is added to the probe list unless it is there (R120). -/
def LineUnit.addProbes (u : LineUnit) : LineUnit :=
  { u with
    probeList := u.probeList ++
      (Table.idsWhere u.stations fun st => st.state.probed).filter fun a => !u.probeList.contains a }

/-- What a Survey's slot found (R131, section 12.2). -/
def surveyFinding : SlotEnd → Option Byte
  | .answer _ f => some (byteOf f.kindCode)
  | .snapshot .. | .garbled => some 0xFE
  | .silent => none

/-- A slot of a Survey ends. At the end of the slot of address 60 polling resumes, held expiries are taken and the request
is answered with the list (R131, R164). -/
def State.endSurveySlot (s : State) (l : Line) (a : Nat) (how : SlotEnd) : State :=
  match (s.unit l).survey with
  | none => s
  | some v =>
    let found := v.found ++ ((surveyFinding how).map fun k => (a, k)).toList
    if a < 60 then s.onUnit l fun u => { u with survey := some { v with next := a + 1, found := found } }
    else
      let s := s.onUnit l fun u =>
        let u := { u with survey := none, continuityAsked := u.continuityAsked || v.healHeld }
        if v.probeHeld then u.addProbes else u
      s.complete { result := .ok, body := found.flatMap fun e => [byteOf e.1, e.2] }

/-- The slot in progress on a line ends (R116). -/
def State.endSlot (s : State) (l : Line) (x : Slot) (how : SlotEnd) : State :=
  let s := s.onUnit l fun u => { u with slot := none }
  match x.carries with
  | .call c => s.endCall l c how
  | .survey a => s.endSurveySlot l a how
  | .continuity | .groupLamp _ => s

/-- What is heard in an answer window: the first copy that arrives whole and correct is taken, and with none the slot is
GARBLED (R116, R126). R126 says so of INTACT; the same is done in SPLIT (DESIGN CHOICE, log entry 37). -/
def firstSound {α : Type} (decode : List Character → Option α) (heard : List Heard) : Option (LineEnd × α) :=
  heard.findSome? fun h => (decode h.chars).map fun f => (h.side, f)

/-- The slot of a line whose answer window is open. -/
def State.awaiting (s : State) (l : Line) : Option Slot := (s.unit l).slot.filter fun x => x.window.isSome

/-- An answer that begins as an Answer has been heard to its end (R116). -/
def State.answerHeard (s : State) (l : Line) (heard : List Heard) : State :=
  match s.awaiting l with
  | none => s
  | some x =>
    match firstSound decodeAnswer heard with
    | some (side, f) => s.endSlot l x (.answer side f)
    | none => if heard.isEmpty then s else s.endSlot l x .garbled

/-- An answer that begins as a Snapshot Answer has been heard to its end (R116). -/
def State.snapshotHeard (s : State) (l : Line) (heard : List Heard) : State :=
  match s.awaiting l with
  | none => s
  | some x =>
    match firstSound decodeSnapshot heard with
    | some (side, f) => s.endSlot l x (.snapshot side f)
    | none => if heard.isEmpty then s else s.endSlot l x .garbled

/-- Whether the record a slot was begun for has been removed or given another kind. -/
def SlotUse.isVoided : SlotUse → Bool
  | .call c => c.voided
  | _ => false

/-- No answer began within 3 ms: in SPLIT the content is sent again on the other end where that is still to be tried, and
otherwise the slot is silent (R116, R127). -/
def State.windowExpiry (s : State) (l : Line) : State :=
  match s.awaiting l with
  | none => s
  | some x =>
    match x.otherSide with
    | some e =>
      if (s.unit l).state = .split ∧ ¬ x.carries.isVoided then
        s.onUnit l fun u => { u with
          slot := some { x with side := e, otherSide := none, window := none, sending := x.content } }
      else s.endSlot l x .silent
    | none => s.endSlot l x .silent

/-! ## Line states -/

/-- The line unit stops driving: the frame being sent is cut off, the slot is abandoned with no miss, and the heal, probe
and listen timers are stopped (R128, step 1). -/
def LineUnit.stop (u : LineUnit) : LineUnit :=
  { u with slot := none, healTimer := none, probeTimer := none, listen := none, continuityAsked := false }

/-- Every station of the line with key records is treated as MISSING, and every PENDING code on the line becomes OFFLINE
(R128, steps 3 and 4). The stations are taken in rising address (DESIGN CHOICE, log entry 36). -/
def State.loseLine (s : State) (l : Line) : State :=
  let s := (Table.ids (s.unit l).stations).foldl (fun s a => s.gestureMissing l a) s
  s.offlineWhere fun m => m.line == l

/-- The line enters SPLIT (R126). A station call in progress runs on under the rules of SPLIT. -/
def State.enterSplit (s : State) (l : Line) : State :=
  let s := s.onUnit l fun u =>
    { u with
      state := .split, continuity := 0, healTimer := some 2000, takenOver := true,
      stations := Table.mapAll u.stations fun _ st => { st with reach := none },
      slot := u.slot.map fun x =>
        match x.carries with
        | .call _ | .survey _ => { x with otherSide := some (otherEnd x.side) }
        | _ => x }
  s.raise .lines

/-- A SPLIT line heals (R127). -/
def State.heal (s : State) (l : Line) : State :=
  let s := s.onUnit l fun u =>
    { u with
      state := .intact, preferredInUse := u.preferred, active := u.preferred, healTimer := none, continuity := 0,
      stations := Table.mapAll u.stations fun _ st => { st with reach := none } }
  s.raise .lines

/-- A line is brought into INTACT: a restart listen that expires quietly, or LineControl ON (R129, R130). -/
def State.bringIntact (s : State) (l : Line) : State :=
  let s := s.onUnit l fun u =>
    { u with
      state := .intact, preferredInUse := u.preferred, active := u.preferred, continuity := 0, listen := none,
      probeTimer := some 1000,
      stations := Table.mapAll u.stations fun _ st =>
        let st := { st with missCount := 0, reach := none }
        if st.state = .online then { st.forgetLamps with snapshotNeeded := true } else st }
  let online := Table.idsWhere (s.unit l).stations fun st => st.state == .online
  let s := online.foldl (fun s a => s.gestureReturn l a) s
  s.raise .lines

/-- A foreign marked character is heard (R128, R129). -/
def State.foreignHeard (s : State) (l : Line) : State :=
  let u := s.unit l
  match u.listen, u.state with
  | some _, .contested => (s.onUnit l .stop).complete { result := .lineBusy }
  | some _, .off => s
  | some _, _ =>
    ((s.onUnit l fun u => { u.stop with state := .contested }).raise .lines).complete { result := .lineBusy }
  | none, .off | none, .contested => s
  | none, .intact | none, .split =>
    let s := s.onUnit l fun u => { u.stop with state := .contested, survey := none }
    let s := if u.survey.isSome then s.complete { result := .lineBusy } else s
    (s.loseLine l).raise .lines

/-- A marked character of the part's own frame has gone out, and the far end has heard it or not (R126, R127). -/
def State.markedSent (s : State) (l : Line) (echo : Bool) : State :=
  let u := s.unit l
  match u.slot with
  | none => s
  | some x =>
    if x.sending.isEmpty then s
    else
      match u.state with
      | .intact =>
        if echo then s.onUnit l fun u => { u with continuity := 0 }
        else if 3 ≤ u.continuity + 1 then s.enterSplit l
        else s.onUnit l fun u => { u with continuity := u.continuity + 1 }
      | .split =>
        if x.carries ≠ .continuity then s
        else if !echo then s.onUnit l fun u => { u with continuity := 0 }
        else if 3 ≤ u.continuity + 1 then s.heal l
        else s.onUnit l fun u => { u with continuity := u.continuity + 1 }
      | .off | .contested => s

/-- The last character of a frame has gone out. The next frame of the slot follows at once; after a call the 3 ms window
opens; a Continuity or Group Lamp slot ends, the latter after both ends in SPLIT, and its group leaves the waiting set
(R116, R127, R133, R135). -/
def State.frameSent (s : State) (l : Line) : State :=
  match (s.unit l).slot with
  | none => s
  | some x =>
    match x.sending with
    | [] => s
    | _ :: f :: rest => s.onUnit l fun u => { u with slot := some { x with sending := f :: rest } }
    | [_] =>
      match x.carries, x.otherSide with
      | .continuity, _ => s.onUnit l fun u => { u with slot := none }
      | .groupLamp _, some e =>
        s.onUnit l fun u => { u with slot := some { x with side := e, otherSide := none, sending := x.content } }
      | .groupLamp g, none => s.onUnit l fun u => { u with slot := none, waiting := u.waiting.filter (· != g) }
      | .call _, _ | .survey _, _ => s.onUnit l fun u => { u with slot := some { x with sending := [], window := some 3 } }

/-! ## The start of a slot -/

/-- The end a frame to many stations is driven on first, and the end it follows on in SPLIT (R126, R127). -/
def LineUnit.broadcastSides (u : LineUnit) : LineEnd × Option LineEnd :=
  if u.state = .split then (u.preferredInUse, some (otherEnd u.preferredInUse)) else (u.active, none)

/-- The end a station call is driven on, and the end still to be tried where its reach is UNKNOWN in SPLIT (R126, R127). -/
def LineUnit.callSides (u : LineUnit) (reach : Option LineEnd) : LineEnd × Option LineEnd :=
  if u.state = .split then
    match reach with
    | some e => (e, none)
    | none => (u.preferredInUse, some (otherEnd u.preferredInUse))
  else (u.active, none)

/-- A slot begins. -/
def State.beginSlot (s : State) (l : Line) (carries : SlotUse) (content : List (List Byte))
    (sides : LineEnd × Option LineEnd) : State :=
  let slot : Slot :=
    { carries := carries, content := content, side := sides.1, sending := content, otherSide := sides.2, window := none }
  s.onUnit l fun u => { u with slot := some slot }

/-- The station the next polled call goes to: the lowest of the polled set at or above the next polled address, or the
lowest of the set (R120). -/
def LineUnit.nextPoll (u : LineUnit) : Option Nat :=
  let polled := Table.idsWhere u.stations fun st => st.state.polled
  (polled.find? fun a => u.nextPolled ≤ a).or polled.head?

/-- The station the next probe call goes to: the first of the probe list (R120). -/
def LineUnit.nextProbe (u : LineUnit) : Option Nat :=
  u.probeList.find? fun a => (Table.at? u.stations a).any fun st => st.state.probed

/-- A station call's slot begins: the desired lamps are derived, and the frame follows from the record (R120, R134,
R135). -/
def State.beginCall (s : State) (l : Line) (a : Nat) (fromProbeList : Bool) : State :=
  let s := s.deriveLamps l a
  match s.station? l a with
  | none => s
  | some st =>
    let sides := (s.unit l).callSides st.reach
    let call (frame : CallFrame) (lamps : Option (List (Nat × LampState))) (query : Option Nat) : SlotUse :=
      .call ⟨a, frame, lamps, query, fromProbeList, false⟩
    let configure := configureFrame a st.setup (s.groupSet ⟨l, a⟩)
    match st.state with
    | .joining => s.beginSlot l (call .configure none none) [configure] sides
    | .online =>
      if st.configurePending then s.beginSlot l (call .configure none none) [configure] sides
      else if st.snapshotNeeded then s.beginSlot l (call .snapshotCall none none) [snapshotCallFrame a] sides
      else
        let query := s.owedQuery ⟨l, a⟩
        if st.lamps.any Lamp.differs then
          let sent := st.lamps.map fun p => (p.key, p.desired)
          s.beginSlot l (call .call (some sent) query) [lampFrame a sent, callFrame a st.accepted true query] sides
        else s.beginSlot l (call .call none query) [callFrame a st.accepted false query] sides
    | .expected | .missing | .mismatch =>
      s.beginSlot l (call .call none none) [callFrame a st.accepted false none] sides

/-- The station call of a slot, by turn between the polled set and the probe list (R120). -/
def State.beginStationCall (s : State) (l : Line) : State :=
  let u := s.unit l
  let poll (a : Nat) : State :=
    (s.onUnit l fun u => { u with turn := .probe, nextPolled := if a < 60 then a + 1 else 1 }).beginCall l a false
  let probe (a : Nat) : State := (s.onUnit l fun u => { u with turn := .polled }).beginCall l a true
  match u.nextPoll, u.nextProbe with
  | some a, none => poll a
  | none, some a => probe a
  | some a, some b => if u.turn = .polled then poll a else probe b
  | none, none => s

/-- A line unit chooses and sends the content of its next slot; nothing where a slot is in progress, the line is silent, or
nothing waits (R120, R131). A Survey's slot is not one given to the station, so no lamps are derived at its start (R134;
DESIGN CHOICE, log entry 38). -/
def State.startSlot (s : State) (l : Line) : State :=
  let u := s.unit l
  if u.slot.isSome || u.listen.isSome || !(u.state == .intact || u.state == .split) then s
  else
    match u.survey with
    | some v =>
      let accepted := ((s.station? l v.next).map (·.accepted)).getD 0
      s.beginSlot l (.survey v.next) [callFrame v.next accepted false none] (u.callSides none)
    | none =>
      if u.continuityAsked then
        (s.onUnit l fun u => { u with continuityAsked := false }).beginSlot l .continuity [continuityFrame]
          (u.broadcastSides.1, none)
      else
        match u.waiting.head? with
        | some g =>
          let frame := ((Table.at? s.groups g).map fun x => groupLampFrame g x.banner x.lastNumber).getD []
          s.beginSlot l (.groupLamp g) [frame] u.broadcastSides
        | none => s.beginStationCall l

/-! ## Timers of a line -/

/-- The probe timer expires; during a Survey the expiry is held (R120, R131). -/
def State.probeExpiry (s : State) (l : Line) : State :=
  if (s.unit l).probeTimer.isNone then s
  else s.onUnit l fun u =>
    let u := { u with probeTimer := some 1000 }
    match u.survey with
    | some v => { u with survey := some { v with probeHeld := true } }
    | none => u.addProbes

/-- The heal timer expires: a Continuity is asked for; during a Survey the expiry is held (R127, R131). -/
def State.healExpiry (s : State) (l : Line) : State :=
  if (s.unit l).healTimer.isNone then s
  else s.onUnit l fun u =>
    let u := { u with healTimer := some 2000 }
    match u.survey with
    | some v => { u with survey := some { v with healHeld := true } }
    | none => { u with continuityAsked := true }

/-- A restart listen expires quietly (R129). -/
def State.listenExpiry (s : State) (l : Line) : State :=
  if (s.unit l).listen.isNone then s else (s.bringIntact l).complete { result := .ok }

end Sys2Proof.Machine
end

