-- ==== Sys2Proof/Machine/Racks.lean ====
section
/-! DEFINITION. The Rack Link Controller (chapter 9): the Level frame, rounds and slots, replies and rack states. -/

namespace Sys2Proof.Machine

/-! ## The Level frame -/

/-- The circuit a rack channel feeds, and as which of its feeds (R2, R151). -/
def State.feedAt (s : State) (ch : RackChannel) : Option (Nat × Circuit × Feed) :=
  s.circuits.findSome? fun e =>
    if e.2.config.house = ch then some (e.1, e.2, .house)
    else if e.2.config.stage = some ch then some (e.1, e.2, .stage)
    else none

/-- The level sent on a channel (R151). -/
def State.levelAt (s : State) (ch : RackChannel) : Nat :=
  match s.feedAt ch with
  | none => 0
  | some (_, c, f) =>
    if c.transition.phase = .block then 0 else if c.transition.feed = f then c.transition.output else 0

/-- The transfer flag of a channel (R152). -/
def State.transferFlagAt (s : State) (ch : RackChannel) : Bool :=
  match s.feedAt ch with
  | some (_, c, .stage) => c.config.kind == .transfer && c.transition.relay == some .stage
  | _ => false

/-- The Level frame of a rack, from the values the circuits hold now (R151, R152). -/
def State.buildFrame (s : State) (rack : Nat) : LevelFrame :=
  { levels := (identifiers 32).map fun c => s.levelAt ⟨rack, c⟩
    flags := BitVec.ofNat 32 (bitsOf ((List.range 32).filter fun i => s.transferFlagAt ⟨rack, i + 1⟩)) }

/-! ## Rounds -/

/-- Whether a rack is configured: every state but ABSENT (R148). -/
def Rack.configured (r : Rack) : Bool := r.state != .absent

/-- Whether the rack of an identifier is configured. -/
def State.rackConfigured (s : State) (rack : Nat) : Bool := (Table.at? s.racks rack).any Rack.configured

/-- The lowest configured rack above an identifier (R150). -/
def State.rackAbove (s : State) (rack : Nat) : Option Nat :=
  (Table.idsWhere s.racks Rack.configured).find? fun r => decide (rack < r)

/-- The slot of a rack begins with the building of its frame; with no rack to serve, no slot is in progress (R150). -/
def State.serveRack (s : State) (rack : Option Nat) : State :=
  s.withRackSlot (rack.map fun r => { rack := r, frame := s.buildFrame r, window := none, voided := false })

/-- A round begins: the round timer is restarted and the lowest configured rack is served. A round with no configured
rack ends as soon as it begins (R150). -/
def State.beginRound (s : State) : State := (s.serveRack (s.rackAbove 0)).withRoundTimer (some 40)

/-- The slot of a rack ends: the round goes on to the next rack, or ends, and where the round timer has expired meanwhile
the next round begins at once (R150). -/
def State.endRackSlot (s : State) (rack : Nat) : State :=
  match s.rackAbove rack with
  | some r => s.serveRack (some r)
  | none => if s.roundTimer.isNone then s.beginRound else s.serveRack none

/-- The round timer expires: a round begins, unless one is in progress, at whose end the next then begins (R150). -/
def State.roundExpiry (s : State) : State :=
  if s.roundTimer.isNone then s
  else if s.rackSlot.isSome then s.withRoundTimer none
  else s.beginRound

/-- The last character of a Level frame has gone out: its content becomes the rack's last frame, and the 10 ms reply window
opens (R150). An unconfigured rack keeps a last frame of none (R148, R149). -/
def State.levelFrameSent (s : State) : State :=
  match s.rackSlot with
  | some x =>
    match x.window with
    | none =>
      let s := s.onRack x.rack fun r => if r.configured then { r with last := some x.frame } else r
      s.withRackSlot (some { x with window := some 10 })
    | some _ => s
  | none => s

/-! ## Replies -/

/-- The slot whose reply window is open. -/
def State.listening (s : State) : Option RackSlot := s.rackSlot.filter fun x => x.window.isSome

/-- Whether a slot still serves the record it was begun for (R149). -/
def State.slotServes (s : State) (x : RackSlot) : Bool := !x.voided && s.rackConfigured x.rack

/-- A reply is taken: status, fault set, miss count and state in the order of R153, and the report of an entry into ONLINE
(R153, R154). -/
def State.takeReply (s : State) (rack : Nat) (f : RackReplyFrame) : State :=
  match Table.at? s.racks rack with
  | none => s
  | some r =>
    let s := s.onRack rack fun r =>
      { r with status := some f.status, faults := f.faults, missCount := 0, state := .online }
    let s := if r.status = some f.status then s else s.raise .racks
    let s := if r.faults = f.faults then s else s.raise .faults
    if r.state = .online then s else (s.raise .racks).reportRackOnline rack

/-- A reply is heard whole. One that fails a test of R153 is discarded, and the window runs on. -/
def State.replyHeard (s : State) (chars : List Character) : State :=
  match s.listening, decodeReply chars with
  | some x, some f =>
    if s.slotServes x ∧ f.rack = x.rack then (s.takeReply x.rack f).endRackSlot x.rack else s
  | _, _ => s

/-- A missing reply (R154, R155). -/
def State.missReply (s : State) (rack : Nat) : State :=
  match Table.at? s.racks rack with
  | none => s
  | some r =>
    if r.state = .online then
      if 3 ≤ r.missCount + 1 then
        (s.onRack rack fun r => { r with state := .lost, missCount := 3 }).raise .racks
      else s.onRack rack fun r => { r with missCount := r.missCount + 1 }
    else s

/-- The reply window ends with no reply taken (R153, R154). -/
def State.replyWindowExpiry (s : State) : State :=
  match s.listening with
  | none => s
  | some x => ((if s.slotServes x then s.missReply x.rack else s)).endRackSlot x.rack

/-! ## Configuration -/

/-- A rack is configured (R149). -/
def State.configureRack (s : State) (rack : Nat) : State :=
  (s.onRack rack fun _ => { Rack.blank with state := .waiting }).raise .racks

/-- A rack is unconfigured: its slot in progress, if any, is served no more (R149). -/
def State.unconfigureRack (s : State) (rack : Nat) : State :=
  let faulted := (Table.at? s.racks rack).any fun r => r.faults != 0
  let s := s.onRack rack fun _ => .blank
  let voidSlot (x : RackSlot) : RackSlot := if x.rack = rack then { x with voided := true } else x
  let s := s.withRackSlot (s.rackSlot.map voidSlot)
  let s := if faulted then s.raise .faults else s
  s.raise .racks

end Sys2Proof.Machine
end

