-- ==== Sys2Proof/Machine/ImageStore.lean ====
section
/-! DEFINITION. The Image Store, the resets and start-up (chapter 11). -/

namespace Sys2Proof.Machine

/-! ## Saving -/

/-- What the image stores of a line unit (R170). -/
def LineUnit.image (u : LineUnit) : LineImage :=
  { preferred := u.preferred, on := u.state != .off, stations := Table.mapAll u.stations fun _ st => st.setup }

/-- The copy a save takes of every item of R170 (R171). -/
def State.copyImage (s : State) : Image :=
  { circuits := Table.mapAll s.circuits fun _ c => c.config
    zones := s.zones
    bindings := Table.mapAll s.bindings fun _ b => b.record
    scenes := Table.mapAll s.scenes fun _ n => n.definition
    groups := Table.mapAll s.groups fun _ g => g.members
    racks := Table.idsWhere s.racks Rack.configured
    protectSize := s.protectSize
    houseLock := s.houseLock
    settings := s.settings
    lineA := s.lineA.image
    lineB := s.lineB.image }

/-- A save begins: the copy is taken and the marker becomes INVALID (R171). -/
def State.beginSave (s : State) : State := { s with saving := some s.copyImage, image := none }

/-- A save completes: the copy is the image, the marker is VALID and IMAGE is raised (R171). -/
def State.completeSave (s : State) : State :=
  match s.saving with
  | none => s
  | some copy => ({ s with image := some copy, saving := none } : State).raise .image

/-- Whether the Image Store is saving (R171). -/
def State.isSaving (s : State) : Bool := s.saving.isSome

/-! ## Resets -/

/-- A reset begins: the host link holds its reset values, nothing is sent on the lines or the rack link, and a save ends
with the marker INVALID (R159, R172, R173). -/
def State.beginReset (s : State) (cause : ResetCause) : State :=
  { s with
    power := .inReset cause, hostSlot := .idle, collision := false, notices := .empty, saving := none, rackSlot := none,
    lineA := { s.lineA with slot := none }, lineB := { s.lineB with slot := none } }

/-- A pin reset begins. One that falls in a power reset leaves its cause POWER (R173). -/
def State.beginPinReset (s : State) : State :=
  match s.power with
  | .inReset .power => s
  | _ => s.beginReset .pin

/-! ## Start-up -/

/-- A circuit as start-up sets it before its resolution (R1, R24). -/
def Circuit.atStart (required : Feed) (c : CircuitConfig) : Circuit :=
  { config := c, claims := [], resolved := { winning := none, raw := c.rest, target := c.rest, hostDisplaced := false },
    transition := .fresh c.kind required }

/-- A station record right after reset or creation (R117). -/
def Station.fresh (setup : StationSetup) : Station :=
  { setup := setup, state := .expected, reach := none, missCount := 0, accepted := 0, snapshotNeeded := false,
    configurePending := false, lamps := setup.kind.lamps, keys := [] }

/-- A line unit as start-up sets it (R125, R174). -/
def LineImage.start (l : LineImage) : LineUnit :=
  .fresh l.preferred l.on (Table.mapAll l.stations fun _ setup => .fresh setup)

/-- The groups as start-up sets them, each of the 15 with its stored members (R132). -/
def Image.startGroups (i : Image) : Table Group :=
  (identifiers 15).map fun g => (g, .fresh ((Table.at? i.groups g).getD []))

/-- The racks as start-up sets them (R148). -/
def Image.startRacks (i : Image) : Table Rack :=
  (identifiers 8).map fun r => (r, { Rack.blank with state := if i.racks.contains r then .waiting else .absent })

/-- Steps 1 to 5 and 7 of start-up from an image, before the circuits are resolved: what is not named here is kept, namely
the input pins, the image and its marker (R174). -/
def State.load (s : State) (cause : ResetCause) (i : Image) : State :=
  let required := i.settings.startMode.requires
  { power := .running, panicInput := s.panicInput, installInput := s.installInput, sdo := s.sdo, hostSlot := .idle,
    collision := false, notices := { NoticeSet.empty with image := s.image.isNone }, image := s.image, saving := none,
    resetCause := cause, settings := i.settings, mode := i.settings.startMode, latch := false, panicFiltered := false,
    panicTimer := if s.panicInput then some 50 else none,
    circuits := Table.mapAll i.circuits fun _ c => .atStart required c,
    zones := i.zones, requiredFeed := required, latchCopy := false, stepTimer := some 20,
    bindings := Table.mapAll i.bindings fun _ r => .fresh r, protectSize := i.protectSize, houseLock := i.houseLock,
    offered := none, repeats := [], scenes := Table.mapAll i.scenes fun _ d => .define d, lineA := i.lineA.start,
    lineB := i.lineB.start, groups := i.startGroups, racks := i.startRacks, roundTimer := some 40, rackSlot := none,
    freeUses := s.freeUses, pending := s.pending }

/-- Every configured circuit is resolved in ascending identifier with a fade (R174, step 6). -/
def State.resolveAll (s : State) (tenths : Nat) : State :=
  s.withCircuits (Table.mapAll s.circuits fun _ c => c.resolve (s.masterOf c.config) tenths)

/-- Start-up (R174, R175): the image or the values of an invalid one are loaded, the circuits are resolved with the start
fade, and the first round begins. -/
def State.startUp (s : State) (cause : ResetCause) : State :=
  let i := s.image.getD .blank
  ((s.load cause i).resolveAll i.settings.startFade).beginRound

/-- The request reset: the reset and its start-up follow at once (R167, R173). -/
def State.restart (s : State) : State := (s.beginReset .request).startUp .request

end Sys2Proof.Machine
end

