-- ==== Sys2Proof/Machine/Requests.lean ====
section
/-! DEFINITION. What the owner of each request does when it is taken: its checks in the order of its rule and its effects.
A body the rule does not judge itself is judged first, by the Host Link, for its fixed length and its encodings (R161,
R176). -/

namespace Sys2Proof.Machine

/-! ## Checks -/

/-- The checks of a request in the order listed: the first that fails decides the answer (R161). -/
def State.inOrder (s : State) (checks : List (Bool × Result)) (taken : Work) : Work :=
  match checks.find? (·.1) with
  | some c => .refuse c.2 s
  | none => taken

/-- A request whose rule judges the body: BUSY_SAVING first where it changes stored content, then BAD_REQUEST for a
malformed body and OUT_OF_RANGE for a value outside its range. -/
def State.parsed {α : Type} (s : State) (p : Parsed α) (taken : α → Work) : Work :=
  if s.isSaving then .refuse .busySaving s
  else
    match p with
    | .malformed => .refuse .badRequest s
    | .outOfRange => .refuse .outOfRange s
    | .ok v => taken v

/-- The refusals of a change to a binding for want of the lock or of installer access (R50, check 4). -/
def State.houseRefusals (s : State) (b : Nat) : List (Bool × Result) :=
  [(s.inHouse b && s.houseLock, .locked), (s.inHouse b && !s.installInput, .notInstaller)]

/-! ## Circuits, host levels and zones -/

/-- The circuits other than one that use a channel as a feed (R2, check 5). -/
def State.feedTaken (s : State) (id : Nat) (ch : RackChannel) : Bool :=
  s.circuits.any fun e => e.1 != id && (e.2.config.house == ch || e.2.config.stage == some ch)

/-- Whether any binding in use names an area as its target (R4, R18, R64). -/
def State.areaNamed (s : State) (a : Area) : Bool := s.bindings.any fun e => e.2.record.action.area? == some a

/-- What a change of configuration does to the Transition Unit's fields before the handover: a circuit that is not
TRANSFER before and after has its house feed and a relay flag as its new kind gives it (R3, R41). -/
def Transition.reconfigured (old new : CircuitConfig) (t : Transition) : Transition :=
  if new.kind = .transfer then
    if old.kind = .transfer then t else { t with feed := .house, relay := some .house, pendingTransfer := none }
  else { t with feed := .house, relay := none, pendingTransfer := none }

/-- What a change of configuration does after the handover: a circuit that has become TRANSFER has its need judged, and a
pending transfer begins where its conditions now hold (R31, R41). -/
def State.afterConfigure (s : State) (id : Nat) (becameTransfer : Bool) : State :=
  if becameTransfer then
    s.onTransition id fun c t =>
      if c.kind = .transfer ∧ s.requiredFeed ≠ t.feed ∧ t.phase.mayTransfer then
        t.need c (s.transferReady c s.requiredFeed) s.requiredFeed
      else t
  else s.onCircuit id (Circuit.beginPending s.transferReady)

/-- ConfigureCircuit taken for a circuit that was not configured (R3, R146). -/
def State.newCircuit (s : State) (id : Nat) (c : CircuitConfig) : State :=
  let s := s.withCircuits (Table.put s.circuits id (.atStart .house c))
  let s := s.resolve id 0
  let s := if c.egress && s.latch then (s.place id egressClaim).1 else s
  if c.kind = .transfer then s.afterConfigure id true else s

/-- ConfigureCircuit taken for a configured circuit, in the order of R3 (R3, R41, R146). In UPSLOPE the handover restarts the
upslope under R37 with the upslope time of the new configuration, which is stored first; R41 leaves a running phase its N,
and the two rules do not say which time the restart takes (DESIGN CHOICE, log entry 32). -/
def State.changeCircuit (s : State) (id : Nat) (old new : CircuitConfig) : State :=
  let s := s.onCircuit id fun x =>
    ({ x with config := new, transition := x.transition.reconfigured x.config new } : Circuit).redorm s.mode
  let s :=
    if s.latch && new.egress && !old.egress then (s.place id egressClaim).1
    else if s.latch && old.egress && !new.egress then s.remove false .egress id
    else s
  let s := s.resolve id 0
  if new.kind = .transfer then s.afterConfigure id (old.kind != .transfer) else s

/-- ConfigureCircuit (R2, R3). -/
def configureCircuit (body : List Byte) (s : State) : Work :=
  s.parsed (decodeCircuit body) fun (id, c) =>
    let present := Table.at? s.circuits id
    s.inOrder
      [(c.zone.any fun z => (Table.at? s.zones z).isNone, .noSuch),
        (c.stage == some c.house || s.feedTaken id c.house || c.stage.any (s.feedTaken id), .duplicate),
        (present.any fun x => x.transition.phase.inTransfer &&
          (x.config.kind != c.kind || x.config.house != c.house || x.config.stage != c.stage), .notNow)]
      (.done (match present with
        | none => s.newCircuit id c
        | some x => s.changeCircuit id x.config c))

/-- An UnconfigureCircuit that is taken: the circuit's record goes, and the owner of each of its contributions is told,
oldest first (R4). -/
def State.dropCircuit (s : State) (id : Nat) : State :=
  let origins := ((Table.at? s.circuits id).map fun x => x.claims.map (·.origin)).getD []
  origins.foldl (fun s o => s.departed true o) (s.withCircuits (Table.remove s.circuits id))

/-- UnconfigureCircuit (R4). -/
def unconfigureCircuit (body : List Byte) (s : State) : Work :=
  match body with
  | [h, l] =>
    let id := be16 h l
    let present := Table.at? s.circuits id
    s.inOrder
      [(s.isSaving, .busySaving), (!within 1 256 id, .outOfRange), (present.isNone, .noSuch),
        (s.areaNamed (.circuit id) || s.scenes.any fun e => e.2.definition.entries.any fun x => x.1 == id, .inUse),
        (present.any fun x => x.transition.phase.inTransfer, .notNow)]
      (.done (s.dropCircuit id))
  | _ => .refuse .badRequest s

/-- One contribution as ReadCircuit sends it (R23). -/
def Contribution.bytes (k : Contribution) : List Byte :=
  k.origin.bytes ++ [byteOf k.tier] ++ bytes16 k.level ++ bytes16 k.arrival ++ bytes16 k.release ++
    recallerBytes k.recaller ++ heldByBytes k.heldBy ++ [flagByte k.dormant]

/-- Whether a phase has a step count and a step total (R24, R42). -/
def CircuitPhase.counts : CircuitPhase → Bool
  | .fading | .downslope | .upslope => true
  | .steady | .block => false

/-- The Transition Unit's fields as ReadCircuit sends them (R42). -/
def Transition.bytes (t : Transition) : List Byte :=
  bytes16 t.level ++ [t.phase.code] ++
    bytes16 (if t.phase.counts then t.stepCount else (Config.absentField .stepCount).toNat) ++
    bytes16 (if t.phase.counts then t.stepTotal else (Config.absentField .stepTotal).toNat) ++
    bytes16 (t.blockTimer.getD (Config.absentField .blockMilliseconds).toNat) ++
    [t.feed.code, orAbsent (t.pendingTransfer.map Feed.code), orAbsent (t.relay.map Feed.code), flagByte t.egressFlag] ++
    bytes16 t.output

/-- The resolved record as ReadCircuit sends it (R23). -/
def Resolved.bytes (r : Resolved) : List Byte :=
  [orAbsent (r.winning.map byteOf)] ++ bytes16 r.raw ++ bytes16 r.target ++ [flagByte r.hostDisplaced]

/-- The body of a ReadCircuit answer (R23, R42, R156). -/
def State.circuitBody (s : State) (c : Circuit) : List Byte :=
  let house := s.feedFaulted c.config .house
  let stage := s.feedFaulted c.config .stage
  [flagByte true] ++ c.config.bytes ++ c.claims.flatMap Contribution.bytes ++ c.resolved.bytes ++ c.transition.bytes ++
    [flagByte (s.undriven c), flagByte (house || stage), flagByte house, flagByte stage]

/-- ReadCircuit (R23). -/
def readCircuit (body : List Byte) (s : State) : Work :=
  match body with
  | [h, l] =>
    let id := be16 h l
    if !within 1 256 id then .refuse .outOfRange s
    else
      match Table.at? s.circuits id with
      | none => .refuse .noSuch s
      | some c => .read (s.circuitBody c) s
  | _ => .refuse .badRequest s

/-- The contribution a SetHostLevel places (R16). -/
def hostClaim (tier level fade : Nat) : Contribution :=
  { origin := .host, tier := tier, level := level, arrival := fade, release := fade, recaller := none, heldBy := none,
    dormant := false }

/-- The host-displaced flag of a circuit is cleared (R16, R17). -/
def State.clearHostDisplaced (s : State) (id : Nat) : State :=
  s.onCircuit id fun x => { x with resolved := { x.resolved with hostDisplaced := false } }

/-- A SetHostLevel whose identifier, tier and circuit are good (R16). -/
def State.placeHost (s : State) (id tier level fade : Nat) : Work :=
  let clamped := decide (1000 < level) || decide (6000 < fade)
  match s.place id (hostClaim tier (min 1000 level) (min 6000 fade)) with
  | (s, .refused) => .answered { result := .full, clamped := clamped } s
  | (s, _) => .answered { result := .ok, clamped := clamped } (s.clearHostDisplaced id)

/-- SetHostLevel (R16). -/
def setHostLevel (body : List Byte) (s : State) : Work :=
  match body with
  | [ih, il, tier, lh, ll, fh, fl] =>
    let id := be16 ih il
    s.inOrder
      [(!within 1 256 id || !within 0 2 tier.toNat, .outOfRange), ((Table.at? s.circuits id).isNone, .noSuch)]
      (s.placeHost id tier.toNat (be16 lh ll) (be16 fh fl))
  | _ => .refuse .badRequest s

/-- ReleaseHostLevel (R17). -/
def releaseHostLevel (body : List Byte) (s : State) : Work :=
  match body with
  | [h, l] =>
    let id := be16 h l
    if !within 1 256 id then .refuse .outOfRange s
    else
      match Table.at? s.circuits id with
      | none => .refuse .noSuch s
      | some c =>
        if c.claims.any fun k => k.origin == .host then .done ((s.remove false .host id).clearHostDisplaced id)
        else .refuse .noSuch (s.clearHostDisplaced id)
  | _ => .refuse .badRequest s

/-- A ConfigureZone that passed its checks of form and range. Set to yes, the zone has the fade given and the master of its
record: 1000 where it was not configured. Set to no, its record is that of an unconfigured zone again (R18). -/
def State.configureZone (s : State) (id : Nat) (configured : Bool) (fade : Nat) : Work :=
  if configured then
    .done (s.withZones (Table.put s.zones id { s.zoneRecord id with masterFade := fade }))
  else
    s.inOrder
      [(!(s.members id).isEmpty || s.areaNamed (.zone id), .inUse), ((Table.at? s.zones id).isNone, .noSuch)]
      (.done (s.withZones (Table.remove s.zones id)))

/-- The ConfigureZone body (R18). -/
def decodeZone (body : List Byte) : Parsed (Nat × Bool × Nat) :=
  match body with
  | [id, configured, fh, fl] =>
    match flagOfByte configured with
    | none => .malformed
    | some configured =>
      if within 1 32 id.toNat && within 0 100 (be16 fh fl) then .ok (id.toNat, configured, be16 fh fl) else .outOfRange
  | _ => .malformed

/-- ConfigureZone (R18). -/
def configureZone (body : List Byte) (s : State) : Work :=
  s.parsed (decodeZone body) fun (id, configured, fade) => s.configureZone id configured fade

/-- SetMaster (R21). -/
def setMaster (body : List Byte) (s : State) : Work :=
  match body with
  | [id, lh, ll] =>
    let level := be16 lh ll
    s.inOrder [(!within 1 32 id.toNat, .outOfRange), ((Table.at? s.zones id.toNat).isNone, .noSuch)]
      (.answered { result := .ok, clamped := decide (1000 < level) }
        (s.masterChange id.toNat (min 1000 level) (s.masterFade id.toNat) none))
  | _ => .refuse .badRequest s

/-- ReadZone (R23). -/
def readZone (body : List Byte) (s : State) : Work :=
  match body with
  | [id] =>
    if !within 1 32 id.toNat then .refuse .outOfRange s
    else
      match Table.at? s.zones id.toNat with
      | none => .refuse .noSuch s
      | some z => .read (bytes16 z.master ++ bytes16 z.masterFade ++ (s.members id.toNat).flatMap bytes16) s
  | _ => .refuse .badRequest s

/-! ## Bindings and the house partition -/

/-- WriteBinding (R50). -/
def writeBinding (body : List Byte) (s : State) : Work :=
  s.parsed (decodeBinding body) fun (id, r) =>
    let others := (s.bindings.filter fun e => e.1 != id).map fun e => e.2.record
    s.inOrder
      (s.houseRefusals id ++
        [(!s.targetExists r.action, .noSuch), (others.any r.agrees, .duplicate),
          (decide (Config.indexLimit ≤ (others.filter fun q => q.source == r.source && q.gesture == r.gesture).length),
            .full)])
      (.done (s.writeBinding id r))

/-- The body of a ReadBinding answer (R59, section 12.4); bits 7..2 of its first byte and 7..4 of the byte of marks are 0
(DESIGN CHOICE, log entry 40). -/
def State.bindingBody (s : State) (id : Nat) (b : Binding) : List Byte :=
  let partition := flagByte (!s.inHouse id) <<< 1
  if s.inHouse id && s.houseLock then
    [partition ||| 1, flagByte b.record.suspended] ++ bytes16 id ++
      [lineCode b.record.source.line, byteOf b.record.source.address, byteOf b.record.source.input]
  else
    [partition, flagByte b.record.suspended] ++ encodeBinding id b.record ++ bytes16 (s.holds (.binding id)) ++
      [flagByte b.displacedMark ||| flagByte b.partialMark <<< 1 ||| flagByte b.notifyPending <<< 2 |||
        flagByte b.captured <<< 3]

/-- ReadBinding (R59). -/
def readBinding (body : List Byte) (s : State) : Work :=
  match body with
  | [h, l] =>
    let id := be16 h l
    if !within 1 1024 id then .refuse .outOfRange s
    else
      match Table.at? s.bindings id with
      | none => .refuse .noSuch s
      | some b => .read (s.bindingBody id b) s
  | _ => .refuse .badRequest s

/-- The refusals SuspendBinding, ResumeBinding and RetireBinding share, in their order (R54, R55, R56). -/
def State.lifecycleRefusals (s : State) (id : Nat) : List (Bool × Result) :=
  [(s.isSaving, .busySaving), (!within 1 1024 id, .outOfRange)] ++ s.houseRefusals id ++
    [((Table.at? s.bindings id).isNone, .noSuch)]

/-- Whether a binding in use is SUSPENDED. -/
def State.isSuspended (s : State) (id : Nat) : Bool := (Table.at? s.bindings id).any fun b => b.record.suspended

/-- RetireBinding (R56). -/
def retireBinding (body : List Byte) (s : State) : Work :=
  match body with
  | [h, l] => s.inOrder (s.lifecycleRefusals (be16 h l)) (.done (s.retire (be16 h l)))
  | _ => .refuse .badRequest s

/-- SuspendBinding (R54). -/
def suspendBinding (body : List Byte) (s : State) : Work :=
  match body with
  | [h, l] =>
    s.inOrder (s.lifecycleRefusals (be16 h l))
      (.done (if s.isSuspended (be16 h l) then s else s.suspend (be16 h l)))
  | _ => .refuse .badRequest s

/-- ResumeBinding (R55). -/
def resumeBinding (body : List Byte) (s : State) : Work :=
  match body with
  | [h, l] => s.inOrder (s.lifecycleRefusals (be16 h l)) (.done (s.resume (be16 h l)))
  | _ => .refuse .badRequest s

/-- A FireBinding with its id and, if it carries one, its position (R57). -/
def State.fireFromHost (s : State) (id : Nat) (position : Option Nat) : Work :=
  if !within 1 1024 id then .refuse .outOfRange s
  else if s.inHouse id && s.houseLock then .refuse .locked s
  else
    match Table.at? s.bindings id with
    | none => .refuse .noSuch s
    | some b =>
      s.inOrder [((b.record.gesture == .move) != position.isSome, .badRequest), (!s.mayAct b, .notNow)]
        (.answered { result := .ok, clamped := position.any fun p => decide (1000 < p) }
          (s.fire id b .host none (position.map (min 1000))))

/-- FireBinding (R57). -/
def fireBinding (body : List Byte) (s : State) : Work :=
  match body with
  | [h, l] => s.fireFromHost (be16 h l) none
  | [h, l, ph, pl] => s.fireFromHost (be16 h l) (some (be16 ph pl))
  | _ => .refuse .badRequest s

/-- ReadNotified (R58). -/
def readNotified (body : List Byte) (s : State) : Work :=
  match body with
  | [] =>
    let marked := Table.idsWhere s.bindings (·.notifyPending)
    let given := marked.take Config.notifiedLimit
    let s := given.foldl (fun s b => s.onBinding b fun x => { x with notifyPending := false }) s
    .read (given.flatMap bytes16 ++ bytes16 (marked.length - given.length)) s
  | _ => .refuse .badRequest s

/-- The SetProtectSize body (R60). -/
def decodeProtectSize (body : List Byte) : Parsed Nat :=
  match body with
  | [h, l] => if within 0 512 (be16 h l) && be16 h l % 64 == 0 then .ok (be16 h l) else .outOfRange
  | _ => .malformed

/-- SetProtectSize (R60). -/
def setProtectSize (body : List Byte) (s : State) : Work :=
  s.parsed (decodeProtectSize body) fun size =>
    s.inOrder [(s.houseLock, .locked), (!s.installInput, .notInstaller)] (.done { s with protectSize := size })

/-- LockHouse (R61). -/
def lockHouse (body : List Byte) (s : State) : Work :=
  match body with
  | [] =>
    s.inOrder [(s.isSaving, .busySaving), (!s.installInput, .notInstaller)]
      (.done (s.withHouseLock true).beginSave)
  | _ => .refuse .badRequest s

/-- Every binding of the house partition is retired in ascending id (R63). -/
def State.retireHouse (s : State) : State :=
  ((Table.ids s.bindings).filter s.inHouse).foldl (fun s b => s.retire b) s

/-- EraseHouse (R63). -/
def eraseHouse (body : List Byte) (s : State) : Work :=
  match body with
  | [] =>
    s.inOrder [(s.isSaving, .busySaving), (!s.installInput, .notInstaller)]
      (.done (s.retireHouse.withHouseLock false).beginSave)
  | _ => .refuse .badRequest s

/-! ## Scenes -/

/-- WriteScene (R86, R87, R93). -/
def writeScene (body : List Byte) (s : State) : Work :=
  s.parsed (decodeScene body) fun (n, d) =>
    let present := Table.at? s.scenes n
    let own := (present.map fun x => x.definition.entries.length).getD 0
    s.inOrder
      [(d.entries.any fun e => (Table.at? s.circuits e.1).isNone, .noSuch),
        (decide (Config.poolSize < s.poolInUse - own + d.entries.length), .full)]
      (.done (match present with
        | some x => if s.live n then s.rewriteLive n x d else s.withScenes (Table.put s.scenes n (.define d))
        | none => s.withScenes (Table.put s.scenes n (.define d))))

/-- The marks of a scene in one byte (section 12.5); bits 7..2 are 0 (DESIGN CHOICE, log entry 40). -/
def Scene.marks (x : Scene) : Byte := flagByte x.partialMark ||| flagByte x.displacedMark <<< 1

/-- ReadScene (R96, section 12.5). -/
def readScene (body : List Byte) (s : State) : Work :=
  match body with
  | [n] =>
    if !within 1 96 n.toNat then .refuse .outOfRange s
    else
      match Table.at? s.scenes n.toNat with
      | none => .refuse .noSuch s
      | some x =>
        .read (encodeScene n.toNat x.definition ++
          [byteOf (s.holds (.scene n.toNat)), orAbsent (x.liveTier.map byteOf)] ++ recallerBytes x.recaller ++
          [x.marks] ++ bytes16 s.poolInUse) s
  | _ => .refuse .badRequest s

/-- DeleteScene (R94). -/
def deleteScene (body : List Byte) (s : State) : Work :=
  match body with
  | [n] =>
    let n := n.toNat
    s.inOrder
      [(s.isSaving, .busySaving), (!within 1 96 n, .outOfRange), ((Table.at? s.scenes n).isNone, .noSuch),
        (s.bindings.any fun e => e.2.record.action.sceneTarget? == some n, .inUse)]
      (.done ((s.releaseScene n).withScenes (Table.remove (s.releaseScene n).scenes n)))
  | _ => .refuse .badRequest s

/-- The body of a RecallScene answer (R95). -/
def State.recallBody (s : State) (n : Nat) : List Byte :=
  match Table.at? s.scenes n with
  | none => []
  | some x =>
    [byteOf (s.holds (.scene n)), orAbsent (x.liveTier.map byteOf), flagByte x.partialMark, flagByte x.displacedMark]

/-- RecallScene (R95). -/
def recallScene (body : List Byte) (s : State) : Work :=
  match body with
  | [n, tier] =>
    s.inOrder
      [(!within 1 96 n.toNat || !within 0 2 tier.toNat, .outOfRange), ((Table.at? s.scenes n.toNat).isNone, .noSuch)]
      (let s := s.recall n.toNat tier.toNat .host; .read (s.recallBody n.toNat) s)
  | _ => .refuse .badRequest s

/-- ReleaseScene (R95). -/
def releaseScene (body : List Byte) (s : State) : Work :=
  match body with
  | [n] =>
    s.inOrder [(!within 1 96 n.toNat, .outOfRange), ((Table.at? s.scenes n.toNat).isNone, .noSuch)]
      (.done (s.releaseScene n.toNat))
  | _ => .refuse .badRequest s

end Sys2Proof.Machine
end

