-- ==== Sys2Proof/Machine/RequestsLines.lean ====
section
/-! DEFINITION. What the owners do for the requests on stations, groups, lines, modes, egress, racks, settings and the
image, and for the requests the Host Link itself owns. -/

namespace Sys2Proof.Machine

/-! ## Stations -/

/-- The station call in progress to an address is answered for a record that is no more (R118, R119). -/
def Slot.void (a : Nat) (x : Slot) : Slot :=
  match x.carries with
  | .call c => { x with carries := .call { c with voided := c.voided || c.address == a } }
  | _ => x

/-- The slot of a line is voided for an address (R118, R119). -/
def LineUnit.voidSlot (a : Nat) (u : LineUnit) : LineUnit := { u with slot := u.slot.map (Slot.void a) }

/-- A station record given another kind (R118). -/
def Station.rekind (setup : StationSetup) (st : Station) : Station :=
  { st with
    setup := setup, state := .expected, reach := none, missCount := 0, snapshotNeeded := false, configurePending := false,
    lamps := setup.kind.lamps }

/-- A ConfigureStation that is taken, by what is at the address (R118). -/
def State.configureStation (s : State) (l : Line) (a : Nat) (setup : StationSetup) : State :=
  match s.station? l a with
  | none => s.onUnit l fun u => { u with stations := Table.put u.stations a (.fresh setup) }
  | some st =>
    if st.setup.kind = setup.kind then
      s.onStation l a fun st => { st with setup := setup, configurePending := st.configurePending || st.state == .online }
    else
      let s := (s.discardKeys l a).onStation l a (.rekind setup)
      (s.offlineStation l a).onUnit l (.voidSlot a)

/-- ConfigureStation (R118). -/
def configureStation (body : List Byte) (s : State) : Work :=
  s.parsed (decodeStation body) fun (l, a, setup) => .done (s.configureStation l a setup)

/-- A RemoveStation that is taken, in the steps of R119. The address leaves the probe list with its record. -/
def State.removeStation (s : State) (l : Line) (a : Nat) : State :=
  let s := (s.discardKeys l a).leaveGroups ⟨l, a⟩
  s.onUnit l fun u => { (u.voidSlot a) with
    stations := Table.remove u.stations a, probeList := u.probeList.filter (· != a) }

/-- RemoveStation (R119). -/
def removeStation (body : List Byte) (s : State) : Work :=
  match body with
  | [line, a] =>
    match lineOfCode line with
    | none => .refuse .badRequest s
    | some l =>
      s.inOrder
        [(s.isSaving, .busySaving), (!within 1 60 a.toNat, .outOfRange), ((s.station? l a.toNat).isNone, .noSuch)]
        (.done (s.removeStation l a.toNat))
  | _ => .refuse .badRequest s

/-- The edge modes and the filter as ReadStation sends them, absent but for CONTACT (R117, R176). -/
def StationSetup.contactBytes : StationSetup → List Byte
  | .contact edges filter => edges.map EdgeMode.code ++ [filter.code]
  | .keypad | .fader => List.replicate 9 0xFF

/-- A key record as ReadStation sends it (R113). -/
def KeyRecord.bytes (r : KeyRecord) : List Byte :=
  [r.inputClass.code, r.state.code, flagByte r.plainRelease] ++ levelBytes r.position

/-- The body of a ReadStation answer (R136, R117, R113). One byte for accepted-through is the model's (DEDUCED, log entry 10).
-/
def State.stationBody (s : State) (l : Line) (a : Nat) (st : Station) : List Byte :=
  [lineCode l, byteOf a, st.setup.kind.code] ++ st.setup.contactBytes ++ groupSetBytes (s.groupSet ⟨l, a⟩) ++
    [st.state.code, reachCode st.reach, byteOf st.missCount, byteOf st.accepted, flagByte st.snapshotNeeded,
      flagByte st.configurePending] ++
    (st.lamps.flatMap fun p => [p.desired.code, confirmedCode p.confirmed]) ++ st.keys.flatMap fun e => e.2.bytes

/-- ReadStation (R136). -/
def readStation (body : List Byte) (s : State) : Work :=
  match body with
  | [line, a] =>
    match lineOfCode line with
    | none => .refuse .badRequest s
    | some l =>
      if !within 1 60 a.toNat then .refuse .outOfRange s
      else
        match s.station? l a.toNat with
        | none => .refuse .noSuch s
        | some st => .read (s.stationBody l a.toNat st) s
  | _ => .refuse .badRequest s

/-! ## Groups -/

/-- ConfigureGroup (R132). -/
def configureGroup (body : List Byte) (s : State) : Work :=
  s.parsed (decodeGroup body) fun (group, members) =>
    s.inOrder [((Table.at? s.groups group).any Group.hasPending, .notNow)] (.done (s.setMembers group members))

/-- SendGroupLamp (R133). -/
def sendGroupLamp (body : List Byte) (s : State) : Work :=
  match body with
  | [group, banner] =>
    match lampStateOfCode banner with
    | none => .refuse .badRequest s
    | some banner =>
      s.inOrder
        [(!within 1 15 group.toNat, .outOfRange),
          (((Table.at? s.groups group.toNat).map fun g => g.members.isEmpty).getD true, .noSuch)]
        (.done (s.deliver group.toNat banner))
  | _ => .refuse .badRequest s

/-- The body of a ReadGroupResult answer; with no delivery each member's code is absent (R133, section 12.2). One byte for the
delivery number is the model's (DEDUCED, log entry 10). -/
def Group.resultBody (g : Group) : List Byte :=
  (g.members.flatMap fun m => [lineCode m.line, byteOf m.address]) ++ [g.banner.code, byteOf g.lastNumber] ++
    match g.delivery with
    | some es => es.map fun e => e.code.code
    | none => g.members.map fun _ => 0xFF

/-- ReadGroupResult (R133). -/
def readGroupResult (body : List Byte) (s : State) : Work :=
  match body with
  | [group] =>
    if !within 1 15 group.toNat then .refuse .outOfRange s
    else .read ((Table.at? s.groups group.toNat).elim [] Group.resultBody) s
  | _ => .refuse .badRequest s

/-! ## Lines -/

/-- Whether a line is INTACT or SPLIT (R120). -/
def LineState.runs : LineState → Bool
  | .intact | .split => true
  | .off | .contested => false

/-- Survey (R131). -/
def survey (body : List Byte) (s : State) : Work :=
  match body with
  | [line] =>
    match lineOfCode line with
    | none => .refuse .badRequest s
    | some l =>
      s.inOrder [(!(s.unit l).state.runs, .lineBusy)]
        (.inWork (s.onUnit l fun u => { u with survey := some ⟨1, [], false, false⟩ }))
  | _ => .refuse .badRequest s

/-- LineControl OFF (R130). -/
def State.turnOff (s : State) (l : Line) : State :=
  let was := (s.unit l).state
  if was = .off then s
  else
    let s := s.onUnit l fun u => { u.stop with state := .off }
    (if was.runs then s.loseLine l else s).raise .lines

/-- LineControl ON (R130). -/
def State.turnOn (s : State) (l : Line) : Work :=
  match (s.unit l).state with
  | .off => .done (s.bringIntact l)
  | .intact | .split => .done s
  | .contested => .refuse .lineBusy s

/-- LineControl (R130). -/
def lineControl (body : List Byte) (s : State) : Work :=
  match body with
  | [line, setting] =>
    match lineOfCode line, flagOfByte setting with
    | some l, some on =>
      s.inOrder [(s.isSaving, .busySaving)] (if on then s.turnOn l else .done (s.turnOff l))
    | _, _ => .refuse .badRequest s
  | _ => .refuse .badRequest s

/-- SelectEnd (R126). -/
def selectEnd (body : List Byte) (s : State) : Work :=
  match body with
  | [line, side] =>
    match lineOfCode line, endOfCode side with
    | some l, some e =>
      match (s.unit l).state with
      | .intact => .done (s.onUnit l fun u => { u with active := e, continuity := 0 })
      | .split => .refuse .notNow s
      | .off | .contested => .refuse .lineBusy s
    | _, _ => .refuse .badRequest s
  | _ => .refuse .badRequest s

/-- A LineRestart that is taken (R129). -/
def State.beginRestart (s : State) (l : Line) : State :=
  let runs := (s.unit l).state.runs
  let s := s.onUnit l .stop
  let s := if runs then s.loseLine l else s
  s.onUnit l fun u => { u with listen := some 200 }

/-- LineRestart (R129). -/
def lineRestart (body : List Byte) (s : State) : Work :=
  match body with
  | [line] =>
    match lineOfCode line with
    | none => .refuse .badRequest s
    | some l => s.inOrder [((s.unit l).state == .off, .lineBusy)] (.inWork (s.beginRestart l))
  | _ => .refuse .badRequest s

/-- The body of a ReadLine answer: the record, then one set of addresses for each station state in the order of the codes
(R136, section 12.2). -/
def LineUnit.body (u : LineUnit) : List Byte :=
  [u.state.code, endCode u.preferred, endCode u.active, byteOf u.continuity, flagByte u.healTimer.isSome,
    flagByte u.takenOver] ++
    ([.expected, .joining, .online, .mismatch, .missing] : List StationState).flatMap fun state =>
      addressSet (Table.idsWhere u.stations fun st => st.state == state)

/-- ReadLine (R136). -/
def readLine (body : List Byte) (s : State) : Work :=
  match body with
  | [line] =>
    match lineOfCode line with
    | none => .refuse .badRequest s
    | some l => .read (s.unit l).body (s.onUnit l fun u => { u with takenOver := false })
  | _ => .refuse .badRequest s

/-! ## Modes and egress -/

/-- SetMode (R143). -/
def setMode (body : List Byte) (s : State) : Work :=
  match body with
  | [mode] =>
    match modeOfNat mode.toNat with
    | none => .refuse .badRequest s
    | some m => .done (s.changeMode m)
  | _ => .refuse .badRequest s

/-- ReadMode (R143). The filtered PANIC state has no code in chapter 12: a flag, 1 for asserted, is the model's (DEDUCED, log
entry 11). -/
def readMode (body : List Byte) (s : State) : Work :=
  match body with
  | [] =>
    .read ([s.mode.code, s.settings.startMode.code, flagByte s.latch, flagByte s.panicFiltered] ++
      bytes16 (s.holds .egress)) s
  | _ => .refuse .badRequest s

/-- ClearEgress (R147). -/
def clearEgress (body : List Byte) (s : State) : Work :=
  match body with
  | [] => s.inOrder [(s.panicFiltered, .active)] (.done (if s.latch then s.clearLatch else s))
  | _ => .refuse .badRequest s

/-! ## Racks -/

/-- The ConfigureRack body (R149). -/
def decodeRack (body : List Byte) : Parsed (Nat × Bool) :=
  match body with
  | [id, configured] =>
    match flagOfByte configured with
    | none => .malformed
    | some configured => if within 1 8 id.toNat then .ok (id.toNat, configured) else .outOfRange
  | _ => .malformed

/-- ConfigureRack (R149). -/
def configureRack (body : List Byte) (s : State) : Work :=
  s.parsed (decodeRack body) fun (id, configured) =>
    if configured then .done (if s.rackConfigured id then s else s.configureRack id)
    else s.inOrder [(!s.rackConfigured id, .noSuch)] (.done (s.unconfigureRack id))

/-- The circuit and the feed of each channel of a rack (R157). -/
def State.assignmentBytes (s : State) (rack : Nat) : List Byte :=
  (identifiers 32).flatMap fun c =>
    match s.feedAt ⟨rack, c⟩ with
    | some (id, _, f) => bytes16 id ++ [f.code]
    | none => [0, 0, 0xFF]

/-- The last frame as ReadRack sends it, or none (R157). -/
def lastFrameBytes : Option LevelFrame → List Byte
  | some f => f.levels.flatMap bytes16 ++ bytes32 f.flags
  | none => List.replicate 64 0xFF ++ bytes32 Config.absentFlags

/-- The body of a ReadRack answer (R157). -/
def State.rackBody (s : State) (id : Nat) (r : Rack) : List Byte :=
  if r.configured then
    [flagByte true, r.state.code, byteOf r.missCount, orAbsent (r.status.map RackStatus.code)] ++ bytes32 r.faults ++
      s.assignmentBytes id ++ lastFrameBytes r.last
  else [flagByte false, r.state.code] ++ s.assignmentBytes id

/-- ReadRack (R157). -/
def readRack (body : List Byte) (s : State) : Work :=
  match body with
  | [id] =>
    if !within 1 8 id.toNat then .refuse .outOfRange s
    else .read ((Table.at? s.racks id.toNat).elim [] (s.rackBody id.toNat)) s
  | _ => .refuse .badRequest s

/-! ## Settings, the image and the Host Link's own requests -/

/-- SetTimings (R166). -/
def setTimings (body : List Byte) (s : State) : Work :=
  s.parsed (decodeSettings body) fun (settings, endOfA, endOfB) =>
    .done { s with
      settings := settings
      lineA := { s.lineA with preferred := endOfA }
      lineB := { s.lineB with preferred := endOfB } }

/-- SaveImage (R171). -/
def saveImage (body : List Byte) (s : State) : Work :=
  s.inOrder [(s.isSaving, .busySaving), (!body.isEmpty, .badRequest)] (.done s.beginSave)

/-- Restart (R167). -/
def restart (body : List Byte) (s : State) : Work :=
  s.inOrder [(!body.isEmpty, .badRequest)] (.ended s.restart)

/-- Identify (R165). The manual gives the part identifier and the revision no size: two bytes and one are the model's (DEDUCED,
log entry 10). -/
def identify (body : List Byte) (s : State) : Work :=
  s.inOrder [(!body.isEmpty, .badRequest)]
    (.read (bytes16 Config.partIdentifier ++
      [byteOf Config.revision, s.resetCause.code, imageStateCode s.image.isSome]) s)

/-- ReadAttention (R169). -/
def readAttention (body : List Byte) (s : State) : Work :=
  s.inOrder [(!body.isEmpty, .badRequest)] (.read s.notices.bytes { s with notices := .empty })

end Sys2Proof.Machine
end

