-- ==== Sys2Proof/Machine/Time.lean ====
section
/-! DEFINITION. What an event does by whether the part runs, and the passing of a millisecond: every running timer has one
millisecond less to run, and stops short of its expiry, which is a command of its own. -/

namespace Sys2Proof.Machine

/-- An event of the running part; while a reset lasts it has no effect (R173). -/
def State.whileRunning (s : State) (f : State → State) : State := if s.power = .running then f s else s

/-- A change of the PANIC input. While a reset lasts the level alone is taken, to be looked at as start-up ends (R144,
R175). -/
def State.panicLevel (s : State) (asserted : Bool) : State :=
  if s.power = .running then s.panicChange asserted else { s with panicInput := asserted }

/-- START_UP: a reset that lasts ends with start-up (R173, R174). -/
def State.endReset (s : State) : State :=
  match s.power with
  | .inReset cause => s.startUp cause
  | .running => s

/-- A millisecond off a running timer; its last one stays until its expiry is taken. -/
def tickDown (t : Option Nat) : Option Nat := t.map fun n => max 1 (n - 1)

def KeyRecord.tick (r : KeyRecord) : KeyRecord :=
  { r with
    holdTimer := tickDown r.holdTimer, doubleTimer := tickDown r.doubleTimer, stuckTimer := tickDown r.stuckTimer }

def Station.tick (st : Station) : Station := { st with keys := Table.mapAll st.keys fun _ r => r.tick }

def Slot.tick (x : Slot) : Slot := { x with window := tickDown x.window }

def LineUnit.tick (u : LineUnit) : LineUnit :=
  { u with
    healTimer := tickDown u.healTimer, probeTimer := tickDown u.probeTimer, listen := tickDown u.listen,
    slot := u.slot.map Slot.tick, stations := Table.mapAll u.stations fun _ st => st.tick }

def Circuit.tick (c : Circuit) : Circuit :=
  { c with transition := { c.transition with blockTimer := tickDown c.transition.blockTimer } }

def RackSlot.tick (x : RackSlot) : RackSlot := { x with window := tickDown x.window }

/-- A millisecond passes with no command waiting: every timer of the part that runs has one millisecond less to run (R25,
R33, R79, R97, R116, R120, R127, R129, R144, R150). -/
def State.tick (s : State) : State :=
  if s.power = .running then
    { s with
      panicTimer := tickDown s.panicTimer, stepTimer := tickDown s.stepTimer, roundTimer := tickDown s.roundTimer,
      circuits := Table.mapAll s.circuits fun _ c => c.tick,
      repeats := s.repeats.map fun r => { r with timer := max 1 (r.timer - 1) },
      lineA := s.lineA.tick, lineB := s.lineB.tick, rackSlot := s.rackSlot.map RackSlot.tick }
  else s

end Sys2Proof.Machine
end

