-- ==== Sys2Proof/Machine/Transfer.lean ====
section
/-! DEFINITION. A transfer as the bytes the host clocks in: the Fetch code, the request catalogue by its codes, and the
checks of the Host Link on a request transfer (R160, R161, section 12.3). -/

namespace Sys2Proof.Machine

/-- The work of the request with a code of the catalogue; the INSTALL input is looked at as a request judged by it is taken
(R60, section 12.3). -/
def requestOf (install : Bool) (code : Nat) : Option (List Byte → State → Work) :=
  let judged (work : List Byte → State → Work) : List Byte → State → Work := fun body s =>
    work body (s.seeInstall install)
  match code with
  | 0x01 => some identify
  | 0x02 => some readAttention
  | 0x10 => some configureCircuit
  | 0x11 => some unconfigureCircuit
  | 0x12 => some readCircuit
  | 0x13 => some setHostLevel
  | 0x14 => some releaseHostLevel
  | 0x15 => some configureZone
  | 0x16 => some setMaster
  | 0x17 => some readZone
  | 0x20 => some (judged writeBinding)
  | 0x21 => some readBinding
  | 0x22 => some (judged retireBinding)
  | 0x23 => some (judged suspendBinding)
  | 0x24 => some (judged resumeBinding)
  | 0x25 => some fireBinding
  | 0x26 => some readNotified
  | 0x27 => some (judged setProtectSize)
  | 0x28 => some (judged lockHouse)
  | 0x29 => some (judged eraseHouse)
  | 0x30 => some writeScene
  | 0x31 => some readScene
  | 0x32 => some deleteScene
  | 0x33 => some recallScene
  | 0x34 => some releaseScene
  | 0x40 => some configureStation
  | 0x41 => some removeStation
  | 0x42 => some readStation
  | 0x43 => some configureGroup
  | 0x44 => some sendGroupLamp
  | 0x45 => some readGroupResult
  | 0x46 => some survey
  | 0x47 => some lineControl
  | 0x48 => some selectEnd
  | 0x49 => some lineRestart
  | 0x4A => some readLine
  | 0x50 => some setMode
  | 0x51 => some readMode
  | 0x52 => some clearEgress
  | 0x53 => some configureRack
  | 0x54 => some readRack
  | 0x60 => some setTimings
  | 0x61 => some saveImage
  | 0x62 => some restart
  | _ => none

/-- The end of a transfer of any bytes: nothing for a transfer with no byte, a Fetch for the Fetch code, and otherwise a
request transfer, malformed where its header is incomplete, its code is not of the catalogue or its length is wrong (R160,
R161). -/
def State.transferEnd (s : State) (install : Bool) (bytes : List Byte) : State :=
  match bytes with
  | [] => s
  | code :: rest =>
    if code = 0xA5 then s.fetched rest.length
    else
      match requestOf install code.toNat, rest with
      | some work, tag :: length :: body =>
        if length.toNat ≤ Config.bodyLimit ∧ body.length = length.toNat then s.takeRequest code tag body (work body)
        else s.takeMalformed bytes.length tag
      | _, _ => s.takeMalformed bytes.length (rest.headD 0)

end Sys2Proof.Machine
end

