-- ==== Sys2Proof/Machine/CommandsBindings.lean ====
section
/-! DEFINITION. The meanings of the requests on bindings and the house partition. -/

namespace Sys2Proof.Machine

/-- WRITE_BINDING: checks a binding record, then creates or replaces the binding (R50). -/
def execWriteBinding (install : Bool) (tag : Byte) (body : List Byte) (s : State) : Host.Outcome State Fault Refusal :=
  .next (s.takeRequest 0x20 tag body fun s => writeBinding body (s.seeInstall install))

/-- READ_BINDING: returns a binding's record and marks, or the withheld form for a house id while the lock is set
(R59). -/
def execReadBinding (tag : Byte) (body : List Byte) (s : State) : Host.Outcome State Fault Refusal :=
  .next (s.takeRequest 0x21 tag body (readBinding body))

/-- RETIRE_BINDING: releases a binding's light, removes it from its index list and frees its id (R56). -/
def execRetireBinding (install : Bool) (tag : Byte) (body : List Byte) (s : State) : Host.Outcome State Fault Refusal :=
  .next (s.takeRequest 0x22 tag body fun s => retireBinding body (s.seeInstall install))

/-- SUSPEND_BINDING: releases an ARMED binding's light and makes it SUSPENDED (R54). -/
def execSuspendBinding (install : Bool) (tag : Byte) (body : List Byte) (s : State) :
    Host.Outcome State Fault Refusal :=
  .next (s.takeRequest 0x23 tag body fun s => suspendBinding body (s.seeInstall install))

/-- RESUME_BINDING: makes a SUSPENDED binding ARMED without placing anything (R55). -/
def execResumeBinding (install : Bool) (tag : Byte) (body : List Byte) (s : State) : Host.Outcome State Fault Refusal :=
  .next (s.takeRequest 0x24 tag body fun s => resumeBinding body (s.seeInstall install))

/-- FIRE_BINDING: offers one binding to the Action Unit as if its gesture had occurred, with host-specific treatment of
its key-dependent parts (R57). -/
def execFireBinding (tag : Byte) (body : List Byte) (s : State) : Host.Outcome State Fault Refusal :=
  .next (s.takeRequest 0x25 tag body (fireBinding body))

/-- READ_NOTIFIED: returns up to 64 ids whose notify pending mark is set, clears their marks, and gives the count still
set (R58). -/
def execReadNotified (tag : Byte) (body : List Byte) (s : State) : Host.Outcome State Fault Refusal :=
  .next (s.takeRequest 0x26 tag body (readNotified body))

/-- SET_PROTECT_SIZE: changes the protect size that divides the house and show partitions (R60). -/
def execSetProtectSize (install : Bool) (tag : Byte) (body : List Byte) (s : State) :
    Host.Outcome State Fault Refusal :=
  .next (s.takeRequest 0x27 tag body fun s => setProtectSize body (s.seeInstall install))

/-- LOCK_HOUSE: sets the house lock and begins a save of the image (R61). -/
def execLockHouse (install : Bool) (tag : Byte) (body : List Byte) (s : State) : Host.Outcome State Fault Refusal :=
  .next (s.takeRequest 0x28 tag body fun s => lockHouse body (s.seeInstall install))

/-- ERASE_HOUSE: retires every house-partition binding, clears the lock and begins a save (R63). -/
def execEraseHouse (install : Bool) (tag : Byte) (body : List Byte) (s : State) : Host.Outcome State Fault Refusal :=
  .next (s.takeRequest 0x29 tag body fun s => eraseHouse body (s.seeInstall install))

end Sys2Proof.Machine
end

