-- ==== Sys2Proof/Machine/CommandsCircuits.lean ====
section
/-! DEFINITION. The meanings of the requests on circuits, host levels and zones. -/

namespace Sys2Proof.Machine

/-- CONFIGURE_CIRCUIT: checks and stores a circuit's configuration, then re-evaluates dormancy, egress and resolution
under R3 (R2). -/
def execConfigureCircuit (tag : Byte) (body : List Byte) (s : State) : Host.Outcome State Fault Refusal :=
  .next (s.takeRequest 0x10 tag body (configureCircuit body))

/-- UNCONFIGURE_CIRCUIT: removes every contribution of a circuit, takes it out of its zone and returns it to the
defaults (R4). -/
def execUnconfigureCircuit (tag : Byte) (body : List Byte) (s : State) : Host.Outcome State Fault Refusal :=
  .next (s.takeRequest 0x11 tag body (unconfigureCircuit body))

/-- READ_CIRCUIT: returns a circuit's configuration, contribution list, resolved record, transition fields and UNDRIVEN
and FAULTED marks (R23). -/
def execReadCircuit (tag : Byte) (body : List Byte) (s : State) : Host.Outcome State Fault Refusal :=
  .next (s.takeRequest 0x12 tag body (readCircuit body))

/-- SET_HOST_LEVEL: places or re-places the HOST contribution on a circuit, clamping the level and fade, and answers
FULL if the placement is refused (R16). -/
def execSetHostLevel (tag : Byte) (body : List Byte) (s : State) : Host.Outcome State Fault Refusal :=
  .next (s.takeRequest 0x13 tag body (setHostLevel body))

/-- RELEASE_HOST_LEVEL: removes the HOST contribution from a circuit and clears its host-displaced flag (R17). -/
def execReleaseHostLevel (tag : Byte) (body : List Byte) (s : State) : Host.Outcome State Fault Refusal :=
  .next (s.takeRequest 0x14 tag body (releaseHostLevel body))

/-- CONFIGURE_ZONE: configures or unconfigures a zone, or sets its master fade (R18). -/
def execConfigureZone (tag : Byte) (body : List Byte) (s : State) : Host.Outcome State Fault Refusal :=
  .next (s.takeRequest 0x15 tag body (configureZone body))

/-- SET_MASTER: sets a zone master from the host, clamped to 1000, as a master change (R21). -/
def execSetMaster (tag : Byte) (body : List Byte) (s : State) : Host.Outcome State Fault Refusal :=
  .next (s.takeRequest 0x16 tag body (setMaster body))

/-- READ_ZONE: returns a zone's master, master fade and members (R23). -/
def execReadZone (tag : Byte) (body : List Byte) (s : State) : Host.Outcome State Fault Refusal :=
  .next (s.takeRequest 0x17 tag body (readZone body))

end Sys2Proof.Machine
end

