-- ==== Sys2Proof/Machine/CommandsHost.lean ====
section
/-! DEFINITION. The meanings of the Host Link's own commands: transfers, identity, attention. -/

namespace Sys2Proof.Machine

/-- REQUEST_TRANSFER_MALFORMED: A request transfer ends with an incomplete header, an unknown code or a wrong length,
and is answered BAD_REQUEST, or is discarded if the slot is busy (R161). -/
def execRequestTransferMalformed (install : Bool) (bytes : List Byte) (s : State) : Host.Outcome State Fault Refusal :=
  .next (s.transferEnd install bytes)

/-- FETCH: A Fetch transfer shifts out the link status and the waiting answer or an empty frame, clears the collision
flag, and frees the slot when the whole answer has been clocked (R162). -/
def execFetch (clocked : Nat) (s : State) : Host.Outcome State Fault Refusal :=
  .next (s.fetched clocked)

/-- IDENTIFY: returns the part identifier, the revision, the reset cause and the image state (R165). -/
def execIdentify (tag : Byte) (body : List Byte) (s : State) : Host.Outcome State Fault Refusal :=
  .next (s.takeRequest 0x01 tag body (identify body))

/-- READ_ATTENTION: returns the notice set, empties it and lowers ATTN (R169). -/
def execReadAttention (tag : Byte) (body : List Byte) (s : State) : Host.Outcome State Fault Refusal :=
  .next (s.takeRequest 0x02 tag body (readAttention body))

end Sys2Proof.Machine
end

