-- ==== Sys2Proof/Machine/CommandsLines.lean ====
section
/-! DEFINITION. The meanings of the events of the station lines. -/

namespace Sys2Proof.Machine

/-- RESTART_LISTEN_EXPIRY: A quiet listen ends: the line becomes INTACT, every ONLINE station needs a snapshot, LINES
is raised and the LineRestart is answered OK (R129). -/
def execRestartListenExpiry (line : Line) (s : State) : Host.Outcome State Fault Refusal :=
  .next (s.whileRunning fun s => s.listenExpiry line)

/-- SLOT_START: A line unit chooses and sends the content of its next slot: a Continuity, a Group Lamp, or a station
frame with any Lamp frame (R120). -/
def execSlotStart (line : Line) (s : State) : Host.Outcome State Fault Refusal :=
  .next (s.whileRunning fun s => s.startSlot line)

/-- MARKED_CHARACTER_SENT: at the end of a frame's marked character, the far end is checked for the echo, updating the
continuity count, entering SPLIT or healing (R126). -/
def execMarkedCharacterSent (line : Line) (echo : Bool) (s : State) : Host.Outcome State Fault Refusal :=
  .next (s.whileRunning fun s => s.markedSent line echo)

/-- STATION_ANSWER: A whole Answer is taken: the station's state and miss count move, events are accepted, lamps
confirmed and group codes settled (R121). -/
def execStationAnswer (line : Line) (heard : List Heard) (s : State) : Host.Outcome State Fault Refusal :=
  .next (s.whileRunning fun s => s.answerHeard line heard)

/-- SNAPSHOT_ANSWER: A Snapshot Answer is taken: accepted-through takes the snapshot sequence, snapshot needed is
cleared and the states are compared (R124). -/
def execSnapshotAnswer (line : Line) (heard : List Heard) (s : State) : Host.Outcome State Fault Refusal :=
  .next (s.whileRunning fun s => s.snapshotHeard line heard)

/-- ANSWER_WINDOW_EXPIRY: no answer begins within 3 ms: a silent slot is a miss, or in SPLIT the frame is resent on the
other end (R116). -/
def execAnswerWindowExpiry (line : Line) (s : State) : Host.Outcome State Fault Refusal :=
  .next (s.whileRunning fun s => s.windowExpiry line)

/-- FOREIGN_CHARACTER: A marked character the part did not send is heard: the line enters CONTESTED, or a restart
listen ends LINE_BUSY (R128). -/
def execForeignCharacter (line : Line) (s : State) : Host.Outcome State Fault Refusal :=
  .next (s.whileRunning fun s => s.foreignHeard line)

/-- PROBE_TIMER_EXPIRY: every station in EXPECTED, MISSING or MISMATCH is added to the probe list (R120). -/
def execProbeTimerExpiry (line : Line) (s : State) : Host.Outcome State Fault Refusal :=
  .next (s.whileRunning fun s => s.probeExpiry line)

/-- HEAL_TIMER_EXPIRY: A SPLIT line asks for a Continuity on the preferred end (R127). -/
def execHealTimerExpiry (line : Line) (s : State) : Host.Outcome State Fault Refusal :=
  .next (s.whileRunning fun s => s.healExpiry line)

/-- STATION_FRAME_SENT: the last character of a frame the part sends on a station line goes out. A Group Lamp or
Continuity slot ends there and its group leaves the waiting set; after a call, the 3 ms answer window opens (R116). -/
def execStationFrameSent (line : Line) (s : State) : Host.Outcome State Fault Refusal :=
  .next (s.whileRunning fun s => s.frameSent line)

end Sys2Proof.Machine
end

