-- ==== Sys2Proof/Machine/CommandsModes.lean ====
section
/-! DEFINITION. The meanings of the requests on modes, egress, racks, settings and the image, with the completion of a save, the resets and start-up. -/

namespace Sys2Proof.Machine

/-- SET_MODE: takes a house mode change requested by the host (R143). -/
def execSetMode (tag : Byte) (body : List Byte) (s : State) : Host.Outcome State Fault Refusal :=
  .next (s.takeRequest 0x50 tag body (setMode body))

/-- READ_MODE: returns the house mode, the start mode, the latch, the filtered PANIC state and the count of EGRESS
circuits (R143). -/
def execReadMode (tag : Byte) (body : List Byte) (s : State) : Host.Outcome State Fault Refusal :=
  .next (s.takeRequest 0x51 tag body (readMode body))

/-- CLEAR_EGRESS: clears the egress latch unless the filtered PANIC is asserted, and removes every EGRESS contribution
with fade 0 (R147). -/
def execClearEgress (tag : Byte) (body : List Byte) (s : State) : Host.Outcome State Fault Refusal :=
  .next (s.takeRequest 0x52 tag body (clearEgress body))

/-- CONFIGURE_RACK: configures or unconfigures a rack (R149). -/
def execConfigureRack (tag : Byte) (body : List Byte) (s : State) : Host.Outcome State Fault Refusal :=
  .next (s.takeRequest 0x53 tag body (configureRack body))

/-- READ_RACK: returns a rack record, its channel assignments and the last frame sent (R157). -/
def execReadRack (tag : Byte) (body : List Byte) (s : State) : Host.Outcome State Fault Refusal :=
  .next (s.takeRequest 0x54 tag body (readRack body))

/-- SET_TIMINGS: replaces the timing settings, the start fade, the start mode and the preferred ends (R166). -/
def execSetTimings (tag : Byte) (body : List Byte) (s : State) : Host.Outcome State Fault Refusal :=
  .next (s.takeRequest 0x60 tag body (setTimings body))

/-- SAVE_IMAGE: begins a save of the image (R171). -/
def execSaveImage (tag : Byte) (body : List Byte) (s : State) : Host.Outcome State Fault Refusal :=
  .next (s.takeRequest 0x61 tag body (saveImage body))

/-- SAVE_COMPLETE: the copy is written as the image, the marker becomes VALID and IMAGE is raised (R171). -/
def execSaveComplete (s : State) : Host.Outcome State Fault Refusal :=
  .next (s.whileRunning State.completeSave)

/-- RESTART: causes a reset with cause REQUEST and places no answer (R167). -/
def execRestart (tag : Byte) (body : List Byte) (s : State) : Host.Outcome State Fault Refusal :=
  .next (s.takeRequest 0x62 tag body (restart body))

/-- POWER_RESET: application of power resets the part with cause POWER (R173). -/
def execPowerReset (s : State) : Host.Outcome State Fault Refusal :=
  .next (s.beginReset .power)

/-- PIN_RESET: RESET_N driven low resets the part with cause PIN (R173). -/
def execPinReset (s : State) : Host.Outcome State Fault Refusal :=
  .next (s.beginPinReset)

/-- START_UP: at stable power or the release of RESET_N, records the cause, loads the image, clears runtime, sets mode,
feeds, circuits, lines and racks (R174). -/
def execStartUp (s : State) : Host.Outcome State Fault Refusal :=
  .next (s.endReset)

end Sys2Proof.Machine
end

