-- ==== Sys2Proof/Machine/CommandsScenes.lean ====
section
/-! DEFINITION. The meanings of the requests on scenes. -/

namespace Sys2Proof.Machine

/-- WRITE_SCENE: checks a scene definition, then defines or replaces the scene, or rewrites it while live (R86). -/
def execWriteScene (tag : Byte) (body : List Byte) (s : State) : Host.Outcome State Fault Refusal :=
  .next (s.takeRequest 0x30 tag body (writeScene body))

/-- READ_SCENE: returns a scene's entries, fades, runtime values, marks and the pool entries in use (R96). -/
def execReadScene (tag : Byte) (body : List Byte) (s : State) : Host.Outcome State Fault Refusal :=
  .next (s.takeRequest 0x31 tag body (readScene body))

/-- DELETE_SCENE: releases a live scene, returns its entries to the pool and makes its id undefined (R94). -/
def execDeleteScene (tag : Byte) (body : List Byte) (s : State) : Host.Outcome State Fault Refusal :=
  .next (s.takeRequest 0x32 tag body (deleteScene body))

/-- RECALL_SCENE: recalls or re-recalls a scene at a tier with recaller HOST (R95). -/
def execRecallScene (tag : Byte) (body : List Byte) (s : State) : Host.Outcome State Fault Refusal :=
  .next (s.takeRequest 0x33 tag body (recallScene body))

/-- RELEASE_SCENE: releases a scene at the host's request (R95). -/
def execReleaseScene (tag : Byte) (body : List Byte) (s : State) : Host.Outcome State Fault Refusal :=
  .next (s.takeRequest 0x34 tag body (releaseScene body))

end Sys2Proof.Machine
end

