-- ==== Sys2Proof/Machine/CommandsStations.lean ====
section
/-! DEFINITION. The meanings of the requests on stations, groups and lines. -/

namespace Sys2Proof.Machine

/-- CONFIGURE_STATION: creates or updates a station record, discarding key records and resetting runtime fields if the
kind changes (R118). -/
def execConfigureStation (tag : Byte) (body : List Byte) (s : State) : Host.Outcome State Fault Refusal :=
  .next (s.takeRequest 0x40 tag body (configureStation body))

/-- REMOVE_STATION: removes a station's holdings, repeats, captured marks, key records and group memberships, then
deletes its record (R119). -/
def execRemoveStation (tag : Byte) (body : List Byte) (s : State) : Host.Outcome State Fault Refusal :=
  .next (s.takeRequest 0x41 tag body (removeStation body))

/-- READ_STATION: returns a station record, its lamp states and its key records (R136). -/
def execReadStation (tag : Byte) (body : List Byte) (s : State) : Host.Outcome State Fault Refusal :=
  .next (s.takeRequest 0x42 tag body (readStation body))

/-- CONFIGURE_GROUP: replaces a group's member list and drops its delivery (R132). -/
def execConfigureGroup (tag : Byte) (body : List Byte) (s : State) : Host.Outcome State Fault Refusal :=
  .next (s.takeRequest 0x43 tag body (configureGroup body))

/-- SEND_GROUP_LAMP: starts a new group delivery with a banner state, giving each member PENDING or OFFLINE and making
Group Lamp frames wait (R133). -/
def execSendGroupLamp (tag : Byte) (body : List Byte) (s : State) : Host.Outcome State Fault Refusal :=
  .next (s.takeRequest 0x44 tag body (sendGroupLamp body))

/-- READ_GROUP_RESULT: returns a group's members, banner state, delivery number and member codes (R133). -/
def execReadGroupResult (tag : Byte) (body : List Byte) (s : State) : Host.Outcome State Fault Refusal :=
  .next (s.takeRequest 0x45 tag body (readGroupResult body))

/-- SURVEY: suspends normal polling and gives one Call slot to each address 1..60 of a line, keeping the slot WORKING
(R131). -/
def execSurvey (tag : Byte) (body : List Byte) (s : State) : Host.Outcome State Fault Refusal :=
  .next (s.takeRequest 0x46 tag body (survey body))

/-- LINE_CONTROL: turns a station line OFF, or brings an OFF line into INTACT (R130). -/
def execLineControl (tag : Byte) (body : List Byte) (s : State) : Host.Outcome State Fault Refusal :=
  .next (s.takeRequest 0x47 tag body (lineControl body))

/-- SELECT_END: sets the active end of an INTACT line (R126). -/
def execSelectEnd (tag : Byte) (body : List Byte) (s : State) : Host.Outcome State Fault Refusal :=
  .next (s.takeRequest 0x48 tag body (selectEnd body))

/-- LINE_RESTART: stops driving a line, treats its stations as MISSING and starts the 200 ms restart listen (R129). -/
def execLineRestart (tag : Byte) (body : List Byte) (s : State) : Host.Outcome State Fault Refusal :=
  .next (s.takeRequest 0x49 tag body (lineRestart body))

/-- READ_LINE: returns the line record and the station addresses by state, and clears the taken-over flag (R136). -/
def execReadLine (tag : Byte) (body : List Byte) (s : State) : Host.Outcome State Fault Refusal :=
  .next (s.takeRequest 0x4A tag body (readLine body))

end Sys2Proof.Machine
end

