-- ==== Sys2Proof/Machine/CommandsTimers.lean ====
section
/-! DEFINITION. The meanings of the expiries of keys, repeats and circuits, the PANIC input and the rack link. -/

namespace Sys2Proof.Machine

/-- HOLD_TIMER_EXPIRY: A key in DOWN becomes HELD and HOLD is reported (R102). -/
def execHoldTimerExpiry (key : StationInput) (s : State) : Host.Outcome State Fault Refusal :=
  .next (s.whileRunning fun s => s.holdExpiry key)

/-- DOUBLE_TIMER_EXPIRY: A key in WAIT_SECOND reports its deferred PRESS and returns to UP (R104). -/
def execDoubleTimerExpiry (key : StationInput) (s : State) : Host.Outcome State Fault Refusal :=
  .next (s.whileRunning fun s => s.doubleExpiry key)

/-- STUCK_TIMER_EXPIRY: A key in DOWN or HELD enters STUCK, its holdings and repeats are removed and STUCK is raised
(R105). -/
def execStuckTimerExpiry (key : StationInput) (s : State) : Host.Outcome State Fault Refusal :=
  .next (s.whileRunning fun s => s.stuckExpiry key)

/-- REPEAT_TIMER_EXPIRY: A repeat record makes one RAISE or LOWER step and restarts its 100 ms timer (R79). -/
def execRepeatTimerExpiry (binding : Nat) (s : State) : Host.Outcome State Fault Refusal :=
  .next (s.whileRunning fun s => s.repeatExpiry binding)

/-- STEP_TIMER_EXPIRY: every fading circuit takes one step, phases complete, and every output level is recomputed
(R25). -/
def execStepTimerExpiry (s : State) : Host.Outcome State Fault Refusal :=
  .next (s.whileRunning State.stepExpiry)

/-- BLOCK_TIMER_EXPIRY: the current feed becomes the destination and the circuit begins a new BLOCK, FADING or UPSLOPE
(R33). -/
def execBlockTimerExpiry (circuit : Nat) (s : State) : Host.Outcome State Fault Refusal :=
  .next (s.whileRunning fun s => s.blockExpiry circuit)

/-- PANIC_INPUT_CHANGE: A change of the PANIC input starts or stops the 50 ms filter timer (R144). -/
def execPanicInputChange (asserted : Bool) (s : State) : Host.Outcome State Fault Refusal :=
  .next (s.panicLevel asserted)

/-- PANIC_FILTER_EXPIRY: the filtered PANIC takes the input's value, setting the latch or raising EGRESS (R144). -/
def execPanicFilterExpiry (s : State) : Host.Outcome State Fault Refusal :=
  .next (s.whileRunning State.panicExpiry)

/-- ROUND_TIMER_EXPIRY: A rack link round begins, restarting the 40 ms timer and building the first rack's Level frame
(R150). -/
def execRoundTimerExpiry (s : State) : Host.Outcome State Fault Refusal :=
  .next (s.whileRunning State.roundExpiry)

/-- LEVEL_FRAME_SENT: the part stops driving the pair, records the last frame and opens the 10 ms reply window (R150).
-/
def execLevelFrameSent (s : State) : Host.Outcome State Fault Refusal :=
  .next (s.whileRunning State.levelFrameSent)

/-- RACK_REPLY: A whole reply is taken: status and fault set recorded, miss count cleared and the rack's state moved
(R153). -/
def execRackReply (chars : List Character) (s : State) : Host.Outcome State Fault Refusal :=
  .next (s.whileRunning fun s => s.replyHeard chars)

/-- REPLY_WINDOW_EXPIRY: A missing reply raises the miss count, may make an ONLINE rack LOST, and the round moves to
the next rack or ends (R154). -/
def execReplyWindowExpiry (s : State) : Host.Outcome State Fault Refusal :=
  .next (s.whileRunning State.replyWindowExpiry)

end Sys2Proof.Machine
end

