-- ==== Sys2Proof/Machine/Dispatch.lean ====
section
/-! DEFINITION. The one dispatch: every command's arm is one call of its meaning. -/

namespace Sys2Proof.Machine

/-- The effect of a command on everything but the queue. -/
def exec (i : Instr) (s : State) : Host.Outcome State Fault Refusal :=
  match i with
  | .requestTransferMalformed install bytes => Sys2Proof.Machine.execRequestTransferMalformed install bytes s
  | .fetch clocked => Sys2Proof.Machine.execFetch clocked s
  | .identify tag body => Sys2Proof.Machine.execIdentify tag body s
  | .readAttention tag body => Sys2Proof.Machine.execReadAttention tag body s
  | .configureCircuit tag body => Sys2Proof.Machine.execConfigureCircuit tag body s
  | .unconfigureCircuit tag body => Sys2Proof.Machine.execUnconfigureCircuit tag body s
  | .readCircuit tag body => Sys2Proof.Machine.execReadCircuit tag body s
  | .setHostLevel tag body => Sys2Proof.Machine.execSetHostLevel tag body s
  | .releaseHostLevel tag body => Sys2Proof.Machine.execReleaseHostLevel tag body s
  | .configureZone tag body => Sys2Proof.Machine.execConfigureZone tag body s
  | .setMaster tag body => Sys2Proof.Machine.execSetMaster tag body s
  | .readZone tag body => Sys2Proof.Machine.execReadZone tag body s
  | .writeBinding install tag body => Sys2Proof.Machine.execWriteBinding install tag body s
  | .readBinding tag body => Sys2Proof.Machine.execReadBinding tag body s
  | .retireBinding install tag body => Sys2Proof.Machine.execRetireBinding install tag body s
  | .suspendBinding install tag body => Sys2Proof.Machine.execSuspendBinding install tag body s
  | .resumeBinding install tag body => Sys2Proof.Machine.execResumeBinding install tag body s
  | .fireBinding tag body => Sys2Proof.Machine.execFireBinding tag body s
  | .readNotified tag body => Sys2Proof.Machine.execReadNotified tag body s
  | .setProtectSize install tag body => Sys2Proof.Machine.execSetProtectSize install tag body s
  | .lockHouse install tag body => Sys2Proof.Machine.execLockHouse install tag body s
  | .eraseHouse install tag body => Sys2Proof.Machine.execEraseHouse install tag body s
  | .writeScene tag body => Sys2Proof.Machine.execWriteScene tag body s
  | .readScene tag body => Sys2Proof.Machine.execReadScene tag body s
  | .deleteScene tag body => Sys2Proof.Machine.execDeleteScene tag body s
  | .recallScene tag body => Sys2Proof.Machine.execRecallScene tag body s
  | .releaseScene tag body => Sys2Proof.Machine.execReleaseScene tag body s
  | .configureStation tag body => Sys2Proof.Machine.execConfigureStation tag body s
  | .removeStation tag body => Sys2Proof.Machine.execRemoveStation tag body s
  | .readStation tag body => Sys2Proof.Machine.execReadStation tag body s
  | .configureGroup tag body => Sys2Proof.Machine.execConfigureGroup tag body s
  | .sendGroupLamp tag body => Sys2Proof.Machine.execSendGroupLamp tag body s
  | .readGroupResult tag body => Sys2Proof.Machine.execReadGroupResult tag body s
  | .survey tag body => Sys2Proof.Machine.execSurvey tag body s
  | .lineControl tag body => Sys2Proof.Machine.execLineControl tag body s
  | .selectEnd tag body => Sys2Proof.Machine.execSelectEnd tag body s
  | .lineRestart tag body => Sys2Proof.Machine.execLineRestart tag body s
  | .restartListenExpiry line => Sys2Proof.Machine.execRestartListenExpiry line s
  | .readLine tag body => Sys2Proof.Machine.execReadLine tag body s
  | .setMode tag body => Sys2Proof.Machine.execSetMode tag body s
  | .readMode tag body => Sys2Proof.Machine.execReadMode tag body s
  | .clearEgress tag body => Sys2Proof.Machine.execClearEgress tag body s
  | .configureRack tag body => Sys2Proof.Machine.execConfigureRack tag body s
  | .readRack tag body => Sys2Proof.Machine.execReadRack tag body s
  | .setTimings tag body => Sys2Proof.Machine.execSetTimings tag body s
  | .saveImage tag body => Sys2Proof.Machine.execSaveImage tag body s
  | .saveComplete => Sys2Proof.Machine.execSaveComplete s
  | .restart tag body => Sys2Proof.Machine.execRestart tag body s
  | .powerReset => Sys2Proof.Machine.execPowerReset s
  | .pinReset => Sys2Proof.Machine.execPinReset s
  | .startUp => Sys2Proof.Machine.execStartUp s
  | .slotStart line => Sys2Proof.Machine.execSlotStart line s
  | .markedCharacterSent line echo => Sys2Proof.Machine.execMarkedCharacterSent line echo s
  | .stationAnswer line heard => Sys2Proof.Machine.execStationAnswer line heard s
  | .snapshotAnswer line heard => Sys2Proof.Machine.execSnapshotAnswer line heard s
  | .answerWindowExpiry line => Sys2Proof.Machine.execAnswerWindowExpiry line s
  | .foreignCharacter line => Sys2Proof.Machine.execForeignCharacter line s
  | .probeTimerExpiry line => Sys2Proof.Machine.execProbeTimerExpiry line s
  | .healTimerExpiry line => Sys2Proof.Machine.execHealTimerExpiry line s
  | .holdTimerExpiry key => Sys2Proof.Machine.execHoldTimerExpiry key s
  | .doubleTimerExpiry key => Sys2Proof.Machine.execDoubleTimerExpiry key s
  | .stuckTimerExpiry key => Sys2Proof.Machine.execStuckTimerExpiry key s
  | .repeatTimerExpiry binding => Sys2Proof.Machine.execRepeatTimerExpiry binding s
  | .stepTimerExpiry => Sys2Proof.Machine.execStepTimerExpiry s
  | .blockTimerExpiry circuit => Sys2Proof.Machine.execBlockTimerExpiry circuit s
  | .panicInputChange asserted => Sys2Proof.Machine.execPanicInputChange asserted s
  | .panicFilterExpiry => Sys2Proof.Machine.execPanicFilterExpiry s
  | .roundTimerExpiry => Sys2Proof.Machine.execRoundTimerExpiry s
  | .levelFrameSent => Sys2Proof.Machine.execLevelFrameSent s
  | .rackReply chars => Sys2Proof.Machine.execRackReply chars s
  | .replyWindowExpiry => Sys2Proof.Machine.execReplyWindowExpiry s
  | .stationFrameSent line => Sys2Proof.Machine.execStationFrameSent line s

end Sys2Proof.Machine
end

