-- ==== Sys2Proof/WellFormed.lean ====
section
/-! DEFINITION. Which commands can come to the part: a request frame holds at most 250 bytes of body, a malformed transfer is
no Fetch and holds a byte, an answer is heard on one end or on both, an expiry names a record that can be. -/

namespace Sys2Proof

/-- Whether a station input lies in the ranges of section 1.5. -/
def StationInput.wellFormed (k : StationInput) : Bool :=
  decide (1 ≤ k.address) && decide (k.address ≤ 60) && decide (1 ≤ k.input) && decide (k.input ≤ 16)

/-- Whether the copies of an answer come from the ends of a line: at least one, at most one from each end, none empty
(R114, R126). -/
def heardWellFormed (heard : List Heard) : Bool :=
  !heard.isEmpty && decide (heard.map (·.side)).Nodup && heard.all fun h => !h.chars.isEmpty

/-- Whether a request body fits its frame (R161). -/
def bodyWellFormed (body : List Byte) : Bool := decide (body.length ≤ Config.bodyLimit)

/-- Whether the bytes of a transfer can be those of a request transfer that is malformed: at least one, and not the Fetch
code first (R160). -/
def transferWellFormed : List Byte → Bool
  | [] => false
  | code :: _ => code != 0xA5

/-- The body of a request, where a command is one. -/
def Instr.body? : Instr → Option (List Byte)
  | .requestTransferMalformed _ _ => none
  | .fetch _ => none
  | .identify _ body => some body
  | .readAttention _ body => some body
  | .configureCircuit _ body => some body
  | .unconfigureCircuit _ body => some body
  | .readCircuit _ body => some body
  | .setHostLevel _ body => some body
  | .releaseHostLevel _ body => some body
  | .configureZone _ body => some body
  | .setMaster _ body => some body
  | .readZone _ body => some body
  | .writeBinding _ _ body => some body
  | .readBinding _ body => some body
  | .retireBinding _ _ body => some body
  | .suspendBinding _ _ body => some body
  | .resumeBinding _ _ body => some body
  | .fireBinding _ body => some body
  | .readNotified _ body => some body
  | .setProtectSize _ _ body => some body
  | .lockHouse _ _ body => some body
  | .eraseHouse _ _ body => some body
  | .writeScene _ body => some body
  | .readScene _ body => some body
  | .deleteScene _ body => some body
  | .recallScene _ body => some body
  | .releaseScene _ body => some body
  | .configureStation _ body => some body
  | .removeStation _ body => some body
  | .readStation _ body => some body
  | .configureGroup _ body => some body
  | .sendGroupLamp _ body => some body
  | .readGroupResult _ body => some body
  | .survey _ body => some body
  | .lineControl _ body => some body
  | .selectEnd _ body => some body
  | .lineRestart _ body => some body
  | .restartListenExpiry _ => none
  | .readLine _ body => some body
  | .setMode _ body => some body
  | .readMode _ body => some body
  | .clearEgress _ body => some body
  | .configureRack _ body => some body
  | .readRack _ body => some body
  | .setTimings _ body => some body
  | .saveImage _ body => some body
  | .saveComplete => none
  | .restart _ body => some body
  | .powerReset => none
  | .pinReset => none
  | .startUp => none
  | .slotStart _ => none
  | .markedCharacterSent _ _ => none
  | .stationAnswer _ _ => none
  | .snapshotAnswer _ _ => none
  | .answerWindowExpiry _ => none
  | .foreignCharacter _ => none
  | .probeTimerExpiry _ => none
  | .healTimerExpiry _ => none
  | .holdTimerExpiry _ => none
  | .doubleTimerExpiry _ => none
  | .stuckTimerExpiry _ => none
  | .repeatTimerExpiry _ => none
  | .stepTimerExpiry => none
  | .blockTimerExpiry _ => none
  | .panicInputChange _ => none
  | .panicFilterExpiry => none
  | .roundTimerExpiry => none
  | .levelFrameSent => none
  | .rackReply _ => none
  | .replyWindowExpiry => none
  | .stationFrameSent _ => none

/-- The command is one that can come to the part. -/
def Instr.wellFormed : Instr → Bool
  | .requestTransferMalformed _ bytes => transferWellFormed bytes
  | .fetch _ => true
  | .identify _ body => bodyWellFormed body
  | .readAttention _ body => bodyWellFormed body
  | .configureCircuit _ body => bodyWellFormed body
  | .unconfigureCircuit _ body => bodyWellFormed body
  | .readCircuit _ body => bodyWellFormed body
  | .setHostLevel _ body => bodyWellFormed body
  | .releaseHostLevel _ body => bodyWellFormed body
  | .configureZone _ body => bodyWellFormed body
  | .setMaster _ body => bodyWellFormed body
  | .readZone _ body => bodyWellFormed body
  | .writeBinding _ _ body => bodyWellFormed body
  | .readBinding _ body => bodyWellFormed body
  | .retireBinding _ _ body => bodyWellFormed body
  | .suspendBinding _ _ body => bodyWellFormed body
  | .resumeBinding _ _ body => bodyWellFormed body
  | .fireBinding _ body => bodyWellFormed body
  | .readNotified _ body => bodyWellFormed body
  | .setProtectSize _ _ body => bodyWellFormed body
  | .lockHouse _ _ body => bodyWellFormed body
  | .eraseHouse _ _ body => bodyWellFormed body
  | .writeScene _ body => bodyWellFormed body
  | .readScene _ body => bodyWellFormed body
  | .deleteScene _ body => bodyWellFormed body
  | .recallScene _ body => bodyWellFormed body
  | .releaseScene _ body => bodyWellFormed body
  | .configureStation _ body => bodyWellFormed body
  | .removeStation _ body => bodyWellFormed body
  | .readStation _ body => bodyWellFormed body
  | .configureGroup _ body => bodyWellFormed body
  | .sendGroupLamp _ body => bodyWellFormed body
  | .readGroupResult _ body => bodyWellFormed body
  | .survey _ body => bodyWellFormed body
  | .lineControl _ body => bodyWellFormed body
  | .selectEnd _ body => bodyWellFormed body
  | .lineRestart _ body => bodyWellFormed body
  | .restartListenExpiry _ => true
  | .readLine _ body => bodyWellFormed body
  | .setMode _ body => bodyWellFormed body
  | .readMode _ body => bodyWellFormed body
  | .clearEgress _ body => bodyWellFormed body
  | .configureRack _ body => bodyWellFormed body
  | .readRack _ body => bodyWellFormed body
  | .setTimings _ body => bodyWellFormed body
  | .saveImage _ body => bodyWellFormed body
  | .saveComplete => true
  | .restart _ body => bodyWellFormed body
  | .powerReset => true
  | .pinReset => true
  | .startUp => true
  | .slotStart _ => true
  | .markedCharacterSent _ _ => true
  | .stationAnswer _ heard => heardWellFormed heard
  | .snapshotAnswer _ heard => heardWellFormed heard
  | .answerWindowExpiry _ => true
  | .foreignCharacter _ => true
  | .probeTimerExpiry _ => true
  | .healTimerExpiry _ => true
  | .holdTimerExpiry key => key.wellFormed
  | .doubleTimerExpiry key => key.wellFormed
  | .stuckTimerExpiry key => key.wellFormed
  | .repeatTimerExpiry binding => decide (1 ≤ binding) && decide (binding ≤ 1024)
  | .stepTimerExpiry => true
  | .blockTimerExpiry circuit => decide (1 ≤ circuit) && decide (circuit ≤ 256)
  | .panicInputChange _ => true
  | .panicFilterExpiry => true
  | .roundTimerExpiry => true
  | .levelFrameSent => true
  | .rackReply chars => !chars.isEmpty
  | .replyWindowExpiry => true
  | .stationFrameSent _ => true

end Sys2Proof
end

