-- ==== Sys2Proof/Safety.lean ====
section
/-! DEFINITION. What counts as a safe run of the part, in the terms the claims use: steps that answer a next state, the
invariants of the tables, when a request is taken, what its answer leaves, and which part of the state a command may
touch. -/

namespace Sys2Proof.Machine

/-! ## Steps -/

/-- A step is safe when it answers a next state: the part never stops. -/
def Safe (s : State) : Prop := ∃ t, step s = .next t

/-! ## The exchange with the host -/

/-- The Host Link takes the next request: the part runs and the slot is IDLE (R160). -/
def State.TakesRequests (s : State) : Prop := s.power = .running ∧ s.hostSlot = .idle

/-- The state once a request whose body had n bytes has been answered: the zeros of its transfer have gone out, and the
answer waits (R160, R161). -/
def State.answered (s : State) (n : Nat) (tag : Byte) (result : Result) (clamped : Bool) (body : List Byte) : State :=
  { s with sdo := List.replicate (3 + n) 0, hostSlot := .answerReady ⟨tag, result, clamped, body⟩ }

/-- The state while a request whose body had n bytes is in work (R164). -/
def State.atWork (s : State) (code tag : Byte) (body : List Byte) : State :=
  { s with sdo := List.replicate (3 + body.length) 0, hostSlot := .working ⟨code, tag, body⟩ }

/-- The tag and the body of a command that is a request frame of the catalogue. -/
def requestParts : Instr → Option (Byte × List Byte)
  | .requestTransferMalformed _ _ => none
  | .fetch _ => none
  | .identify tag body => some (tag, body)
  | .readAttention tag body => some (tag, body)
  | .configureCircuit tag body => some (tag, body)
  | .unconfigureCircuit tag body => some (tag, body)
  | .readCircuit tag body => some (tag, body)
  | .setHostLevel tag body => some (tag, body)
  | .releaseHostLevel tag body => some (tag, body)
  | .configureZone tag body => some (tag, body)
  | .setMaster tag body => some (tag, body)
  | .readZone tag body => some (tag, body)
  | .writeBinding _ tag body => some (tag, body)
  | .readBinding tag body => some (tag, body)
  | .retireBinding _ tag body => some (tag, body)
  | .suspendBinding _ tag body => some (tag, body)
  | .resumeBinding _ tag body => some (tag, body)
  | .fireBinding tag body => some (tag, body)
  | .readNotified tag body => some (tag, body)
  | .setProtectSize _ tag body => some (tag, body)
  | .lockHouse _ tag body => some (tag, body)
  | .eraseHouse _ tag body => some (tag, body)
  | .writeScene tag body => some (tag, body)
  | .readScene tag body => some (tag, body)
  | .deleteScene tag body => some (tag, body)
  | .recallScene tag body => some (tag, body)
  | .releaseScene tag body => some (tag, body)
  | .configureStation tag body => some (tag, body)
  | .removeStation tag body => some (tag, body)
  | .readStation tag body => some (tag, body)
  | .configureGroup tag body => some (tag, body)
  | .sendGroupLamp tag body => some (tag, body)
  | .readGroupResult tag body => some (tag, body)
  | .survey tag body => some (tag, body)
  | .lineControl tag body => some (tag, body)
  | .selectEnd tag body => some (tag, body)
  | .lineRestart tag body => some (tag, body)
  | .restartListenExpiry _ => none
  | .readLine tag body => some (tag, body)
  | .setMode tag body => some (tag, body)
  | .readMode tag body => some (tag, body)
  | .clearEgress tag body => some (tag, body)
  | .configureRack tag body => some (tag, body)
  | .readRack tag body => some (tag, body)
  | .setTimings tag body => some (tag, body)
  | .saveImage tag body => some (tag, body)
  | .saveComplete => none
  | .restart tag body => some (tag, body)
  | .powerReset => none
  | .pinReset => none
  | .startUp => none
  | .slotStart _ => none
  | .markedCharacterSent _ _ => none
  | .stationAnswer _ _ => none
  | .snapshotAnswer _ _ => none
  | .answerWindowExpiry _ => none
  | .foreignCharacter _ => none
  | .probeTimerExpiry _ => none
  | .healTimerExpiry _ => none
  | .holdTimerExpiry _ => none
  | .doubleTimerExpiry _ => none
  | .stuckTimerExpiry _ => none
  | .repeatTimerExpiry _ => none
  | .stepTimerExpiry => none
  | .blockTimerExpiry _ => none
  | .panicInputChange _ => none
  | .panicFilterExpiry => none
  | .roundTimerExpiry => none
  | .levelFrameSent => none
  | .rackReply _ => none
  | .replyWindowExpiry => none
  | .stationFrameSent _ => none

/-- The commands that act while a reset lasts: the resets themselves, start-up, and the level of the PANIC input. -/
def actsInReset : Instr → Bool
  | .powerReset | .pinReset | .startUp | .panicInputChange _ => true
  | _ => false

/-! ## What a command may touch -/

/-- The identifiers of a table rise strictly: no identifier has two records. -/
def Table.InOrder {α : Type} (t : Table α) : Prop := (Table.ids t).Pairwise (· < ·)

/-- Nothing differs but circuits, bindings and scenes: the lists of claims, the circuits' light, and the owners' marks. -/
def State.OnlyClaims (s t : State) : Prop :=
  t = { s with circuits := t.circuits, bindings := t.bindings, scenes := t.scenes }

/-- A line unit with the momentary holdings of its key records left out. -/
def LineUnit.withoutHoldings (u : LineUnit) : LineUnit :=
  { u with stations := Table.mapAll u.stations fun _ st =>
      { st with keys := Table.mapAll st.keys fun _ r => { r with holdings := [] } } }

/-- Nothing differs but what the release of a binding's light may touch: claims, the repeat list, and the momentary holdings
in the key records of the lines (R53). -/
def State.OnlyLight (s t : State) : Prop :=
  t = { s with
    circuits := t.circuits, bindings := t.bindings, scenes := t.scenes, repeats := t.repeats, lineA := t.lineA,
    lineB := t.lineB } ∧
  t.lineA.withoutHoldings = s.lineA.withoutHoldings ∧ t.lineB.withoutHoldings = s.lineB.withoutHoldings

/-- Every contribution of a scene lies on a circuit of its entries. -/
def State.WithinEntries (s : State) (n : Nat) (y : Scene) : Prop :=
  ∀ e ∈ s.circuits, (∃ k ∈ e.2.claims, k.origin = .scene n) → e.1 ∈ y.definition.entries.map Prod.fst

/-- A scene holds no contribution any more, and if it held one it has no live tier and no recaller now (R91, R92). -/
def State.SceneEnded (s t : State) (n : Nat) : Prop :=
  t.holds (.scene n) = 0 ∧
  (0 < s.holds (.scene n) → ∃ z, Table.at? t.scenes n = some z ∧ z.liveTier = none ∧ z.recaller = none)

/-- The light of a binding has been released, in the five steps of R53: its contributions, the scenes it recalled, its
repeat, its momentary holdings in the record of its source key, and its captured mark. -/
def State.Released (s t : State) (b : Nat) (x : Binding) : Prop :=
  (∀ e ∈ t.circuits, ∀ k ∈ e.2.claims, k.origin ≠ .binding b) ∧
  (∀ n y, Table.at? s.scenes n = some y → y.recaller = some (.binding b) → s.WithinEntries n y → s.SceneEnded t n) ∧
  (∀ p ∈ t.repeats, p.binding ≠ b) ∧
  (∀ r, t.key? x.record.source = some r → ∀ p ∈ r.holdings, p.1 ≠ b) ∧
  ∀ y, Table.at? t.bindings b = some y → y.captured = false

/-- The circuits after one contribution was placed on each circuit of a list: a circuit of the list is as a placement on it
alone leaves it, and another is unchanged (R6, R66). -/
def State.PlacedOn (s t : State) (ids : List Nat) (k : Contribution) : Prop :=
  ∀ c, Table.at? t.circuits c =
    if c ∈ ids then Table.at? (s.place c k).1.circuits c else Table.at? s.circuits c

/-- A placement on some circuit of a list displaced a contribution of an origin. -/
def State.Displaces (s : State) (ids : List Nat) (k : Contribution) (o : Origin) : Prop :=
  ∃ c ∈ ids, ∃ v, (s.place c k).2 = .appended (some v) ∧ v.origin = o

/-- A scene after placements of another origin: its definition and partial mark stay, its displaced mark is set where it was
displaced, and its live tier and recaller go where that took its last contribution (R9, R11). -/
def Scene.AfterPlacements (y z : Scene) (displaced ended : Prop) : Prop :=
  z.definition = y.definition ∧ z.partialMark = y.partialMark ∧
  (z.displacedMark = true ↔ y.displacedMark = true ∨ displaced) ∧
  (displaced ∧ ended → z.liveTier = none ∧ z.recaller = none) ∧
  (¬ (displaced ∧ ended) → z.liveTier = y.liveTier ∧ z.recaller = y.recaller)

/-- What a firing that places a binding's contribution on each circuit it reaches leaves: the circuits, the judgement of
the binding's marks, the marks of those it displaced, the pairs of the key that holds the contributions, and all the rest
as it was (R66 to R70). -/
def State.Fired (s t : State) (b : Nat) (x : Binding) (ids : List Nat) (k : Contribution) : Prop :=
  s.OnlyLight t ∧ t.repeats = s.repeats ∧ s.PlacedOn t ids k ∧
  ((∃ c ∈ ids, (s.place c k).2 = .refused) → Table.at? t.bindings b = some { x with partialMark := true }) ∧
  ((∀ c ∈ ids, (s.place c k).2 ≠ .refused) → (∃ c ∈ ids, (s.place c k).2 ≠ .unconfigured) →
    Table.at? t.bindings b = some { x with partialMark := false, displacedMark := false }) ∧
  ((∀ c ∈ ids, (s.place c k).2 = .unconfigured) → t = s) ∧
  (∀ i, i ≠ b →
    (s.Displaces ids k (.binding i) → Table.at? t.bindings i =
      (Table.at? s.bindings i).map fun y => { y with displacedMark := true, captured := false }) ∧
    (¬ s.Displaces ids k (.binding i) → Table.at? t.bindings i = Table.at? s.bindings i)) ∧
  (∀ n, Table.at? s.scenes n = none → Table.at? t.scenes n = none) ∧
  (∀ n y, Table.at? s.scenes n = some y → ∃ z, Table.at? t.scenes n = some z ∧
    y.AfterPlacements z (s.Displaces ids k (.scene n)) (t.holds (.scene n) = 0)) ∧
  (k.heldBy = none → t.lineA = s.lineA ∧ t.lineB = s.lineB) ∧
  (∀ key, k.heldBy ≠ some key → t.key? key = s.key? key) ∧
  ∀ key r, k.heldBy = some key → s.key? key = some r → ∃ pairs, t.key? key = some { r with holdings := pairs } ∧
    ∀ p, p ∈ pairs ↔
      p ∈ r.holdings ∨ ∃ c ∈ ids, p = (b, c) ∧ (s.place c k).2 ≠ .refused ∧ (s.place c k).2 ≠ .unconfigured

/-- What the loss of keys leaves of the light they held: the contributions their holdings named gone, with the circuits that
lost one resolved, and every other contribution as it was; their repeats gone, and the captured marks of the bindings on a
source that is lost (R72, R80, R98, R106). -/
def State.KeysLost (s t : State) (lost source : StationInput → Prop) : Prop :=
  let goes (c : Nat) (k : Contribution) : Prop := ∃ key r b,
    lost key ∧ s.key? key = some r ∧ k.heldBy = some key ∧ k.origin = .binding b ∧ (b, c) ∈ r.holdings
  (t.repeats.Sublist s.repeats ∧ ∀ p ∈ s.repeats, p ∈ t.repeats ↔ ¬ (lost p.key ∧ (s.key? p.key).isSome = true)) ∧
  (∀ b, Table.at? s.bindings b = none → Table.at? t.bindings b = none) ∧
  (∀ b x, Table.at? s.bindings b = some x →
    (source x.record.source → Table.at? t.bindings b = some { x with captured := false }) ∧
    (¬ source x.record.source → Table.at? t.bindings b = some x)) ∧
  ∀ c, (Table.at? s.circuits c = none → Table.at? t.circuits c = none) ∧
    ∀ y, Table.at? s.circuits c = some y → ∃ z, Table.at? t.circuits c = some z ∧ z.config = y.config ∧
      z.claims.Sublist y.claims ∧ (∀ k ∈ y.claims, k ∈ z.claims ↔ ¬ goes c k) ∧
      ((∀ k ∈ y.claims, ¬ goes c k) → z = y) ∧
      ((∃ k ∈ y.claims, goes c k) → z.resolved.winning = winningTier z.claims ∧
        z.resolved.raw = rawValue y.config.rest z.claims)

/-- What treating stations of a line as MISSING leaves: of each of them the key records with their timers stopped, their
holdings empty and their presses marked for a plain release, and what the loss of those keys leaves; every other key, station
and line field as it was, but for the groups that wait (R72, R80, R106, R128). -/
def State.TreatedAsMissing (s t : State) (l : Line) (lost : Nat → Prop) : Prop :=
  let missing (r : KeyRecord) : KeyRecord := { r with
    holdTimer := none, doubleTimer := none, stuckTimer := none, holdings := []
    state := if r.inputClass = .key ∧ r.state = .waitSecond then .up else r.state
    lastUpStamp := if r.inputClass = .key ∧ r.state = .waitSecond then none else r.lastUpStamp
    plainRelease := if r.inputClass = .key ∧ (r.state = .down ∨ r.state = .held) then true else r.plainRelease
    downStamp := if r.inputClass = .key ∧ (r.state = .down ∨ r.state = .held) then none else r.downStamp }
  (∀ l', t.unit l' = { s.unit l' with stations := (t.unit l').stations, waiting := (t.unit l').waiting }) ∧
  (∀ l' a, l' ≠ l ∨ ¬ lost a → t.station? l' a = s.station? l' a) ∧
  (∀ a, lost a → s.station? l a = none → t.station? l a = none) ∧
  (∀ a st, lost a → s.station? l a = some st → ∃ keys, t.station? l a = some { st with keys := keys } ∧
    ∀ i, Table.at? keys i = (Table.at? st.keys i).map missing) ∧
  s.KeysLost t (fun key => key.line = l ∧ lost key.address)
    fun key => key.line = l ∧ lost key.address ∧ ∃ i, (s.key? ⟨l, key.address, i⟩).isSome = true

/-- What discarding the key records of a station leaves: it has none, what their loss leaves, and no other station's record
changed (R72, R80, R98). -/
def State.KeysDiscarded (s t : State) (l : Line) (a : Nat) : Prop :=
  (∀ st, t.station? l a = some st → st.keys = []) ∧ (∀ l' a', l' ≠ l ∨ a' ≠ a → t.station? l' a' = s.station? l' a') ∧
  s.KeysLost t (fun key => key.line = l ∧ key.address = a) fun key => key.line = l ∧ key.address = a

/-- A key record at its station's return: the stuck timer of a key in DOWN or HELD runs again with the full limit, in seconds
(R106). -/
def KeyRecord.returned (stuck : Nat) (r : KeyRecord) : KeyRecord :=
  if r.inputClass = .key ∧ (r.state = .down ∨ r.state = .held) then { r with stuckTimer := some (stuck * 1000) } else r

/-- The key records a station is given when it is first ONLINE: one for each input of its kind, of the class R98 lists, and
all of them UP, with nothing held, timed or known (R97, R98). -/
def StationSetup.firstKeys (setup : StationSetup) : Table KeyRecord :=
  let created (c : InputClass) (i : Nat) : Nat × KeyRecord := (i, ⟨c, .up, false, none, none, none, none, none, none, []⟩)
  match setup with
  | .keypad => [1, 2, 3, 4, 5, 6, 7, 8, 9, 10, 11, 12].map (created .key)
  | .fader => [1, 2, 3, 4].map (created .fader) ++ [5, 6, 7, 8].map (created .key)
  | .contact _ _ => [1, 2, 3, 4, 5, 6, 7, 8].map (created .contact)

/-- What a recall of a scene at a tier for a recaller leaves: on the circuit of each entry what the placement of its
contribution alone leaves, no other circuit touched, the displaced bindings and scenes marked, and the scene's marks, live
tier and recaller as R88 and R90 judge them. -/
def State.Recalled (s t : State) (n : Nat) (y : Scene) (tier : Nat) (r : Recaller) : Prop :=
  let d := y.definition
  let claim (level : Nat) : Contribution := ⟨.scene n, tier, level, d.fadeIn, d.fadeOut, some r, none, false⟩
  let refused : Prop := ∃ e ∈ d.entries, (s.place e.1 (claim e.2)).2 = .refused
  let displaced (o : Origin) : Prop :=
    ∃ e ∈ d.entries, ∃ v, (s.place e.1 (claim e.2)).2 = .appended (some v) ∧ v.origin = o
  s.OnlyClaims t ∧
  (∀ e ∈ d.entries, Table.at? t.circuits e.1 = Table.at? (s.place e.1 (claim e.2)).1.circuits e.1) ∧
  (∀ c, c ∉ d.entries.map Prod.fst → Table.at? t.circuits c = Table.at? s.circuits c) ∧
  (∀ b, (displaced (.binding b) → Table.at? t.bindings b =
      (Table.at? s.bindings b).map fun x => { x with displacedMark := true, captured := false }) ∧
    (¬ displaced (.binding b) → Table.at? t.bindings b = Table.at? s.bindings b)) ∧
  (Table.InOrder s.circuits → ∀ m, m ≠ n →
    (Table.at? s.scenes m = none → Table.at? t.scenes m = none) ∧
    ∀ w, Table.at? s.scenes m = some w → ∃ z, Table.at? t.scenes m = some z ∧
      w.AfterPlacements z (displaced (.scene m)) (t.holds (.scene m) = 0)) ∧
  ∃ z, Table.at? t.scenes n = some z ∧ z.definition = d ∧
    (refused → z.partialMark = true ∧ z.displacedMark = y.displacedMark) ∧
    (¬ refused → z.partialMark = false ∧
      (z.displacedMark = true ↔ y.displacedMark = true ∧ t.holds (.scene n) ≠ d.entries.length)) ∧
    (0 < t.holds (.scene n) → z.liveTier = some tier ∧ z.recaller = some r) ∧
    (t.holds (.scene n) = 0 → z.liveTier = none ∧ z.recaller = none)

/-- What a rewrite of a live scene to a new definition leaves: on the circuit of each entry that is new or changed what the
placement of its contribution alone leaves, on each circuit dropped what the removal alone leaves, no other circuit touched,
the displaced bindings and scenes marked, and the scene's marks, live tier and recaller (R90, R93). -/
def State.Rewritten (s t : State) (n : Nat) (y : Scene) (d : SceneDef) : Prop :=
  let old := y.definition
  let kept (e : Nat × Nat) : Prop := e ∈ old.entries ∧ old.fadeIn = d.fadeIn ∧ old.fadeOut = d.fadeOut
  let claim (level : Nat) : Contribution :=
    ⟨.scene n, y.liveTier.getD 0, level, d.fadeIn, d.fadeOut, y.recaller, none, false⟩
  let placed : Prop := ∃ e ∈ d.entries, ¬ kept e
  let refused : Prop := ∃ e ∈ d.entries, ¬ kept e ∧ (s.place e.1 (claim e.2)).2 = .refused
  let displaced (o : Origin) : Prop :=
    ∃ e ∈ d.entries, ¬ kept e ∧ ∃ v, (s.place e.1 (claim e.2)).2 = .appended (some v) ∧ v.origin = o
  (∀ e ∈ d.entries, kept e → Table.at? t.circuits e.1 = Table.at? s.circuits e.1) ∧
  (∀ e ∈ d.entries, ¬ kept e → Table.at? t.circuits e.1 = Table.at? (s.place e.1 (claim e.2)).1.circuits e.1) ∧
  (∀ c, c ∉ d.entries.map Prod.fst → Table.at? t.circuits c =
    if c ∈ old.entries.map Prod.fst then Table.at? (s.remove true (.scene n) c).circuits c else Table.at? s.circuits c) ∧
  (∀ b, (displaced (.binding b) → Table.at? t.bindings b =
      (Table.at? s.bindings b).map fun x => { x with displacedMark := true, captured := false }) ∧
    (¬ displaced (.binding b) → Table.at? t.bindings b = Table.at? s.bindings b)) ∧
  (Table.InOrder s.circuits → ∀ m, m ≠ n →
    (Table.at? s.scenes m = none → Table.at? t.scenes m = none) ∧
    ∀ w, Table.at? s.scenes m = some w → ∃ z, Table.at? t.scenes m = some z ∧
      w.AfterPlacements z (displaced (.scene m)) (t.holds (.scene m) = 0)) ∧
  ∃ z, Table.at? t.scenes n = some z ∧ z.definition = d ∧
    (refused → z.partialMark = true ∧ z.displacedMark = y.displacedMark) ∧
    (placed → ¬ refused → z.partialMark = false ∧
      (z.displacedMark = true ↔ y.displacedMark = true ∧ t.holds (.scene n) ≠ d.entries.length)) ∧
    (¬ placed → z.partialMark = y.partialMark ∧ z.displacedMark = y.displacedMark) ∧
    (0 < t.holds (.scene n) → z.liveTier = y.liveTier ∧ z.recaller = y.recaller) ∧
    (t.holds (.scene n) = 0 → z.liveTier = none ∧ z.recaller = none)

/-- What a master change of a configured zone to a value leaves: nothing where that is the present master, and otherwise the
new master, each member resolved with the fade by it, and the captured marks of the FOLLOW_MASTER bindings on the zone
cleared but for that of its maker (R20, R22). -/
def State.MasterChanged (s t : State) (z : Nat) (zone : Zone) (value fade : Nat) (maker : Option Nat) : Prop :=
  (value = zone.master → t = s) ∧
  (value ≠ zone.master → t = { s with zones := t.zones, circuits := t.circuits, bindings := t.bindings } ∧
    (∀ i, Table.at? t.zones i = if i = z then some { zone with master := value } else Table.at? s.zones i) ∧
    (∀ c, Table.at? t.circuits c = (Table.at? s.circuits c).map fun x =>
      if x.config.zone = some z then x.resolve (some value) fade else x) ∧
    ∀ b, Table.at? t.bindings b = (Table.at? s.bindings b).map fun x =>
      if x.record.action = .followMaster z ∧ maker ≠ some b then { x with captured := false } else x)

/-! ## Invariants -/

/-- A contribution list as R6 has it: at most 8 claims, no two of one origin. -/
def ListSound (claims : List Contribution) : Prop :=
  claims.length ≤ Config.listLimit ∧ (claims.map (·.origin)).Nodup

/-- Every circuit's contribution list is as R6 has it. -/
def State.ListsSound (s : State) : Prop := ∀ e ∈ s.circuits, ListSound e.2.claims

/-- The block timer of every circuit runs in BLOCK and in no other phase (R24). -/
def State.BlockTimersSound (s : State) : Prop :=
  ∀ e ∈ s.circuits, (e.2.transition.phase = .block ↔ e.2.transition.blockTimer.isSome = true)

/-- The tables of an image are in order, and its configured racks rise strictly (R170). -/
def Image.TablesInOrder (i : Image) : Prop :=
  Table.InOrder i.circuits ∧ Table.InOrder i.zones ∧ Table.InOrder i.bindings ∧ Table.InOrder i.scenes ∧
    Table.InOrder i.groups ∧ i.racks.Pairwise (· < ·) ∧ Table.InOrder i.lineA.stations ∧ Table.InOrder i.lineB.stations

/-- The stations of a line are in order, and so are the key records of each and the groups that wait (R97, R117, R120). -/
def LineUnit.TablesInOrder (u : LineUnit) : Prop :=
  Table.InOrder u.stations ∧ (∀ e ∈ u.stations, Table.InOrder e.2.keys) ∧ u.waiting.Pairwise (· < ·)

/-- Every table of records is in order, and so are those of the image and of the copy being saved. -/
def State.TablesInOrder (s : State) : Prop :=
  Table.InOrder s.circuits ∧ Table.InOrder s.zones ∧ Table.InOrder s.bindings ∧ Table.InOrder s.scenes ∧
    s.lineA.TablesInOrder ∧ s.lineB.TablesInOrder ∧ Table.InOrder s.groups ∧ Table.InOrder s.racks ∧
    (∀ i, s.image = some i → i.TablesInOrder) ∧ ∀ i, s.saving = some i → i.TablesInOrder

/-- A TRANSFER circuit has a relay flag; another has its house feed alone, and no part of a transfer (R24, R31). -/
def State.FeedsSound (s : State) : Prop :=
  ∀ e ∈ s.circuits,
    (e.2.config.kind = .transfer → e.2.transition.relay.isSome = true) ∧
    (e.2.config.kind ≠ .transfer → e.2.transition.feed = .house ∧ e.2.transition.pendingTransfer = none ∧
      e.2.transition.relay = none ∧ e.2.transition.phase.inTransfer = false)

end Sys2Proof.Machine
end

