-- ==== Sys2Proof/Certificates/Slice0/Obligations.lean ====
section
/-! DEFINITION. The statements about the model, for the provers. -/

open Sys2Proof Sys2Proof.Machine

/-- For a state whose queue is c followed by rest, the step is exec of c on that state with the queue rest. With an empty
queue, and while a reset lasts, the step changes nothing; in a running part every timer that runs, namely the panic,
step and round timers, the block timers, the repeat timers, the reply window, and on both lines the heal, probe and
listen timers, the answer window and the hold, double and stuck timers of the keys, has one millisecond less to run
but never less than 1, and nothing else changes. The queue and the idle millisecond are the model's choice (log
entries 2 and 3). (spec/00 section 1.2, R160, R25, R33, R79, R97, R116, R127, R144, R150, log entry 2, log entry 3) -/
def Obligations.StepTakesTheFrontOrAMillisecond : Prop :=
  ∀ s : State,
    (∀ (c : Instr) (rest : List Instr), s.pending = c :: rest → step s = exec c (s.withPending rest)) ∧
    (s.pending = [] → s.power ≠ .running → step s = .next s) ∧
    (s.pending = [] → s.power = .running →
      let down (t : Option Nat) : Option Nat := t.map fun n => max 1 (n - 1)
      let key (r : KeyRecord) : KeyRecord := { r with
        holdTimer := down r.holdTimer, doubleTimer := down r.doubleTimer, stuckTimer := down r.stuckTimer }
      let line (u : LineUnit) : LineUnit := { u with
        healTimer := down u.healTimer, probeTimer := down u.probeTimer, listen := down u.listen
        slot := u.slot.map fun x => { x with window := down x.window }
        stations := u.stations.map fun e => (e.1, { e.2 with keys := e.2.keys.map fun k => (k.1, key k.2) }) }
      step s = .next { s with
        panicTimer := down s.panicTimer, stepTimer := down s.stepTimer, roundTimer := down s.roundTimer
        circuits := s.circuits.map fun e => (e.1, { e.2 with
          transition := { e.2.transition with blockTimer := down e.2.transition.blockTimer } })
        repeats := s.repeats.map fun r => { r with timer := max 1 (r.timer - 1) }
        rackSlot := s.rackSlot.map fun x => { x with window := down x.window }
        lineA := line s.lineA, lineB := line s.lineB })

/-- For every command and every state there is a next state that exec answers, and its queue of waiting commands is
unchanged: the part never stops. That the commands wait in a queue is the model's choice (log entry 3), and so is that
an event which cannot occur in a state changes nothing there (log entry 1). (spec/00 section 1.3, R160, R161, log
entry 1, log entry 3) -/
def Obligations.EveryCommandCompletesAndKeepsTheQueue : Prop :=
  ∀ (c : Instr) (s : State), ∃ t : State, exec c s = .next t ∧ t.pending = s.pending

/-- While a reset lasts, every command but the resets, start-up and the PANIC input changes nothing: a transfer is ignored
without setting the collision flag, and no event has an effect. In a running part whose slot is not IDLE, every
request of the catalogue and every malformed request transfer is discarded: zeros were shifted out, the collision flag
is set, and nothing else changes (the request in work, the answer slot and READY among it). With the slot IDLE, a
request transfer whose header is incomplete is answered BAD_REQUEST at once, with tag echo 0 where no tag byte
arrived; so is one whose code is none of the catalogue, and one whose length exceeds 250 or differs from the number of
body bytes received. A request whose body has not the length that its rule, or R161 where the rule names no check of
it, asks for (Identify, ReadAttention, ReadNotified, LockHouse, EraseHouse, ReadMode, ClearEgress, Restart: 0 bytes;
ReadZone, ReadScene, DeleteScene, ReleaseScene, ReadGroupResult, Survey, LineRestart, ReadLine, SetMode, ReadRack: 1;
UnconfigureCircuit, ReadCircuit, ReleaseHostLevel, ReadBinding, RetireBinding, SuspendBinding, ResumeBinding,
RecallScene, RemoveStation, ReadStation, SendGroupLamp, LineControl, SelectEnd: 2; SetMaster: 3; SetHostLevel: 7;
FireBinding: 2, or 4 with a position) is answered BAD_REQUEST for any other length, before its owner's checks. Nothing
else changes, but that the INSTALL level is recorded, with the five judged by it, which is the model's choice (log
entry 5). R173 speaks of what a reset sends and of transfers; that no other event acts in a reset either is the
model's choice (log entries 1 and 2). (R160, R161, R173, R176, R57, R165, R167, R169, log entry 1, log entry 2, log
entry 5) -/
def Obligations.WhenRequestsAreNotTaken : Prop :=
  ∀ s : State,
    (∀ c : Instr, s.power ≠ .running → actsInReset c = false → exec c s = .next s) ∧
    (s.power = .running → s.hostSlot ≠ .idle →
      (∀ c tag body, requestParts c = some (tag, body) →
        exec c s = .next { s with sdo := List.replicate (3 + body.length) 0, collision := true }) ∧
      (∀ install code rest, code ≠ (0xA5 : Byte) →
        exec (.requestTransferMalformed install (code :: rest)) s =
          .next { s with sdo := List.replicate (1 + rest.length) 0, collision := true })) ∧
    (∀ (install : Bool) (tag : Byte) (body : List Byte), s.TakesRequests → body.length ≤ 250 →
      let seen : State := { s with installInput := install }
      let refused (c : Instr) : Prop := exec c s = .next (s.answered body.length tag .badRequest false [])
      let refusedSeen (c : Instr) : Prop := exec c s = .next (seen.answered body.length tag .badRequest false [])
      (body.length ≠ 0 → (∀ c ∈ [Instr.identify tag body, .readAttention tag body, .readNotified tag body,
          .readMode tag body, .clearEgress tag body, .restart tag body], refused c) ∧
        ∀ c ∈ [Instr.lockHouse install tag body, .eraseHouse install tag body], refusedSeen c) ∧
      (body.length ≠ 1 → ∀ c ∈ [Instr.readZone tag body, .readScene tag body, .deleteScene tag body,
        .releaseScene tag body, .readGroupResult tag body, .survey tag body, .lineRestart tag body, .readLine tag body,
        .setMode tag body, .readRack tag body], refused c) ∧
      (body.length ≠ 2 → (∀ c ∈ [Instr.unconfigureCircuit tag body, .readCircuit tag body, .releaseHostLevel tag body,
          .readBinding tag body, .recallScene tag body, .removeStation tag body, .readStation tag body,
          .sendGroupLamp tag body, .lineControl tag body, .selectEnd tag body], refused c) ∧
        ∀ c ∈ [Instr.retireBinding install tag body, .suspendBinding install tag body, .resumeBinding install tag body],
          refusedSeen c) ∧
      (body.length ≠ 3 → refused (.setMaster tag body)) ∧ (body.length ≠ 7 → refused (.setHostLevel tag body)) ∧
      (body.length ≠ 2 → body.length ≠ 4 → refused (.fireBinding tag body))) ∧
    ∀ (install : Bool) (code : Byte), s.TakesRequests → code ≠ 0xA5 →
      exec (.requestTransferMalformed install [code]) s =
        .next { s with sdo := [0], hostSlot := .answerReady ⟨0, .badRequest, false, []⟩ } ∧
      (∀ tag, exec (.requestTransferMalformed install [code, tag]) s =
        .next { s with sdo := [0, 0], hostSlot := .answerReady ⟨tag, .badRequest, false, []⟩ }) ∧
      (∀ tag length body,
        requestOf install code.toNat = none ∨ 250 < length.toNat ∨ body.length ≠ length.toNat →
        exec (.requestTransferMalformed install (code :: tag :: length :: body)) s =
          .next (s.answered body.length tag .badRequest false []))

/-- In a running part, a Fetch with n bytes clocked after its code. The link status byte holds the collision flag in bit
7, the slot state (IDLE 0, WORKING 1, ANSWER_READY 2) in bits 6 and 5, and attention in bit 4. With an answer waiting,
whose frame is link status, tag, result, note flags, length and body: if all of it is clocked the frame and zeros
beyond it go out, the slot becomes IDLE; if less, that much of it goes out and the slot stays. With none waiting, an
empty frame goes out: tag echo 0, result NONE, no note flags, length 0. Where at least the link status goes out the
collision flag is cleared. Nothing else changes. Zeros beyond an empty frame (log entry 34) and in bits 7 to 1 of the
note flags (log entry 40) are the model's choices, and so is what SDO holds in a Fetch of no byte (log entry 26).
(R162, R163, spec/12 section 12.3, log entry 26, log entry 34, log entry 40) -/
def Obligations.FetchDeliversTheAnswer : Prop :=
  ∀ (s : State) (n : Nat), s.power = .running →
    (s.linkStatus.getLsbD 7 = s.collision ∧ s.linkStatus.getLsbD 4 = decide (s.notices ≠ .empty) ∧
      s.linkStatus.extractLsb' 5 2 = (match s.hostSlot with | .idle => 0 | .working _ => 1 | .answerReady _ => 2) ∧
      s.linkStatus.extractLsb' 0 4 = 0) ∧
    (∀ a : Answer, s.hostSlot = .answerReady a →
      let frame := [s.linkStatus, a.tag, a.result.code, flagByte a.clamped, byteOf a.body.length] ++ a.body
      (frame.length ≤ n → exec (.fetch n) s = .next
        { s with sdo := frame ++ List.replicate (n - frame.length) 0, collision := false, hostSlot := .idle }) ∧
      (0 < n → n < frame.length → exec (.fetch n) s = .next { s with sdo := frame.take n, collision := false })) ∧
    ((∀ a, s.hostSlot ≠ .answerReady a) → 0 < n → exec (.fetch n) s = .next
      { s with sdo := ([s.linkStatus, 0, 255, 0, 0] ++ List.replicate (n - 5) 0).take n, collision := false }) ∧
    (n = 0 → exec (.fetch n) s = .next { s with sdo := [] })

/-- Identify with an empty body is answered OK with the part identifier 2560, the revision 1, the code of the reset cause
recorded at the last start-up and the code of the image state, and nothing else changes. A body of any other length is
answered BAD_REQUEST. The code of the image state is a free value (log entry 8); two bytes for the part identifier and
one for the revision are the model's choice (log entry 10). (R165, log entry 8, log entry 10) -/
def Obligations.IdentifyAnswers : Prop :=
  ∀ (s : State) (tag : Byte) (body : List Byte), s.TakesRequests → body.length ≤ 250 →
    exec (.identify tag body) s = .next (
      if body = [] then
        s.answered 0 tag .ok false [0x0A, 0x00, 1,
          (match s.resetCause with | .power => 0 | .pin => 1 | .request => 2),
          (match s.image with | some _ => Config.openCode .imageValid | none => Config.openCode .imageInvalid)]
      else s.answered body.length tag .badRequest false [])

/-- ReadAttention with an empty body, whether or not a save runs, is answered OK with the members of the notice set as
they stand, in two bytes of which bit i is the member of code i; the set is emptied and ATTN is low. A body of any
other length is answered BAD_REQUEST. A raise taken first is in the answer and leaves the set empty; a raise taken
afterwards is not in the answer, which stays as it is, but in the set, and ATTN and READY are high. (R169) -/
def Obligations.ReadAttentionTakesTheSet : Prop :=
  ∀ (s : State) (tag : Byte) (body : List Byte), s.TakesRequests → body.length ≤ 250 →
    (body ≠ [] → exec (.readAttention tag body) s = .next (s.answered body.length tag .badRequest false [])) ∧
    ∃ hi lo : Byte,
      (∀ n : Notice, s.notices.has n = (match n with
        | .stations => lo.getLsbD 0 | .lines => lo.getLsbD 1 | .racks => lo.getLsbD 2 | .faults => lo.getLsbD 3
        | .stuck => lo.getLsbD 4 | .notify => lo.getLsbD 5 | .mode => lo.getLsbD 6 | .egress => lo.getLsbD 7
        | .group => hi.getLsbD 0 | .image => hi.getLsbD 1)) ∧ hi.toNat < 4 ∧
      exec (.readAttention tag []) s = .next ({ s with notices := .empty }.answered 0 tag .ok false [hi, lo]) ∧
      ({ s with notices := .empty }.answered 0 tag .ok false [hi, lo]).attn = false ∧
      (∀ n : Notice,
        (∃ hi' lo' : Byte, exec (.readAttention tag []) (s.raise n) =
            .next ({ s with notices := .empty }.answered 0 tag .ok false [hi', lo']) ∧
          (match n with
            | .stations => lo'.getLsbD 0 | .lines => lo'.getLsbD 1 | .racks => lo'.getLsbD 2 | .faults => lo'.getLsbD 3
            | .stuck => lo'.getLsbD 4 | .notify => lo'.getLsbD 5 | .mode => lo'.getLsbD 6 | .egress => lo'.getLsbD 7
            | .group => hi'.getLsbD 0 | .image => hi'.getLsbD 1) = true) ∧
        let after := ({ s with notices := .empty }.answered 0 tag .ok false [hi, lo]).raise n
        (∀ m, after.notices.has m = decide (m = n)) ∧ after.attn = true ∧ after.ready = true ∧
          after.hostSlot = .answerReady ⟨tag, .ok, false, [hi, lo]⟩)

/-- POWER_RESET leads to a reset of cause POWER, and PIN_RESET to one of cause PIN but in a power reset, which stays as it
is: the slot is IDLE, the collision flag and the notice set are clear, READY and ATTN are low, no slot is in progress
on a line or the rack link, a running save has ended, and nothing else changes. Restart with an empty body, taken in
IDLE, leads to the state that a power reset and its start-up lead to but for the cause, which is REQUEST, and the
bytes shifted out; no answer is placed: the slot is IDLE, READY is low and a Fetch returns an empty frame. With
another body it is answered BAD_REQUEST. That Restart includes its start-up at once, and that a pin reset leaves the
cause POWER in a power reset, is the model's reading (log entry 6). (R159, R167, R172, R173, log entry 6) -/
def Obligations.ResetsBeginAndEnd : Prop :=
  ∀ s : State,
    let silent (cause : ResetCause) : State := { s with
      power := .inReset cause, hostSlot := .idle, collision := false, notices := .empty, saving := none, rackSlot := none,
      lineA := { s.lineA with slot := none }, lineB := { s.lineB with slot := none } }
    exec .powerReset s = .next (silent .power) ∧
    (s.power ≠ .inReset .power → exec .pinReset s = .next (silent .pin)) ∧
    (s.power = .inReset .power → exec .pinReset s = .next s) ∧
    (∀ cause, (silent cause).ready = false ∧ (silent cause).attn = false) ∧
    ∀ tag body, s.TakesRequests → body.length ≤ 250 →
      (body ≠ [] → exec (.restart tag body) s = .next (s.answered body.length tag .badRequest false [])) ∧
      ∃ u t, exec .startUp (silent .power) = .next u ∧ exec (.restart tag []) s = .next t ∧
        t = { u with resetCause := .request, sdo := [0, 0, 0] } ∧ t.hostSlot = .idle ∧ t.ready = false ∧
        ∃ v, exec (.fetch 5) t = .next v ∧ v.sdo = [t.linkStatus, 0, 255, 0, 0]

/-- From a reset of any cause, START_UP runs the part with that cause recorded; the items of R170 come from the image, or
are empty, 0, clear, 600 ms, 400 ms, 120 s, 3 s, WORK, A and ON where it is invalid, when IMAGE alone is in the notice
set; every list of claims, every mark, repeat, live tier and delivery is clear; the latch, the filtered PANIC and the
collision flag are clear, the slot is IDLE; each loaded circuit is at drive level 0 with output 0 on the feed its kind
and the start mode give, resolved with the start fade; a circuit or zone the image does not configure has its
unconfigured record; stations are EXPECTED, lines INTACT on the preferred end or OFF, with no waiting group, probe
list or Continuity asked for, the turn POLLED and the next polled address 1, racks WAITING or ABSENT; the step timer,
the round timer, the probe timers of the lines that run, and the PANIC filter timer if PANIC is asserted run, and the
first round begins with the lowest configured rack. The fade fields of a circuit not in a fade are the model's choice
(log entry 41), and so is the preferred end in use (log entry 16). (R174, R175, R170, R1, R24, R125, R18, R120, R133,
log entry 16, log entry 41) -/
def Obligations.StartUpLoadsAndClears : Prop :=
  ∀ (s : State) (cause : ResetCause), s.power = .inReset cause →
    let i := s.image.getD .blank
    ∃ t : State, exec .startUp s = .next t ∧
      t.power = .running ∧ t.resetCause = cause ∧ t.image = s.image ∧ t.saving = none ∧
      t.notices = { NoticeSet.empty with image := s.image.isNone } ∧ t.hostSlot = .idle ∧ t.collision = false ∧
      t.settings = i.settings ∧ t.protectSize = i.protectSize ∧ t.houseLock = i.houseLock ∧ t.zones = i.zones ∧
      t.mode = i.settings.startMode ∧ t.requiredFeed = i.settings.startMode.requires ∧
      t.latch = false ∧ t.latchCopy = false ∧ t.panicFiltered = false ∧
      t.panicTimer = (if s.panicInput then some 50 else none) ∧ t.stepTimer = some 20 ∧ t.roundTimer = some 40 ∧
      t.repeats = [] ∧ t.offered = none ∧ t.rackSlot.map (·.rack) = [1, 2, 3, 4, 5, 6, 7, 8].find? i.racks.contains ∧
      (∀ c, Table.at? t.circuits c = (Table.at? i.circuits c).map fun cfg =>
        Circuit.resolve (cfg.zone.map fun z => ((Table.at? i.zones z).map (·.master)).getD 1000) i.settings.startFade
          { config := cfg, claims := [], resolved := ⟨none, cfg.rest, cfg.rest, false⟩,
            transition := Transition.fresh cfg.kind i.settings.startMode.requires }) ∧
      (∀ c, Table.at? i.circuits c = none → t.circuitRecord c = .unconfigured) ∧
      (∀ z, Table.at? i.zones z = none → t.zoneRecord z = .unconfigured) ∧
      (∀ b, Table.at? t.bindings b = (Table.at? i.bindings b).map fun r => ⟨r, false, false, false, false⟩) ∧
      (∀ n, Table.at? t.scenes n = (Table.at? i.scenes n).map fun d => ⟨d, none, none, false, false⟩) ∧
      (∀ g, Table.at? t.groups g = if 1 ≤ g ∧ g ≤ 15 then some ⟨(Table.at? i.groups g).getD [], .off, 7, none⟩ else none) ∧
      (∀ r, Table.at? t.racks r = if 1 ≤ r ∧ r ≤ 8 then
        some ⟨if i.racks.contains r then .waiting else .absent, 0, none, 0, none⟩ else none) ∧
      ∀ l, let stored := match l with | .a => i.lineA | .b => i.lineB
        let u := t.unit l
        u.state = (if stored.on then .intact else .off) ∧ u.preferred = stored.preferred ∧ u.active = stored.preferred ∧
        u.continuity = 0 ∧ u.healTimer = none ∧ u.takenOver = false ∧ u.listen = none ∧ u.slot = none ∧ u.survey = none ∧
        u.preferredInUse = stored.preferred ∧ u.waiting = [] ∧ u.probeList = [] ∧ u.turn = .polled ∧ u.nextPolled = 1 ∧
        u.continuityAsked = false ∧
        u.probeTimer = (if stored.on then some 1000 else none) ∧
        ∀ a, Table.at? u.stations a = (Table.at? stored.stations a).map fun setup => ⟨setup, .expected, none, 0, 0, false, false,
          (match setup.kind with
            | .keypad => [1, 2, 3, 4, 5, 6, 7, 8, 9, 10, 11, 12] | .fader => [5, 6, 7, 8] | .contact => []).map
              fun k => ⟨k, .off, none⟩, []⟩

/-- From a reset of cause POWER with an INVALID image and PANIC not asserted, START_UP answers State.reset, but for what
no reset touches: the bytes last shifted out, the INSTALL input, the model's counter of free choices and its queue.
That State.reset stands for this case is the model's choice (log entry 4). In State.reset every circuit is
unconfigured, with the values R1 and R24 give it, and every zone, with master 1000 and master fade 2. State.reset has
sound contribution lists, tables in order, block timers and feeds as the invariants have them, the house lock clear
and no command waiting. (R173, R174, R175, R170, R6, R24, R43, R62, log entry 4, R1, R18) -/
def Obligations.ResetStateIsAfterPowerReset : Prop :=
  (∀ s : State, s.power = .inReset .power → s.image = none → s.panicInput = false →
    exec .startUp s = .next { State.reset with
      sdo := s.sdo, installInput := s.installInput, freeUses := s.freeUses, pending := s.pending }) ∧
  (∀ c, State.reset.circuitRecord c = {
    configured := false, kind := .dimmed, house := none, stage := none, zone := none, minTrim := 0, maxTrim := 1000,
    threshold := 500, rest := 0, downslope := 10, block := 500, upslope := 10, audience := false, egress := false,
    claims := [], resolved := { winning := none, raw := 0, target := 0, hostDisplaced := false }
    transition := {
      level := 0, phase := .steady, target := 0, egressFlag := false, origin := 0, fadeEnd := 0, stepCount := 0,
      stepTotal := 1, blockTimer := none, feed := .house, pendingTransfer := none, relay := none, output := 0 } }) ∧
  (∀ z, State.reset.zoneRecord z = ⟨1000, 2⟩) ∧
  State.reset.ListsSound ∧ State.reset.TablesInOrder ∧ State.reset.BlockTimersSound ∧ State.reset.FeedsSound ∧
  State.reset.houseLock = false ∧ State.reset.pending = []

/-- For every contribution list, oldest first, and every rest level: the winning tier is NONE exactly when no contribution
is not dormant, and otherwise the highest tier of those. With NONE the raw value is the rest level; with tier 0 it is
the greatest level of the tier-0 contributions that are not dormant; with tier 1 or 2 it is the level of the newest
such contribution of the tier; with tier 3 it is 1000. (R14) -/
def Obligations.WinningTierAndRawValue : Prop :=
  ∀ (claims : List Contribution) (rest : Nat),
    (winningTier claims = none ↔ ∀ k ∈ claims, k.dormant = true) ∧
    (∀ w, winningTier claims = some w ↔
      (∃ k ∈ claims, k.dormant = false ∧ k.tier = w) ∧ ∀ k ∈ claims, k.dormant = false → k.tier ≤ w) ∧
    (winningTier claims = none → rawValue rest claims = rest) ∧
    (winningTier claims = some 0 →
      (∃ k ∈ claims, k.dormant = false ∧ k.tier = 0 ∧ rawValue rest claims = k.level) ∧
      ∀ k ∈ claims, k.dormant = false → k.tier = 0 → k.level ≤ rawValue rest claims) ∧
    (∀ w, winningTier claims = some w → w = 1 ∨ w = 2 →
      ∃ older k newer, claims = older ++ k :: newer ∧ k.dormant = false ∧ k.tier = w ∧ rawValue rest claims = k.level ∧
        ∀ x ∈ newer, x.dormant = false → x.tier ≠ w) ∧
    (winningTier claims = some 3 → rawValue rest claims = 1000)

/-- A resolution of a circuit with the master of its zone (or none) and a fade: the resolved record takes the winning tier
and the raw value of its list; the target is 1000 for EGRESS, else the raw value scaled by the master, rounded down,
or the raw value with no zone; configuration, claims and host-displaced flag stay. Where the raw value and the master
are at most 1000, so is the target. The Transition Unit takes the target, whether EGRESS won, and the fade. (R13, R15) -/
def Obligations.ResolutionComputesTheTarget : Prop :=
  ∀ (x : Circuit) (master : Option Nat) (tenths : Nat),
    let w := winningTier x.claims
    let raw := rawValue x.config.rest x.claims
    let y := x.resolve master tenths
    y.config = x.config ∧ y.claims = x.claims ∧ y.resolved.hostDisplaced = x.resolved.hostDisplaced ∧
    y.resolved.winning = w ∧ y.resolved.raw = raw ∧
    (w = some 3 → y.resolved.target = 1000) ∧
    (w ≠ some 3 → master = none → y.resolved.target = raw) ∧
    (w ≠ some 3 → ∀ m, master = some m → y.resolved.target = raw * m / 1000) ∧
    (raw ≤ 1000 → (∀ m, master = some m → m ≤ 1000) → y.resolved.target ≤ 1000) ∧
    y.transition = x.transition.handover x.config y.resolved.target (w == some 3) tenths

/-- A placement of a contribution on a configured circuit x. If x holds a contribution of the same origin it leaves its
place and the new one is the newest. Otherwise, with fewer than 8, it is appended. With 8, if the lowest tier present
is at most its own, the oldest contribution of that tier is taken out and it is appended; if not, the list is
unchanged and it is refused. In each case but the last the dormancy is that of the present mode, the circuit is
resolved with the arrival fade, and no other circuit changes. (R6, R7, R8, R12, R13) -/
def Obligations.PlacementRule : Prop :=
  ∀ (s : State) (c : Nat) (x : Circuit) (new : Contribution), Table.at? s.circuits c = some x →
    let k := { new with dormant := decide (new.tier ≤ 1) && x.config.audience && decide (s.mode = .performance) }
    let placed (claims : List Contribution) : Prop := ∃ flag,
      (∀ o, Table.at? (s.place c new).1.circuits o = if o = c then
        some { ({ x with claims := claims }.resolve (s.masterOf x.config) new.arrival) with
          resolved := { ({ x with claims := claims }.resolve (s.masterOf x.config) new.arrival).resolved with
            hostDisplaced := flag } }
        else Table.at? s.circuits o)
    (∀ older old newer, x.claims = older ++ old :: newer → old.origin = new.origin → (∀ y ∈ older, y.origin ≠ new.origin) →
      (s.place c new).2 = .replaced ∧ placed (older ++ newer ++ [k])) ∧
    ((∀ y ∈ x.claims, y.origin ≠ new.origin) →
      (x.claims.length < 8 → (s.place c new).2 = .appended none ∧ placed (x.claims ++ [k])) ∧
      (8 ≤ x.claims.length → ∀ older victim newer, x.claims = older ++ victim :: newer →
        (∀ y ∈ x.claims, victim.tier ≤ y.tier) → (∀ y ∈ older, y.tier ≠ victim.tier) →
        (victim.tier ≤ new.tier → (s.place c new).2 = .appended (some victim) ∧ placed (older ++ newer ++ [k])) ∧
        (new.tier < victim.tier → (s.place c new).2 = .refused ∧ (s.place c new).1.circuits = s.circuits)))

/-- A placement that displaces a victim: binding b that owned it has its displaced mark set and loses its captured mark;
scene n has its displaced mark set, and if no list holds a contribution of it any more it has no live tier and no
recaller; for HOST the circuit's host-displaced flag is set. A placement refused: the binding or scene it came from
has its partial mark set. In every case no other binding or scene changes, and nothing but circuits, bindings and
scenes changes. (R8, R9, R10, R11) -/
def Obligations.DisplacementMarksTheOwner : Prop :=
  ∀ (s : State) (c : Nat) (new : Contribution),
    let t := (s.place c new).1
    s.OnlyClaims t ∧
    (∀ victim, (s.place c new).2 = .appended (some victim) →
      (∀ b, Table.at? t.bindings b = (Table.at? s.bindings b).map fun x =>
        if victim.origin = .binding b then { x with displacedMark := true, captured := false } else x) ∧
      (∀ n, Table.at? t.scenes n = (Table.at? s.scenes n).map fun x =>
        if victim.origin = .scene n then
          (if t.holds (.scene n) = 0 then { x with displacedMark := true, liveTier := none, recaller := none }
            else { x with displacedMark := true })
        else x) ∧
      (victim.origin = .host → (Table.at? t.circuits c).map (·.resolved.hostDisplaced) = some true)) ∧
    ((s.place c new).2 = .refused →
      (∀ b, Table.at? t.bindings b = (Table.at? s.bindings b).map fun x =>
        if new.origin = .binding b then { x with partialMark := true } else x) ∧
      (∀ n, Table.at? t.scenes n = (Table.at? s.scenes n).map fun x =>
        if new.origin = .scene n then { x with partialMark := true } else x)) ∧
    ((s.place c new).2 = .replaced ∨ (s.place c new).2 = .appended none ∨ (s.place c new).2 = .unconfigured →
      t.bindings = s.bindings ∧ t.scenes = s.scenes)

/-- A removal of an origin from a circuit. If the circuit is not configured, or its list holds no contribution of the
origin, nothing changes. Otherwise that contribution is taken out, the order of the others is kept, the circuit is
resolved with the release fade of the contribution taken, no other circuit changes, and nothing changes but circuits,
bindings and scenes. A FOLLOW binding whose contribution was removed by another party loses its captured mark. (R10,
R11, R13) -/
def Obligations.RemovalResolvesWithTheReleaseFade : Prop :=
  ∀ (s : State) (byOther : Bool) (o : Origin) (c : Nat),
    let t := s.remove byOther o c
    s.OnlyClaims t ∧
    ((∀ x, Table.at? s.circuits c = some x → ∀ k ∈ x.claims, k.origin ≠ o) → t = s) ∧
    (∀ x older k newer, Table.at? s.circuits c = some x → x.claims = older ++ k :: newer → k.origin = o →
      (∀ y ∈ older, y.origin ≠ o) →
      ∀ i, Table.at? t.circuits i = if i = c then
        some ({ x with claims := older ++ newer }.resolve (s.masterOf x.config) k.release) else Table.at? s.circuits i) ∧
    (∀ b, o = .binding b → byOther = true → (∃ x, Table.at? s.circuits c = some x ∧ ∃ k ∈ x.claims, k.origin = o) →
      ∀ i, Table.at? t.bindings i = (Table.at? s.bindings i).map fun x => if i = b then { x with captured := false } else x)

/-- For every state in which each circuit's contribution list holds at most 8 contributions with no two of one origin,
whatever the step, the next state has such lists again. (R6, R8) -/
def Obligations.ListsStayWithinTheirLimits : Prop :=
  ∀ s t : State, s.ListsSound → step s = .next t → t.ListsSound

/-- For every state in which the identifiers of circuits, zones, bindings, scenes, groups, racks, of the stations of both
lines and of the key records of every station rise strictly, as do the groups that wait on each line, and so do those
of circuits, zones, bindings, scenes, groups, configured racks and stations in the image and in the copy being
written, the next state of any step is such again: no identifier ever has two records. (R1, R43, R84, R117, R170,
R120) -/
def Obligations.TablesStayInOrder : Prop :=
  ∀ s t : State, s.TablesInOrder → step s = .next t → t.TablesInOrder

/-- For every state in which the block timer of each configured circuit runs if and only if its phase is BLOCK, the next
state of any step is such again. For every state whose tables are in order, in which each circuit of kind TRANSFER has
a relay flag, and each of another kind has HOUSE as its current feed, no relay flag, no pending transfer and is in
STEADY or FADING, the next state of any step is such again. (R24, R31, R33, R41) -/
def Obligations.TransfersStaySound : Prop :=
  ∀ s t : State, step s = .next t →
    (s.BlockTimersSound → t.BlockTimersSound) ∧ (s.TablesInOrder → s.FeedsSound → t.FeedsSound)

/-- A fade begun at drive level D0 with end E and a time of t tenths holds D0, E, step count 0 and step total the greater
of 1 and 5t. At step k of N its level is D0 plus the quotient (E − D0) × k / N truncated toward zero, which lies
between D0 and E, and at step N it is E. The output level of a SWITCHED circuit is 1000 from the threshold up and 0
below it, whatever the egress flag. For another circuit it is the drive level D under the egress flag, 0 at D = 0, and
else the minimum trim plus floor(D × (maximum − minimum) / 1000); with a minimum below the maximum, a maximum of at
most 1000 and D at most 1000 it is at most 1000, and without the egress flag it is 0 or between the trims. (R26, R28,
R29) -/
def Obligations.FadeAndOutputArithmetic : Prop :=
  ((∀ (t : Transition) (e tenths : Nat),
      let f := t.beginFade e tenths
      f.origin = t.level ∧ f.fadeEnd = e ∧ f.stepCount = 0 ∧ f.stepTotal = max 1 (5 * tenths) ∧ f.level = t.level) ∧
    ∀ d0 e k n : Nat, 0 < n → k ≤ n →
      (d0 ≤ e → fadeLevel d0 e k n = d0 + (e - d0) * k / n) ∧ (e ≤ d0 → fadeLevel d0 e k n = d0 - (d0 - e) * k / n) ∧
      min d0 e ≤ fadeLevel d0 e k n ∧ fadeLevel d0 e k n ≤ max d0 e ∧ fadeLevel d0 e n n = e) ∧
  ∀ (c : CircuitConfig) (t : Transition),
    (c.kind = .switched → outputLevel c t = if c.threshold ≤ t.level then 1000 else 0) ∧
    (c.kind ≠ .switched → t.egressFlag = true → outputLevel c t = t.level) ∧
    (c.kind ≠ .switched → t.egressFlag = false → t.level = 0 → outputLevel c t = 0) ∧
    (c.kind ≠ .switched → t.egressFlag = false → 0 < t.level →
      outputLevel c t = c.minTrim + t.level * (c.maxTrim - c.minTrim) / 1000) ∧
    (c.minTrim < c.maxTrim → c.maxTrim ≤ 1000 → t.level ≤ 1000 → outputLevel c t ≤ 1000 ∧
      (c.kind ≠ .switched → t.egressFlag = false →
        outputLevel c t = 0 ∨ c.minTrim ≤ outputLevel c t ∧ outputLevel c t ≤ c.maxTrim))

/-- A handover of target T with an egress indication and a fade: T and the flag are stored and the output is recomputed.
In STEADY and FADING the circuit is STEADY if T is the drive level, else FADING to T with the fade. In DOWNSLOPE and
BLOCK without EGRESS, and in BLOCK with it, the phase goes on; in DOWNSLOPE with EGRESS the circuit is FADING to T
with the fade and the other feed is pending. In UPSLOPE the upslope restarts to T with the upslope time, or with
EGRESS the circuit is FADING to T with the fade. Feed, relay flag and block timer stay, and so does the drive level.
(R27, R30, R35, R36, R37) -/
def Obligations.HandoverByPhase : Prop :=
  ∀ (c : CircuitConfig) (t : Transition) (target tenths : Nat) (egress : Bool),
    let u := t.handover c target egress tenths
    let fade (phase : CircuitPhase) (time : Nat) (pending : Option Feed) : Prop :=
      u.phase = phase ∧ u.origin = t.level ∧ u.fadeEnd = target ∧ u.stepCount = 0 ∧ u.stepTotal = max 1 (5 * time) ∧
      u.pendingTransfer = pending
    let goesOn : Prop := u = { t with target := target, egressFlag := egress, output := u.output }
    u.target = target ∧ u.egressFlag = egress ∧ u.output = outputLevel c u ∧ u.level = t.level ∧ u.feed = t.feed ∧
    u.relay = t.relay ∧ u.blockTimer = t.blockTimer ∧
    (t.phase = .steady ∨ t.phase = .fading → target = t.level → u.phase = .steady ∧ u.pendingTransfer = t.pendingTransfer) ∧
    (t.phase = .steady ∨ t.phase = .fading → target ≠ t.level → fade .fading tenths t.pendingTransfer) ∧
    (t.phase = .downslope → egress = false → goesOn) ∧
    (t.phase = .downslope → egress = true → fade .fading tenths (some t.feed.other)) ∧
    (t.phase = .block → goesOn) ∧
    (t.phase = .upslope → egress = false → fade .upslope c.upslope t.pendingTransfer) ∧
    (t.phase = .upslope → egress = true → fade .fading tenths t.pendingTransfer)

/-- STEP_TIMER_EXPIRY in a running part: the timer runs again for 20 ms; a circuit in FADING, DOWNSLOPE or UPSLOPE takes
step k + 1 of its fade; at the last step FADING and UPSLOPE become STEADY, and DOWNSLOPE becomes BLOCK with drive
level 0, the relay flag at the other feed and the block timer at the block time; a circuit in STEADY or BLOCK takes no
step. Every output level is recomputed. Nothing but circuits and the timer changes. (R25, R26, R30, R33) -/
def Obligations.StepTimerTakesOneStep : Prop :=
  ∀ s : State, s.power = .running → ∃ t : State, exec .stepTimerExpiry s = .next t ∧
    t = { s with stepTimer := some 20, circuits := t.circuits } ∧
    (∀ c, Table.at? s.circuits c = none → Table.at? t.circuits c = none) ∧
    ∀ c x, Table.at? s.circuits c = some x → ∃ y, Table.at? t.circuits c = some { x with transition := y } ∧
      y.output = outputLevel x.config y ∧
      (x.transition.phase = .steady ∨ x.transition.phase = .block → y = { x.transition with output := y.output }) ∧
      (x.transition.phase = .fading ∨ x.transition.phase = .downslope ∨ x.transition.phase = .upslope →
        let n := x.transition.stepCount + 1
        let level := fadeLevel x.transition.origin x.transition.fadeEnd n x.transition.stepTotal
        (n < x.transition.stepTotal → y = { x.transition with stepCount := n, level := level, output := y.output }) ∧
        (x.transition.stepTotal ≤ n → x.transition.phase ≠ .downslope →
          y = { x.transition with stepCount := n, level := level, phase := .steady, output := y.output }) ∧
        (x.transition.stepTotal ≤ n → x.transition.phase = .downslope →
          y = { x.transition with
            stepCount := n, level := 0, phase := .block, relay := some x.transition.feed.other,
            blockTimer := some x.config.block, output := y.output }))

/-- BLOCK_TIMER_EXPIRY for a configured circuit in BLOCK, in a running part: the destination becomes the current feed. If
the required feed still differs from it, the egress latch copy is clear and that feed's rack is ONLINE, a new BLOCK
begins toward it. Otherwise the required feed, if it differs, is pending, and the circuit is FADING to its target with
time 0 under the egress flag, or in UPSLOPE to it with the upslope time. For a circuit in another phase, or none,
nothing changes, which is the model's choice (log entry 1). (R31, R33, R34, log entry 1) -/
def Obligations.BlockTimerEndsTheBlock : Prop :=
  ∀ (s : State) (c : Nat), s.power = .running → ∃ t : State, exec (.blockTimerExpiry c) s = .next t ∧
    t = { s with circuits := t.circuits } ∧ (∀ i, i ≠ c → Table.at? t.circuits i = Table.at? s.circuits i) ∧
    (Table.at? s.circuits c = none → Table.at? t.circuits c = none) ∧
    ∀ x, Table.at? s.circuits c = some x → ∃ y, Table.at? t.circuits c = some { x with transition := y } ∧
      (x.transition.phase ≠ .block → y = x.transition) ∧
      (x.transition.phase = .block →
        let feed := x.transition.feed.other
        let rackOnline := ∃ ch r, x.config.channelOf s.requiredFeed = some ch ∧ Table.at? s.racks ch.rack = some r ∧
          r.state = .online
        y.feed = feed ∧ y.output = outputLevel x.config y ∧ y.target = x.transition.target ∧
        y.egressFlag = x.transition.egressFlag ∧
        (s.requiredFeed ≠ feed → s.latchCopy = false → rackOnline →
          y.phase = .block ∧ y.level = 0 ∧ y.relay = some s.requiredFeed ∧ y.blockTimer = some x.config.block ∧
          y.pendingTransfer = x.transition.pendingTransfer) ∧
        (s.requiredFeed = feed ∨ s.latchCopy = true ∨ ¬ rackOnline →
          y.phase = (if x.transition.egressFlag then .fading else .upslope) ∧ y.level = x.transition.level ∧
          y.origin = x.transition.level ∧ y.fadeEnd = x.transition.target ∧ y.stepCount = 0 ∧
          y.stepTotal = (if x.transition.egressFlag then 1 else max 1 (5 * x.config.upslope)) ∧ y.blockTimer = none ∧
          y.relay = x.transition.relay ∧
          y.pendingTransfer = if s.requiredFeed = feed then x.transition.pendingTransfer else some s.requiredFeed))

/-- ConfigureCircuit of a circuit that is not configured, whose body decodes to its identifier and configuration, with no
save running, its zone (if any) configured, and its feeds distinct and free: the circuit has the fields given, an
empty list and the fresh transition fields on HOUSE, and is resolved with fade 0 by the master of its zone. If it is
EGRESS while the latch is set it holds the EGRESS contribution alone and is resolved again with it. If it is TRANSFER
while the required feed is STAGE, a transfer begins at once, in DOWNSLOPE from drive level 0, where the latch copy is
clear and the stage feed's rack is ONLINE, and STAGE is pending where not; in every other case the record is as
resolved. Nothing else changes, and the answer is OK. The fade fields of a circuit just configured are the model's
choice (log entry 41). (R2, R3, R13, R31, R32, R146, log entry 41) -/
def Obligations.ConfigureNewCircuit : Prop :=
  ∀ (s : State) (tag : Byte) (body : List Byte) (id : Nat) (c : CircuitConfig), s.TakesRequests → s.saving = none →
    decodeCircuit body = .ok (id, c) → Table.at? s.circuits id = none →
    (∀ z, c.zone = some z → ∃ x, Table.at? s.zones z = some x) → c.stage ≠ some c.house →
    (∀ e ∈ s.circuits, e.1 ≠ id → ∀ ch, ch = c.house ∨ c.stage = some ch → e.2.config.house ≠ ch ∧ e.2.config.stage ≠ some ch) →
    let first := Circuit.resolve (s.masterOf c) 0 ⟨c, [], ⟨none, c.rest, c.rest, false⟩, .fresh c.kind .house⟩
    let y := if c.egress && s.latch then
        Circuit.resolve (s.masterOf c) 0 { first with claims := [⟨.egress, 3, 1000, 0, 0, none, none, false⟩] }
      else first
    ∃ (t : State) (w : Transition), exec (.configureCircuit tag body) s = .next (t.answered body.length tag .ok false []) ∧
      t = { s with circuits := t.circuits } ∧ (∀ i, i ≠ id → Table.at? t.circuits i = Table.at? s.circuits i) ∧
      Table.at? t.circuits id = some { y with transition := w } ∧ w.level = 0 ∧ w.feed = .house ∧
      (c.kind ≠ .transfer ∨ s.requiredFeed = .house → w = y.transition) ∧
      (c.kind = .transfer → s.requiredFeed = .stage →
        (s.latchCopy = false → s.feedOnline c .stage = true → w = { y.transition with
          phase := .downslope, origin := 0, fadeEnd := 0, stepCount := 0, stepTotal := max 1 (5 * c.downslope),
          pendingTransfer := none, output := outputLevel c y.transition }) ∧
        (s.latchCopy = true ∨ s.feedOnline c .stage = false → w = { y.transition with pendingTransfer := some .stage }))

/-- ConfigureCircuit of a configured circuit whose checks pass, the tables in order: the new fields are stored; a circuit
not TRANSFER both before and after is on HOUSE with no pending transfer, its relay flag HOUSE if it is TRANSFER now;
every claim stays in its place with its dormancy judged by the new flags and the mode. With the latch set, an EGRESS
flag that comes places the EGRESS contribution, one that goes removes it; the circuit is then resolved with fade 0 by
the master of its new zone. A circuit that has become TRANSFER under required feed STAGE goes into DOWNSLOPE if the
latch copy is clear and the feed's rack ONLINE, else has STAGE pending; of one that stays TRANSFER a pending transfer
begins in STEADY, FADING or UPSLOPE where both hold now. No other circuit changes; without a placement or removal
nothing but this circuit does. The answer is OK. That an upslope under way restarts with the new upslope time is the
model's choice (log entry 32). Placing, removing and resolving are the model's operations, described by other
statements. (R2, R3, R12, R19, R31, R41, R146, log entry 32) -/
def Obligations.ReconfigureKeepsTheClaims : Prop :=
  ∀ (s : State) (tag : Byte) (body : List Byte) (id : Nat) (c : CircuitConfig) (x : Circuit), s.TakesRequests →
    s.saving = none → s.TablesInOrder → decodeCircuit body = .ok (id, c) → Table.at? s.circuits id = some x →
    (∀ z, c.zone = some z → ∃ y, Table.at? s.zones z = some y) → c.stage ≠ some c.house →
    (∀ e ∈ s.circuits, e.1 ≠ id → ∀ ch, ch = c.house ∨ c.stage = some ch → e.2.config.house ≠ ch ∧ e.2.config.stage ≠ some ch) →
    (x.transition.phase.inTransfer = true →
      c.kind = x.config.kind ∧ c.house = x.config.house ∧ c.stage = x.config.stage) →
    let stays := c.kind = .transfer ∧ x.config.kind = .transfer
    let u : Circuit := { x with
      config := c
      claims := x.claims.map fun k =>
        { k with dormant := decide (k.tier ≤ 1) && c.audience && decide (s.mode = .performance) }
      transition := if stays then x.transition else { x.transition with
        feed := .house, relay := if c.kind = .transfer then some .house else none, pendingTransfer := none } }
    let stored := s.withCircuits (Table.adjust s.circuits id fun _ => u)
    let judged :=
      if s.latch && c.egress && !x.config.egress then
        (stored.place id ⟨.egress, 3, 1000, 0, 0, none, none, false⟩).1
      else if s.latch && x.config.egress && !c.egress then stored.remove false .egress id else stored
    ∃ (t : State) (v : Circuit) (w : Transition),
      exec (.configureCircuit tag body) s = .next (t.answered body.length tag .ok false []) ∧
      t = { judged with circuits := t.circuits } ∧ (∀ i, i ≠ id → Table.at? t.circuits i = Table.at? s.circuits i) ∧
      Table.at? judged.circuits id = some v ∧ (s.latch = false ∨ c.egress = x.config.egress → v = u ∧ judged = stored) ∧
      let r := v.resolve (s.masterOf c) 0
      let ready (dest : Feed) : Prop := s.latchCopy = false ∧ s.feedOnline c dest = true
      let begun : Transition := { r.transition with
        phase := .downslope, origin := r.transition.level, fadeEnd := 0, stepCount := 0,
        stepTotal := max 1 (5 * c.downslope), pendingTransfer := none, output := outputLevel c r.transition }
      Table.at? t.circuits id = some { r with transition := w } ∧
      (c.kind ≠ .transfer → w = r.transition) ∧
      (stays →
        (∀ dest, r.transition.pendingTransfer = some dest → r.transition.phase.mayTransfer = true → ready dest → w = begun) ∧
        ((∀ dest, r.transition.pendingTransfer = some dest → r.transition.phase.mayTransfer = false ∨ ¬ ready dest) →
          w = r.transition)) ∧
      (c.kind = .transfer → x.config.kind ≠ .transfer →
        (s.requiredFeed = .house → w = r.transition) ∧
        (s.requiredFeed = .stage → ready .stage → w = begun) ∧
        (s.requiredFeed = .stage → ¬ ready .stage → w = { r.transition with pendingTransfer := some .stage }))

/-- In a running part with an IDLE slot, ConfigureCircuit is answered, with nothing else changed: BUSY_SAVING while a save
runs; else BAD_REQUEST for a malformed body; else OUT_OF_RANGE for a value out of range; else NO_SUCH for a zone not
configured; else DUPLICATE where the feeds are one, or one is a feed of another circuit; else NOT_NOW where the
circuit is in DOWNSLOPE, BLOCK or UPSLOPE and its kind or a feed would change. How the body sends an absent feed is
the model's choice (log entry 13). (R2, log entry 13) -/
def Obligations.ConfigureCircuitChecks : Prop :=
  ∀ (s : State) (tag : Byte) (body : List Byte), s.TakesRequests → body.length ≤ 250 →
    let refused (r : Result) : Prop :=
      exec (.configureCircuit tag body) s = .next (s.answered body.length tag r false [])
    (s.saving.isSome = true → refused .busySaving) ∧
    (s.saving = none → (decodeCircuit body = .malformed → refused .badRequest) ∧
      (decodeCircuit body = .outOfRange → refused .outOfRange) ∧
      ∀ id c, decodeCircuit body = .ok (id, c) →
        let unknownZone := ∃ z, c.zone = some z ∧ Table.at? s.zones z = none
        let duplicate := c.stage = some c.house ∨ ∃ e ∈ s.circuits, e.1 ≠ id ∧
          ∃ ch, (ch = c.house ∨ c.stage = some ch) ∧ (e.2.config.house = ch ∨ e.2.config.stage = some ch)
        (unknownZone → refused .noSuch) ∧ (¬ unknownZone → duplicate → refused .duplicate) ∧
        (¬ unknownZone → ¬ duplicate → ∀ x, Table.at? s.circuits id = some x →
          x.transition.phase = .downslope ∨ x.transition.phase = .block ∨ x.transition.phase = .upslope →
          c.kind ≠ x.config.kind ∨ c.house ≠ x.config.house ∨ c.stage ≠ x.config.stage → refused .notNow))

/-- UnconfigureCircuit with the two bytes of an identifier: BUSY_SAVING while a save runs, else OUT_OF_RANGE, else
NO_SUCH, else IN_USE if a binding names the circuit or a scene has an entry for it, else NOT_NOW in DOWNSLOPE, BLOCK
or UPSLOPE. Otherwise the circuit's record is that of an unconfigured one (the statement on State.reset shows its
values), and no other circuit changes; a binding whose contribution went loses its captured mark, and a scene left
with no contribution in any list has no live tier and no recaller; nothing else changes, and the answer is OK. (R4,
R10, R11, R1, R24) -/
def Obligations.UnconfigureCircuitChecksAndDrops : Prop :=
  ∀ (s : State) (tag h l : Byte), s.TakesRequests →
    let id := h.toNat * 256 + l.toNat
    let refused (r : Result) : Prop := exec (.unconfigureCircuit tag [h, l]) s = .next (s.answered 2 tag r false [])
    let named := (∃ e ∈ s.bindings, e.2.record.action.area? = some (.circuit id)) ∨
      ∃ e ∈ s.scenes, ∃ x ∈ e.2.definition.entries, x.1 = id
    (s.saving.isSome = true → refused .busySaving) ∧
    (s.saving = none → id < 1 ∨ 256 < id → refused .outOfRange) ∧
    (s.saving = none → 1 ≤ id → id ≤ 256 → Table.at? s.circuits id = none → refused .noSuch) ∧
    ∀ x, s.saving = none → 1 ≤ id → id ≤ 256 → Table.at? s.circuits id = some x →
      (named → refused .inUse) ∧
      (¬ named → x.transition.phase.inTransfer = true → refused .notNow) ∧
      (¬ named → x.transition.phase.inTransfer = false →
        ∃ t : State, exec (.unconfigureCircuit tag [h, l]) s = .next (t.answered 2 tag .ok false []) ∧ s.OnlyClaims t ∧
          (∀ i, Table.at? t.circuits i = if i = id then none else Table.at? s.circuits i) ∧
          t.circuitRecord id = .unconfigured ∧
          (∀ b, Table.at? t.bindings b = (Table.at? s.bindings b).map fun y =>
            if ∃ k ∈ x.claims, k.origin = .binding b then { y with captured := false } else y) ∧
          ∀ n, Table.at? t.scenes n = (Table.at? s.scenes n).map fun y =>
            if (∃ k ∈ x.claims, k.origin = .scene n) ∧ t.holds (.scene n) = 0
            then { y with liveTier := none, recaller := none } else y)

/-- ReadCircuit of a configured circuit with a sound list is answered OK with: configured 1, the configuration in the
order of R1, each contribution oldest first, the resolved record, the transition fields, UNDRIVEN (the rack of the
current feed is not ONLINE), FAULTED, and the fault of each feed. ReadZone of a configured zone with at most 123
members, whose answer fits the 250 bytes of R163 (a longer one is a free value, log entry 9), is answered OK with its
master, its master fade and its members in rising identifier. An identifier out of range is answered OUT_OF_RANGE, one
with no record NO_SUCH. Nothing else changes. The layout of the fields that section 12 leaves open is the model's
choice (log entries 8 and 10), and so are the zeros in the identifier of an origin or recaller HOST or EGRESS (log
entry 43). (R23, R42, R156, log entry 8, log entry 9, log entry 10, log entry 43) -/
def Obligations.ReadCircuitAndReadZoneReport : Prop :=
  ∀ (s : State) (tag : Byte), s.TakesRequests →
    (∀ h l : Byte,
      let id := h.toNat * 256 + l.toNat
      (id < 1 ∨ 256 < id → exec (.readCircuit tag [h, l]) s = .next (s.answered 2 tag .outOfRange false [])) ∧
      (1 ≤ id → id ≤ 256 → Table.at? s.circuits id = none →
        exec (.readCircuit tag [h, l]) s = .next (s.answered 2 tag .noSuch false [])) ∧
      ∀ x, 1 ≤ id → id ≤ 256 → Table.at? s.circuits id = some x → x.claims.length ≤ 8 →
        ∃ undriven faulted house stage : Bool,
          exec (.readCircuit tag [h, l]) s = .next (s.answered 2 tag .ok false
            ([1] ++ x.config.bytes ++ x.claims.flatMap Contribution.bytes ++ x.resolved.bytes ++ x.transition.bytes ++
              [flagByte undriven, flagByte faulted, flagByte house, flagByte stage])) ∧
          (undriven = false ↔ ∃ ch r, x.config.channelOf x.transition.feed = some ch ∧ Table.at? s.racks ch.rack = some r ∧
            r.state = .online) ∧
          (house = true ↔ ∃ r, Table.at? s.racks x.config.house.rack = some r ∧
            r.faults.getLsbD (x.config.house.channel - 1) = true) ∧
          (stage = true ↔ ∃ ch r, x.config.stage = some ch ∧ Table.at? s.racks ch.rack = some r ∧
            r.faults.getLsbD (ch.channel - 1) = true) ∧ faulted = (house || stage)) ∧
    (∀ z : Byte,
      (z = 0 ∨ 32 < z.toNat → exec (.readZone tag [z]) s = .next (s.answered 1 tag .outOfRange false [])) ∧
      (z ≠ 0 → z.toNat ≤ 32 → Table.at? s.zones z.toNat = none →
        exec (.readZone tag [z]) s = .next (s.answered 1 tag .noSuch false [])) ∧
      ∀ x, z ≠ 0 → z.toNat ≤ 32 → Table.at? s.zones z.toNat = some x → (s.members z.toNat).length ≤ 123 →
        exec (.readZone tag [z]) s = .next (s.answered 1 tag .ok false
          (bytes16 x.master ++ bytes16 x.masterFade ++ (s.members z.toNat).flatMap bytes16)))

/-- SetHostLevel with identifier, tier, level and fade: OUT_OF_RANGE for an identifier outside 1..256 or a tier above 2,
else NO_SUCH for a circuit not configured, with no change. Otherwise a claim of origin HOST with the level clamped to
1000, the fade clamped to 6000 as both fades, no recaller and no key is placed under R6 to R8. If it is refused the
answer is FULL and nothing changes; if taken the answer is OK, the host-displaced flag is clear, and what the
placement leaves stands. CLAMPED is set if either was clamped. ReleaseHostLevel: OUT_OF_RANGE for an identifier
outside 1..256; NO_SUCH for a circuit not configured; NO_SUCH with the host-displaced flag cleared where the list
holds no HOST contribution. Otherwise that contribution is taken out, the circuit is resolved with its release fade,
the flag is clear, and the answer is OK. Nothing else changes. That CLAMPED goes with FULL too is the model's reading
(log entry 12). (R16, R17, R10, log entry 12) -/
def Obligations.HostLevelRequests : Prop :=
  (∀ (s : State) (tag ih il tier lh ll fh fl : Byte), s.TakesRequests →
    let id := ih.toNat * 256 + il.toNat
    let level := lh.toNat * 256 + ll.toNat
    let fade := fh.toNat * 256 + fl.toNat
    let clamped := decide (1000 < level ∨ 6000 < fade)
    let claim : Contribution := ⟨.host, tier.toNat, min 1000 level, min 6000 fade, min 6000 fade, none, none, false⟩
    let c : Instr := .setHostLevel tag [ih, il, tier, lh, ll, fh, fl]
    (id < 1 ∨ 256 < id ∨ 2 < tier.toNat → exec c s = .next (s.answered 7 tag .outOfRange false [])) ∧
    (1 ≤ id → id ≤ 256 → tier.toNat ≤ 2 → Table.at? s.circuits id = none →
      exec c s = .next (s.answered 7 tag .noSuch false [])) ∧
    ∀ x, 1 ≤ id → id ≤ 256 → tier.toNat ≤ 2 → Table.at? s.circuits id = some x →
      ((s.place id claim).2 = .refused → exec c s = .next (s.answered 7 tag .full clamped [])) ∧
      ((s.place id claim).2 ≠ .refused →
        exec c s = .next ({ (s.place id claim).1 with
          circuits := Table.adjust (s.place id claim).1.circuits id fun y =>
            { y with resolved := { y.resolved with hostDisplaced := false } } }.answered 7 tag .ok clamped []))) ∧
  ∀ (s : State) (tag h l : Byte), s.TakesRequests →
    let id := h.toNat * 256 + l.toNat
    let clear (y : Circuit) : Circuit := { y with resolved := { y.resolved with hostDisplaced := false } }
    (id < 1 ∨ 256 < id → exec (.releaseHostLevel tag [h, l]) s = .next (s.answered 2 tag .outOfRange false [])) ∧
    (1 ≤ id → id ≤ 256 → Table.at? s.circuits id = none →
      exec (.releaseHostLevel tag [h, l]) s = .next (s.answered 2 tag .noSuch false [])) ∧
    ∀ x, 1 ≤ id → id ≤ 256 → Table.at? s.circuits id = some x →
      ((∀ k ∈ x.claims, k.origin ≠ .host) → ∃ t : State,
        exec (.releaseHostLevel tag [h, l]) s = .next (t.answered 2 tag .noSuch false []) ∧
        t = { s with circuits := t.circuits } ∧
        ∀ i, Table.at? t.circuits i = if i = id then some (clear x) else Table.at? s.circuits i) ∧
      (∀ older k newer, x.claims = older ++ k :: newer → k.origin = .host → (∀ y ∈ older, y.origin ≠ .host) → ∃ t : State,
        exec (.releaseHostLevel tag [h, l]) s = .next (t.answered 2 tag .ok false []) ∧
        t = { s with circuits := t.circuits } ∧
        ∀ i, Table.at? t.circuits i = if i = id then
          some (clear ({ x with claims := older ++ newer }.resolve (s.masterOf x.config) k.release))
          else Table.at? s.circuits i)

/-- ConfigureZone with an identifier, a configured setting and a fade: BUSY_SAVING while a save runs, else BAD_REQUEST for
a setting that is no flag, else OUT_OF_RANGE for an identifier outside 1..32 or a fade above 100. Set to yes, a zone
not configured takes master 1000 and the fade, and a configured one takes the fade and keeps its master. Set to no:
IN_USE if a circuit has the zone or a binding names it, else NO_SUCH if it is not configured, else it is unconfigured,
with master 1000 and master fade 2. Nothing else changes: no member is retargeted. That the setting is a flag, and
BAD_REQUEST for another code, is the model's choice (log entry 11). SetMaster, also while a save runs: OUT_OF_RANGE
for a zone outside 1..32, NO_SUCH for one not configured. Otherwise the answer is OK, CLAMPED if the level was above
1000 and was taken as 1000. If that is the present master nothing else changes. If not, the master takes it, each
circuit of the zone is resolved with the zone's master fade by the new master, every FOLLOW_MASTER binding on the zone
loses its captured mark, and nothing else changes. That no step of the step timer falls between the handovers of one
SetMaster is the model's choice (log entry 35). So is that a level of 0xFFFF is clamped like any above 1000 (log entry
12). (R18, R20, R21, R22, R13, log entry 11, log entry 12, log entry 35) -/
def Obligations.ZoneRequests : Prop :=
  (∀ (s : State) (tag id setting fh fl : Byte), s.TakesRequests →
    let z := id.toNat
    let fade := fh.toNat * 256 + fl.toNat
    let c : Instr := .configureZone tag [id, setting, fh, fl]
    let refused (r : Result) : Prop := exec c s = .next (s.answered 4 tag r false [])
    let inUse := (∃ e ∈ s.circuits, e.2.config.zone = some z) ∨ ∃ e ∈ s.bindings, e.2.record.action.area? = some (.zone z)
    (s.saving.isSome = true → refused .busySaving) ∧
    (s.saving = none → 1 < setting.toNat → refused .badRequest) ∧
    (s.saving = none → setting.toNat ≤ 1 → z < 1 ∨ 32 < z ∨ 100 < fade → refused .outOfRange) ∧
    (s.saving = none → 1 ≤ z → z ≤ 32 → fade ≤ 100 →
      (setting = 1 → ∃ t : State, exec c s = .next (t.answered 4 tag .ok false []) ∧ t = { s with zones := t.zones } ∧
        ∀ i, Table.at? t.zones i = if i = z then
          some ⟨((Table.at? s.zones z).map (·.master)).getD 1000, fade⟩ else Table.at? s.zones i) ∧
      (setting = 0 → inUse → refused .inUse) ∧
      (setting = 0 → ¬ inUse → Table.at? s.zones z = none → refused .noSuch) ∧
      (setting = 0 → ¬ inUse → ∀ x, Table.at? s.zones z = some x →
        ∃ t : State, exec c s = .next (t.answered 4 tag .ok false []) ∧ t = { s with zones := t.zones } ∧
          t.zoneRecord z = ⟨1000, 2⟩ ∧
          ∀ i, Table.at? t.zones i = if i = z then none else Table.at? s.zones i))) ∧
  ∀ (s : State) (tag id lh ll : Byte), s.TakesRequests → Table.InOrder s.circuits →
    let z := id.toNat
    let level := lh.toNat * 256 + ll.toNat
    let c : Instr := .setMaster tag [id, lh, ll]
    (z < 1 ∨ 32 < z → exec c s = .next (s.answered 3 tag .outOfRange false [])) ∧
    (1 ≤ z → z ≤ 32 → Table.at? s.zones z = none → exec c s = .next (s.answered 3 tag .noSuch false [])) ∧
    ∀ x, 1 ≤ z → z ≤ 32 → Table.at? s.zones z = some x →
      (min 1000 level = x.master → exec c s = .next (s.answered 3 tag .ok (decide (1000 < level)) [])) ∧
      (min 1000 level ≠ x.master → ∃ t : State, exec c s = .next (t.answered 3 tag .ok (decide (1000 < level)) []) ∧
        t = { s with zones := t.zones, circuits := t.circuits, bindings := t.bindings } ∧
        (∀ i, Table.at? t.zones i = if i = z then some ⟨min 1000 level, x.masterFade⟩ else Table.at? s.zones i) ∧
        (∀ i, Table.at? t.circuits i = (Table.at? s.circuits i).map fun y =>
          if y.config.zone = some z then y.resolve (some (min 1000 level)) x.masterFade else y) ∧
        ∀ b, Table.at? t.bindings b = (Table.at? s.bindings b).map fun y =>
          if y.record.action = .followMaster z then { y with captured := false } else y)

/-- For every id 1..1024 and every binding record in the ranges of R43 and R44, ARMED, with a set of modes that is not
empty, a gesture and a lamp link its action allows: the body that section 12.4 gives it is read back as that id and
that record. No field and no bit of it is lost. (R43, R44, R50, spec/12 section 12.4) -/
def Obligations.BindingBodiesRoundTrip : Prop :=
  ∀ (id : Nat) (r : BindingRecord), 1 ≤ id → id ≤ 1024 →
    1 ≤ r.source.address → r.source.address ≤ 60 → 1 ≤ r.source.input → r.source.input ≤ 16 →
    (∃ m, r.modes.has m = true) → r.action.allows r.gesture = true → r.action.allowsLamp r.lamp = true →
    r.action.inRange = true → r.suspended = false → decodeBinding (encodeBinding id r) = .ok (id, r)

/-- WriteBinding in a running part with an IDLE slot: BUSY_SAVING while a save runs, else BAD_REQUEST for a malformed
body, else OUT_OF_RANGE. For a body read as id and record: LOCKED for a house id under the lock, else NOT_INSTALLER
for a house id without INSTALL, else NO_SUCH for a target that does not exist, else DUPLICATE if another binding
agrees in source, gesture, action and target, else FULL if 4 others share source and gesture; a refusal changes
nothing but the INSTALL level seen. Otherwise the answer is OK, the id holds the record with every mark clear, no
other binding's record changes, and nothing changes but claims, bindings, scenes, repeats and the holdings in key
records. Of a replaced binding the light is released by the five steps of R53: no circuit holds a contribution of it,
each live scene it recalled has been released, no repeat of it runs, the record of its old source key holds no pair of
it, and its captured mark is clear. A free id is written with no other change. That the INSTALL level is recorded is
the model's choice (log entry 5). So is OUT_OF_RANGE for the identifier of a MODE or NOTIFY target outside its values
(log entry 14). (R50, R51, R52, R53, log entry 5, log entry 14) -/
def Obligations.WriteBindingChecksAndStores : Prop :=
  ∀ (s : State) (install : Bool) (tag : Byte) (body : List Byte), s.TakesRequests → body.length ≤ 250 →
    let c : Instr := .writeBinding install tag body
    let refused (r : Result) : Prop := exec c s = .next ({ s with installInput := install }.answered body.length tag r false [])
    (s.saving.isSome = true → refused .busySaving) ∧
    (s.saving = none → (decodeBinding body = .malformed → refused .badRequest) ∧
      (decodeBinding body = .outOfRange → refused .outOfRange) ∧
      ∀ id r, decodeBinding body = .ok (id, r) →
        let house := id ≤ s.protectSize
        let others := (s.bindings.filter fun e => e.1 != id).map fun e => e.2.record
        (house → s.houseLock = true → refused .locked) ∧
        (house → s.houseLock = false → install = false → refused .notInstaller) ∧
        ((house → s.houseLock = false ∧ install = true) →
          (s.targetExists r.action = false → refused .noSuch) ∧
          (s.targetExists r.action = true → others.any r.agrees = true → refused .duplicate) ∧
          (s.targetExists r.action = true → others.any r.agrees = false →
            4 ≤ (others.filter fun q => q.source == r.source && q.gesture == r.gesture).length → refused .full) ∧
          (s.targetExists r.action = true → others.any r.agrees = false →
            (others.filter fun q => q.source == r.source && q.gesture == r.gesture).length < 4 →
            ∃ t : State, exec c s = .next ({ t with installInput := install }.answered body.length tag .ok false []) ∧
              s.OnlyLight t ∧ Table.at? t.bindings id = some ⟨r, false, false, false, false⟩ ∧
              (∀ b, b ≠ id → (Table.at? t.bindings b).map (·.record) = (Table.at? s.bindings b).map (·.record)) ∧
              (Table.at? s.bindings id = none → t = { s with bindings := t.bindings }) ∧
              (s.ListsSound → s.TablesInOrder → ∀ x, Table.at? s.bindings id = some x → s.Released t id x))))

/-- SuspendBinding, ResumeBinding and RetireBinding of an id: BUSY_SAVING while a save runs, else OUT_OF_RANGE outside
1..1024, else LOCKED for a house id under the lock, else NOT_INSTALLER for a house id without INSTALL, else NO_SUCH
for a free id. Otherwise OK. A resumption makes the binding ARMED and changes nothing else; a suspension of a
SUSPENDED binding changes nothing. A suspension of an ARMED binding leaves it SUSPENDED with its other marks, and a
retirement leaves the id free; both release its light by the five steps of R53 (no contribution of it, the scenes it
recalled released, no repeat, no pair in its source key's record, no captured mark), change no other binding's record,
and change nothing but claims, bindings, scenes, repeats and the holdings in key records. Each records the INSTALL
level seen, which is the model's choice (log entry 5). (R53, R54, R55, R56, log entry 5) -/
def Obligations.LifecycleRequestsOfABinding : Prop :=
  ∀ (s : State) (install : Bool) (tag h l : Byte), s.TakesRequests →
    let id := h.toNat * 256 + l.toNat
    let seen : State := { s with installInput := install }
    let all (outcome : Instr → Prop) : Prop := outcome (.suspendBinding install tag [h, l]) ∧
      outcome (.resumeBinding install tag [h, l]) ∧ outcome (.retireBinding install tag [h, l])
    let refused (r : Result) : Prop := all fun c => exec c s = .next (seen.answered 2 tag r false [])
    let house := id ≤ s.protectSize
    (s.saving.isSome = true → refused .busySaving) ∧
    (s.saving = none → id < 1 ∨ 1024 < id → refused .outOfRange) ∧
    (s.saving = none → 1 ≤ id → id ≤ 1024 → house → s.houseLock = true → refused .locked) ∧
    (s.saving = none → 1 ≤ id → id ≤ 1024 → house → s.houseLock = false → install = false → refused .notInstaller) ∧
    (s.saving = none → 1 ≤ id → id ≤ 1024 → (house → s.houseLock = false ∧ install = true) →
      (Table.at? s.bindings id = none → refused .noSuch) ∧
      ∀ x, Table.at? s.bindings id = some x →
        exec (.resumeBinding install tag [h, l]) s = .next
          ({ seen with bindings := Table.adjust s.bindings id fun y =>
              { y with record := { y.record with suspended := false } } }.answered 2 tag .ok false []) ∧
        (x.record.suspended = true →
          exec (.suspendBinding install tag [h, l]) s = .next (seen.answered 2 tag .ok false [])) ∧
        (x.record.suspended = false → s.ListsSound → s.TablesInOrder →
          ∃ t : State, exec (.suspendBinding install tag [h, l]) s = .next (t.answered 2 tag .ok false []) ∧ seen.OnlyLight t ∧
            Table.at? t.bindings id = some { x with
              record := { x.record with suspended := true }, captured := false } ∧
            (∀ b, b ≠ id → (Table.at? t.bindings b).map (·.record) = (Table.at? s.bindings b).map (·.record)) ∧
            seen.Released t id x) ∧
        (s.ListsSound → s.TablesInOrder →
          ∃ t : State, exec (.retireBinding install tag [h, l]) s = .next (t.answered 2 tag .ok false []) ∧ seen.OnlyLight t ∧
            Table.at? t.bindings id = none ∧
            (∀ b, b ≠ id → (Table.at? t.bindings b).map (·.record) = (Table.at? s.bindings b).map (·.record)) ∧
            seen.Released t id x))

/-- FireBinding with an id, or an id and a position of two bytes; another length is BAD_REQUEST. OUT_OF_RANGE outside
1..1024, else LOCKED for a house id under the lock, else NO_SUCH for a free id, else BAD_REQUEST where a position is
missing from or added to its gesture, else NOT_NOW for a binding SUSPENDED or whose modes lack the present one,
whatever its gesture. Otherwise OK, CLAMPED if a position above 1000 was taken as 1000, and the action is fired for
the host with that position; what each action then does stands in the statements on firings. Shown here, with nothing
else changed: NOTIFY (its pending mark and the notice), RAISE and LOWER (one master step, no repeat), a momentary
LEVEL on a circuit (a contribution with no held-by-key), and FOLLOW_MASTER (the master takes the position, its own
captured mark kept). That no step of the step timer falls between the handovers of one firing is the model's choice
(log entry 35). (R57, R67, R79, R83, R110, log entry 35) -/
def Obligations.FireBindingFromTheHost : Prop :=
  ∀ (s : State) (tag : Byte), s.TakesRequests →
    (∀ body : List Byte, body.length ≤ 250 → body.length ≠ 2 → body.length ≠ 4 →
      exec (.fireBinding tag body) s = .next (s.answered body.length tag .badRequest false [])) ∧
    ∀ (h l : Byte) (sent : Option (Byte × Byte)),
      let id := h.toNat * 256 + l.toNat
      let body := [h, l] ++ sent.elim [] fun p => [p.1, p.2]
      let position := sent.map fun p => p.1.toNat * 256 + p.2.toNat
      let refused (r : Result) : Prop := exec (.fireBinding tag body) s = .next (s.answered body.length tag r false [])
      (id < 1 ∨ 1024 < id → refused .outOfRange) ∧
      (1 ≤ id → id ≤ 1024 → id ≤ s.protectSize → s.houseLock = true → refused .locked) ∧
      (1 ≤ id → id ≤ 1024 → (id ≤ s.protectSize → s.houseLock = false) → Table.at? s.bindings id = none →
        refused .noSuch) ∧
      ∀ x, 1 ≤ id → id ≤ 1024 → (id ≤ s.protectSize → s.houseLock = false) → Table.at? s.bindings id = some x →
        let fits := x.record.gesture = .move ↔ sent.isSome = true
        let clamped := position.any fun q => decide (1000 < q)
        (¬ fits → refused .badRequest) ∧
        (fits → x.record.suspended = true ∨ x.record.modes.has s.mode = false → refused .notNow) ∧
        (fits → x.record.suspended = false → x.record.modes.has s.mode = true →
          exec (.fireBinding tag body) s = .next
            (((s.atWork 0x25 tag body).fire id x .host none (position.map (min 1000))).withHostSlot
              (.answerReady ⟨tag, .ok, clamped, []⟩)) ∧
          (s.offered = none → sent = none →
            (x.record.action = .notify → exec (.fireBinding tag body) s = .next
              ({ s with
                bindings := Table.adjust s.bindings id fun y => { y with notifyPending := true }
                notices := { s.notices with notify := true } }.answered 2 tag .ok false [])) ∧
            (∀ z n zone, x.record.action = .raise z n ∨ x.record.action = .lower z n → Table.at? s.zones z = some zone →
              let value := if x.record.action = .raise z n then min 1000 (zone.master + n) else zone.master - n
              ∃ t : State, exec (.fireBinding tag body) s = .next (t.answered 2 tag .ok false []) ∧
                t = { s with zones := t.zones, circuits := t.circuits, bindings := t.bindings } ∧
                ∀ i, Table.at? t.zones i = if i = z then some { zone with master := value } else Table.at? s.zones i) ∧
            (∀ circuit level tier fade y, x.record.action = .level (.circuit circuit) level tier fade true →
              Table.at? s.circuits circuit = some y →
              ∃ t : State, exec (.fireBinding tag body) s = .next (t.answered 2 tag .ok false []) ∧ s.OnlyClaims t ∧
                t.circuits = (s.place circuit ⟨.binding id, tier, level, fade, fade, none, none, false⟩).1.circuits)) ∧
          (s.offered = none → ∀ q z zone, position = some q → x.record.action = .followMaster z →
            Table.at? s.zones z = some zone →
            ∃ t : State, exec (.fireBinding tag body) s = .next (t.answered 4 tag .ok clamped []) ∧
              t = { s with zones := t.zones, circuits := t.circuits, bindings := t.bindings } ∧
              (∀ i, Table.at? t.zones i = if i = z then some { zone with master := min 1000 q } else Table.at? s.zones i) ∧
              Table.at? t.bindings id = some x))

/-- ReadBinding: OUT_OF_RANGE outside 1..1024, NO_SUCH for a free id, else OK with flags (bit 0 withheld, bit 1 SHOW), the
state, and, for a house id under the lock, id and source alone, else the body of the record, the holds count and the
marks (bit 0 displaced, 1 partial, 2 notify pending, 3 captured). Nothing else changes. ReadNotified with an empty
body, the table in order: OK with the first 64 of the marked ids, rising, and the count of the others; the marks of
those given are clear, and nothing else changes. The order of the bytes is in part the model's choice (log entry 10),
and so are the zeros in the bits that section 12.4 leaves without a meaning (log entry 40). (R58, R59, spec/12 section
12.4, log entry 10, log entry 40) -/
def Obligations.ReadBindingAndReadNotified : Prop :=
  ∀ (s : State) (tag : Byte), s.TakesRequests →
    (∀ h l : Byte,
      let id := h.toNat * 256 + l.toNat
      (id < 1 ∨ 1024 < id → exec (.readBinding tag [h, l]) s = .next (s.answered 2 tag .outOfRange false [])) ∧
      (1 ≤ id → id ≤ 1024 → Table.at? s.bindings id = none →
        exec (.readBinding tag [h, l]) s = .next (s.answered 2 tag .noSuch false [])) ∧
      ∀ x, 1 ≤ id → id ≤ 1024 → Table.at? s.bindings id = some x →
        (id ≤ s.protectSize → s.houseLock = true → exec (.readBinding tag [h, l]) s = .next (s.answered 2 tag .ok false
          [1, flagByte x.record.suspended, h, l, lineCode x.record.source.line, byteOf x.record.source.address,
            byteOf x.record.source.input])) ∧
        (s.protectSize < id ∨ s.houseLock = false → exec (.readBinding tag [h, l]) s = .next (s.answered 2 tag .ok false
          ([if s.protectSize < id then 2 else 0, flagByte x.record.suspended] ++ encodeBinding id x.record ++
            bytes16 (s.holds (.binding id)) ++
            [flagByte x.displacedMark ||| flagByte x.partialMark <<< 1 ||| flagByte x.notifyPending <<< 2 |||
              flagByte x.captured <<< 3])))) ∧
    (Table.InOrder s.bindings →
      let marked := (s.bindings.filter fun e => e.2.notifyPending).map Prod.fst
      ∃ t : State, exec (.readNotified tag []) s = .next (t.answered 0 tag .ok false
          ((marked.take 64).flatMap bytes16 ++ bytes16 (marked.length - 64))) ∧
        t = { s with bindings := t.bindings } ∧
        ∀ b, Table.at? t.bindings b = (Table.at? s.bindings b).map fun x =>
          if b ∈ marked.take 64 then { x with notifyPending := false } else x)

/-- For every state with the house lock set, every command that is not an EraseHouse or a Restart (in a request frame, or
in a malformed transfer whose first byte is the code of one), nor the START_UP after a reset, leaves the house lock
set, the protect size as it is, and the record of every id at or below the protect size, state included, or its being
free, as it was. (R60, R62) -/
def Obligations.HouseLockGuardsTheHousePartition : Prop :=
  ∀ (s t : State) (c : Instr), s.houseLock = true →
    (∀ i tag body, c ≠ .eraseHouse i tag body) → (∀ tag body, c ≠ .restart tag body) → c ≠ .startUp →
    (∀ i rest, c ≠ .requestTransferMalformed i (0x29 :: rest) ∧ c ≠ .requestTransferMalformed i (0x62 :: rest)) → exec c s = .next t →
    t.houseLock = true ∧ t.protectSize = s.protectSize ∧
      ∀ b ≤ s.protectSize, (Table.at? t.bindings b).map (·.record) = (Table.at? s.bindings b).map (·.record)

/-- SetProtectSize: BUSY_SAVING, else OUT_OF_RANGE for a value over 512 or not a multiple of 64, else LOCKED, else
NOT_INSTALLER, else OK with the size set. LockHouse: BUSY_SAVING, else NOT_INSTALLER, else OK with the lock set and a
save begun. EraseHouse: the same refusals, else OK with no binding in the house partition, the light of each released,
the others' records as they were, the lock clear and a save begun. SaveImage: BUSY_SAVING, else BAD_REQUEST for a
body, else OK with a save begun. A save copies the configurations of the circuits, the zones, the binding records, the
scene definitions, the group members, the configured racks, protect size, lock, settings, and each line's preferred
end, OFF or ON and station setups, and makes the marker INVALID. SAVE_COMPLETE in a running part makes the copy the
image, VALID, and raises IMAGE. The two bytes of a protect size (log entry 10), the INSTALL level recorded (log entry
5) and SAVE_COMPLETE with no save changing nothing (log entry 1) are the model's choices. (R53, R60, R61, R63, R170,
R171, R172, log entry 1, log entry 5, log entry 10) -/
def Obligations.HousePartitionAndSaveRequests : Prop :=
  ∀ s : State,
    let copy := s.copyImage
    (∀ c, Table.at? copy.circuits c = (Table.at? s.circuits c).map (·.config)) ∧ copy.zones = s.zones ∧
    (∀ b, Table.at? copy.bindings b = (Table.at? s.bindings b).map (·.record)) ∧
    (∀ n, Table.at? copy.scenes n = (Table.at? s.scenes n).map (·.definition)) ∧
    (∀ g, Table.at? copy.groups g = (Table.at? s.groups g).map (·.members)) ∧
    (∀ r, r ∈ copy.racks ↔ ∃ k, (r, k) ∈ s.racks ∧ k.state ≠ .absent) ∧ copy.protectSize = s.protectSize ∧
    copy.houseLock = s.houseLock ∧ copy.settings = s.settings ∧
    (∀ l, let stored := match l with | .a => copy.lineA | .b => copy.lineB
      stored.preferred = (s.unit l).preferred ∧ stored.on = decide ((s.unit l).state ≠ .off) ∧
      ∀ a, Table.at? stored.stations a = (s.station? l a).map (·.setup)) ∧
    (s.power = .running →
      (∀ copy, s.saving = some copy → exec .saveComplete s =
        .next { s with image := some copy, saving := none, notices := { s.notices with image := true } }) ∧
      (s.saving = none → exec .saveComplete s = .next s)) ∧
    ∀ tag : Byte, s.TakesRequests →
      (∀ install h l, let v := h.toNat * 256 + l.toNat
        let seen : State := { s with installInput := install }
        exec (.setProtectSize install tag [h, l]) s = .next (
          if s.saving.isSome then seen.answered 2 tag .busySaving false []
          else if 512 < v ∨ v % 64 ≠ 0 then seen.answered 2 tag .outOfRange false []
          else if s.houseLock then seen.answered 2 tag .locked false []
          else if install = false then seen.answered 2 tag .notInstaller false []
          else { seen with protectSize := v }.answered 2 tag .ok false [])) ∧
      (∀ install, let seen : State := { s with installInput := install }
        exec (.lockHouse install tag []) s = .next (
          if s.saving.isSome then seen.answered 0 tag .busySaving false []
          else if install = false then seen.answered 0 tag .notInstaller false []
          else { seen with
            houseLock := true, image := none
            saving := some { s.copyImage with houseLock := true } }.answered 0 tag .ok false [])) ∧
      (∀ install, let seen : State := { s with installInput := install }
        (s.saving.isSome = true → exec (.eraseHouse install tag []) s = .next (seen.answered 0 tag .busySaving false [])) ∧
        (s.saving = none → install = false →
          exec (.eraseHouse install tag []) s = .next (seen.answered 0 tag .notInstaller false [])) ∧
        (s.saving = none → install = true → ∃ t : State, exec (.eraseHouse install tag []) s = .next (t.answered 0 tag .ok false []) ∧
          (∀ b, b ≤ s.protectSize → Table.at? t.bindings b = none) ∧
          (∀ b, s.protectSize < b → (Table.at? t.bindings b).map (·.record) = (Table.at? s.bindings b).map (·.record)) ∧
          (s.ListsSound → s.TablesInOrder → ∀ b x, b ≤ s.protectSize → Table.at? s.bindings b = some x →
            s.Released t b x) ∧
          t.houseLock = false ∧ t.image = none ∧ t.saving = some t.copyImage ∧
          seen.OnlyLight { t with houseLock := s.houseLock, image := s.image, saving := s.saving })) ∧
      ∀ body : List Byte, body.length ≤ 250 → exec (.saveImage tag body) s = .next (
        if s.saving.isSome then s.answered body.length tag .busySaving false []
        else if body ≠ [] then s.answered body.length tag .badRequest false []
        else { s with image := none, saving := some s.copyImage }.answered 0 tag .ok false [])

/-- WriteScene: BUSY_SAVING, else BAD_REQUEST, else OUT_OF_RANGE, else NO_SUCH where an entry names a circuit not
configured, else FULL where the pool of 2048 would be passed, else OK: a scene not live, or undefined, has the new
definition, no live tier, recaller or mark, and nothing else changes. A live one has the new definition; an entry kept
with its level under the same fades leaves its circuit as it was; every other entry's contribution is placed at the
live tier for the recaller under the new fades; a circuit no longer among the entries has the scene's contribution
removed; other circuits stay; the bindings and other scenes displaced are marked. A refused placement sets the partial
mark; with placements and none refused it is clear, and so is the displaced mark if every entry holds; with no
placement the marks stay. Live tier and recaller stay while a contribution is left and go with the last. DeleteScene:
BUSY_SAVING, else OUT_OF_RANGE, else NO_SUCH, else IN_USE if a binding names the scene, else OK: the scene has no
record, the circuits of its entries hold no contribution of it, and nothing but claims and scenes changes. That no
step of the step timer falls between the handovers of one request is the model's choice (log entry 35). (R85, R86,
R87, R92, R93, R94, R90, log entry 35) -/
def Obligations.WriteSceneAndDeleteScene : Prop :=
  ∀ (s : State) (tag : Byte), s.TakesRequests →
    (∀ body : List Byte, body.length ≤ 250 →
      let c : Instr := .writeScene tag body
      let refused (r : Result) : Prop := exec c s = .next (s.answered body.length tag r false [])
      (s.saving.isSome = true → refused .busySaving) ∧
      (s.saving = none → (decodeScene body = .malformed → refused .badRequest) ∧
        (decodeScene body = .outOfRange → refused .outOfRange) ∧
        ∀ n d, decodeScene body = .ok (n, d) →
          let unknown := ∃ e ∈ d.entries, Table.at? s.circuits e.1 = none
          let others := s.poolInUse - ((Table.at? s.scenes n).map (·.definition.entries.length)).getD 0
          (unknown → refused .noSuch) ∧ (¬ unknown → 2048 < others + d.entries.length → refused .full) ∧
          (¬ unknown → others + d.entries.length ≤ 2048 →
            (Table.at? s.scenes n = none ∨ s.holds (.scene n) = 0 →
              exec c s = .next ({ s with scenes := Table.put s.scenes n ⟨d, none, none, false, false⟩ }.answered
                body.length tag .ok false [])) ∧
            (∀ x, Table.at? s.scenes n = some x → 0 < s.holds (.scene n) →
              ∃ t : State, exec c s = .next (t.answered body.length tag .ok false []) ∧ s.OnlyClaims t ∧
                (s.ListsSound → s.TablesInOrder → s.Rewritten t n x d))))) ∧
    (∀ n : Byte,
      let refused (r : Result) : Prop := exec (.deleteScene tag [n]) s = .next (s.answered 1 tag r false [])
      let named := ∃ e ∈ s.bindings, e.2.record.action.sceneTarget? = some n.toNat
      (s.saving.isSome = true → refused .busySaving) ∧
      (s.saving = none → n = 0 ∨ 96 < n.toNat → refused .outOfRange) ∧
      (s.saving = none → n ≠ 0 → n.toNat ≤ 96 → Table.at? s.scenes n.toNat = none → refused .noSuch) ∧
      ∀ x, s.saving = none → n ≠ 0 → n.toNat ≤ 96 → Table.at? s.scenes n.toNat = some x →
        (named → refused .inUse) ∧
        (¬ named → ∃ t : State, exec (.deleteScene tag [n]) s = .next (t.answered 1 tag .ok false []) ∧ s.OnlyClaims t ∧
          Table.at? t.scenes n.toNat = none ∧ t.bindings = s.bindings ∧
          (∀ m, m ≠ n.toNat → Table.at? t.scenes m = Table.at? s.scenes m) ∧
          (s.ListsSound → ∀ e ∈ x.definition.entries, ∀ y, Table.at? t.circuits e.1 = some y →
            ∀ k ∈ y.claims, k.origin ≠ .scene n.toNat)))

/-- RecallScene: OUT_OF_RANGE for a scene outside 1..96 or a tier above 2, else NO_SUCH, else OK with held count, live
tier and the two marks as the recall leaves them. Each entry's circuit, entries rising, is as the placement of the
scene's contribution leaves it (tier, level, fade in, fade out, recaller HOST), other circuits and all but claims
stay; the bindings and other scenes displaced are marked, and another scene that lost its last contribution has no
live tier and no recaller; a refused placement sets the partial mark, with none refused it is clear, and so is the
displaced mark if every entry holds; live tier and recaller are set if a contribution is held. Where the circuits are
configured and have room or hold the scene, each holds the contribution as its newest, dormant by the mode, and is
resolved with fade in; both marks are clear. ReleaseScene: OUT_OF_RANGE, NO_SUCH, else OK with no contribution of the
scene on its entries' circuits and its marks kept. ReadScene: the same refusals, else OK with the body, held count,
live tier, recaller, marks and pool in use; the order of the bytes is in part the model's choice (log entry 10), and
so are zeros in the unused bits of the marks (log entry 40) and in the identifier of a recaller HOST (log entry 43),
and that no step of the step timer falls inside a recall (log entry 35). (R88, R90, R92, R95, R96, log entry 10, R9,
log entry 35, log entry 40, log entry 43) -/
def Obligations.RecallReleaseAndReadScene : Prop :=
  ∀ (s : State) (tag : Byte), s.TakesRequests →
    (∀ n tier : Byte, (n = 0 ∨ 96 < n.toNat ∨ 2 < tier.toNat →
        exec (.recallScene tag [n, tier]) s = .next (s.answered 2 tag .outOfRange false [])) ∧
      (n ≠ 0 → n.toNat ≤ 96 → tier.toNat ≤ 2 → Table.at? s.scenes n.toNat = none →
        exec (.recallScene tag [n, tier]) s = .next (s.answered 2 tag .noSuch false []))) ∧
    (∀ n : Byte, (n = 0 ∨ 96 < n.toNat →
        exec (.releaseScene tag [n]) s = .next (s.answered 1 tag .outOfRange false []) ∧
        exec (.readScene tag [n]) s = .next (s.answered 1 tag .outOfRange false [])) ∧
      (n ≠ 0 → n.toNat ≤ 96 → Table.at? s.scenes n.toNat = none →
        exec (.releaseScene tag [n]) s = .next (s.answered 1 tag .noSuch false []) ∧
        exec (.readScene tag [n]) s = .next (s.answered 1 tag .noSuch false []))) ∧
    ∀ (n : Byte) (x : Scene), n ≠ 0 → n.toNat ≤ 96 → Table.at? s.scenes n.toNat = some x →
      (∀ tier : Byte, tier.toNat ≤ 2 → (x.definition.entries.map Prod.fst).Pairwise (· < ·) →
        ∃ (t : State) (z : Scene), exec (.recallScene tag [n, tier]) s = .next (t.answered 2 tag .ok false
            [byteOf (t.holds (.scene n.toNat)), orAbsent (z.liveTier.map byteOf), flagByte z.partialMark,
              flagByte z.displacedMark]) ∧
          Table.at? t.scenes n.toNat = some z ∧ s.Recalled t n.toNat x tier.toNat .host) ∧
      (∀ tier : Byte, tier.toNat ≤ 2 → s.ListsSound → Table.InOrder s.circuits → x.definition.entries ≠ [] →
        (x.definition.entries.map Prod.fst).Pairwise (· < ·) →
        (∀ e ∈ s.circuits, (∃ k ∈ e.2.claims, k.origin = .scene n.toNat) → e.1 ∈ x.definition.entries.map Prod.fst) →
        (∀ e ∈ x.definition.entries, ∃ y, Table.at? s.circuits e.1 = some y ∧
          (y.claims.length < 8 ∨ ∃ k ∈ y.claims, k.origin = .scene n.toNat)) →
        ∃ t : State, exec (.recallScene tag [n, tier]) s = .next (t.answered 2 tag .ok false
            [byteOf x.definition.entries.length, tier, 0, 0]) ∧
          t = { s with circuits := t.circuits, scenes := t.scenes } ∧
          (∀ m, Table.at? t.scenes m = if m = n.toNat then
            some { x with liveTier := some tier.toNat, recaller := some .host, partialMark := false, displacedMark := false }
            else Table.at? s.scenes m) ∧
          (∀ i, i ∉ x.definition.entries.map Prod.fst → Table.at? t.circuits i = Table.at? s.circuits i) ∧
          ∀ e ∈ x.definition.entries, ∀ y, Table.at? s.circuits e.1 = some y →
            Table.at? t.circuits e.1 = some (Circuit.resolve (s.masterOf y.config) x.definition.fadeIn { y with
              claims := (y.claims.eraseP fun k => k.origin == .scene n.toNat) ++
                [⟨.scene n.toNat, tier.toNat, e.2, x.definition.fadeIn, x.definition.fadeOut, some .host, none,
                  decide (tier.toNat ≤ 1) && y.config.audience && decide (s.mode = .performance)⟩] })) ∧
      (∃ t : State, exec (.releaseScene tag [n]) s = .next (t.answered 1 tag .ok false []) ∧
        t = { s with circuits := t.circuits, scenes := t.scenes } ∧
        (s.ListsSound → ∀ e ∈ x.definition.entries, ∀ y, Table.at? t.circuits e.1 = some y →
          ∀ k ∈ y.claims, k.origin ≠ .scene n.toNat) ∧
        (∃ y, Table.at? t.scenes n.toNat = some y ∧ y.definition = x.definition ∧ y.partialMark = x.partialMark ∧
          y.displacedMark = x.displacedMark) ∧
        (s.holds (.scene n.toNat) = 0 → t = s)) ∧
      (x.definition.entries.length ≤ 64 →
        exec (.readScene tag [n]) s = .next (s.answered 1 tag .ok false
          (encodeScene n.toNat x.definition ++ [byteOf (s.holds (.scene n.toNat)), orAbsent (x.liveTier.map byteOf)] ++
            recallerBytes x.recaller ++ [flagByte x.partialMark ||| flagByte x.displacedMark <<< 1] ++ bytes16 s.poolInUse)))

/-- ConfigureStation: BUSY_SAVING, else BAD_REQUEST, else OUT_OF_RANGE, else OK. With no record there, an EXPECTED one
with no key records and confirmed lamps UNKNOWN; with one of the same kind, the new setup, and configure pending if
ONLINE; with one of another kind, EXPECTED again with the new setup, no key records, reach UNKNOWN, miss count 0,
marks clear and accepted-through kept. RemoveStation: BUSY_SAVING, OUT_OF_RANGE, NO_SUCH, else OK: no record, not on
the probe list, and no group has it as a member or in its delivery. Both discards remove the contributions named by
the momentary holdings of the station's keys, every other contribution staying, end the repeats of its keys, clear the
captured marks of the bindings on it, turn its PENDING codes OFFLINE with GROUP raised where that settles the last of
a group (as the statement on group queries shows of offlineStation) and no other notice, and make a call in progress
to it void; no other station's record and nothing else changes. That a removed station leaves the probe list (log
entry 18), GROUP at a RemoveStation (log entry 42), what a void call's end does (log entry 24), and the order of the
keys (log entry 36; nothing said here rests on it) are the model's choices. ReadStation: OUT_OF_RANGE, NO_SUCH, else
OK with the record and nothing changed (codes and layout in part the model's choice, log entries 8 and 10). (R117,
R118, R119, R98, R136, R72, R80, R133, log entries 8, 10, 18, 24, 36 and 42) -/
def Obligations.StationRequests : Prop :=
  ∀ (s : State) (tag : Byte), s.TakesRequests →
    let otherStations (t : State) (l : Line) (a : Nat) : Prop :=
      ∀ l' a', l' ≠ l ∨ a' ≠ a → t.station? l' a' = s.station? l' a'
    let discarded (t : State) (l : Line) (a : Nat) : Prop :=
      let offline := s.offlineStation l a
      (s.ListsSound → s.TablesInOrder → s.KeysDiscarded t l a) ∧
      t.notices = offline.notices ∧
      (t.unit l).slot = (s.unit l).slot.map (fun x => { x with
        carries := match x.carries with
          | .call c => .call { c with voided := c.voided || c.address == a }
          | other => other }) ∧
      (∀ l', l' ≠ l → (t.unit l').slot = (s.unit l').slot ∧ (t.unit l').probeList = (s.unit l').probeList) ∧
      (∀ l', t.unit l' = { s.unit l' with
        stations := (t.unit l').stations, waiting := (offline.unit l').waiting, slot := (t.unit l').slot
        probeList := (t.unit l').probeList }) ∧
      t = { s with
        circuits := t.circuits, bindings := t.bindings, repeats := t.repeats, groups := t.groups, notices := t.notices
        lineA := t.lineA, lineB := t.lineB }
    (∀ body : List Byte, body.length ≤ 250 →
      let c : Instr := .configureStation tag body
      let refused (r : Result) : Prop := exec c s = .next (s.answered body.length tag r false [])
      (s.saving.isSome = true → refused .busySaving) ∧
      (s.saving = none → (decodeStation body = .malformed → refused .badRequest) ∧
        (decodeStation body = .outOfRange → refused .outOfRange) ∧
        ∀ l a setup, decodeStation body = .ok (l, a, setup) →
          ∃ t : State, exec c s = .next (t.answered body.length tag .ok false []) ∧ otherStations t l a ∧
            ((s.station? l a).all (fun st => st.setup.kind = setup.kind) → t = { s with lineA := t.lineA, lineB := t.lineB }) ∧
            (s.station? l a = none → t.station? l a =
              some ⟨setup, .expected, none, 0, 0, false, false, setup.kind.lampKeys.map fun k => ⟨k, .off, none⟩, []⟩) ∧
            ∀ st, s.station? l a = some st →
              (st.setup.kind = setup.kind → t.station? l a = some { st with
                setup := setup, configurePending := st.configurePending || decide (st.state = .online) }) ∧
              (st.setup.kind ≠ setup.kind → discarded t l a ∧ t.groups = (s.offlineStation l a).groups ∧
                (t.unit l).probeList = (s.unit l).probeList ∧ t.station? l a =
                some ⟨setup, .expected, none, 0, st.accepted, false, false,
                  setup.kind.lampKeys.map fun k => ⟨k, .off, none⟩, []⟩))) ∧
    (∀ (l : Line) (a : Byte),
      let refused (c : Instr) (r : Result) : Prop := exec c s = .next (s.answered 2 tag r false [])
      let remove : Instr := .removeStation tag [lineCode l, a]
      let read : Instr := .readStation tag [lineCode l, a]
      (s.saving.isSome = true → refused remove .busySaving) ∧
      (a = 0 ∨ 60 < a.toNat → (s.saving = none → refused remove .outOfRange) ∧ refused read .outOfRange) ∧
      (a ≠ 0 → a.toNat ≤ 60 → s.station? l a.toNat = none →
        (s.saving = none → refused remove .noSuch) ∧ refused read .noSuch) ∧
      ∀ st, a ≠ 0 → a.toNat ≤ 60 → s.station? l a.toNat = some st →
        (st.keys.length ≤ 12 → st.lamps.length ≤ 12 → (∀ edges f, st.setup = .contact edges f → edges.length = 8) →
          exec read s = .next (s.answered 2 tag .ok false (s.stationBody l a.toNat st))) ∧
        (s.saving = none → ∃ t : State, exec remove s = .next (t.answered 2 tag .ok false []) ∧ otherStations t l a.toNat ∧
          discarded t l a.toNat ∧ t.station? l a.toNat = none ∧
          (t.unit l).probeList = (s.unit l).probeList.filter (· != a.toNat) ∧
          ∀ g, Table.at? t.groups g = (Table.at? (s.offlineStation l a.toNat).groups g).map fun x => { x with
            members := x.members.filter (· != ⟨l, a.toNat⟩)
            delivery := x.delivery.map fun es => es.filter fun e => e.member != ⟨l, a.toNat⟩ }))

/-- ConfigureGroup: BUSY_SAVING, else BAD_REQUEST, else OUT_OF_RANGE, else NOT_NOW while a code is PENDING, else OK: the
group has the new members and no delivery, and each ONLINE station whose membership changed has configure pending.
SendGroupLamp: BAD_REQUEST for a banner code above 2, OUT_OF_RANGE outside 1..15, NO_SUCH for no member, else OK: the
banner is stored, the delivery number goes on modulo 8, each member is PENDING if ONLINE on a line INTACT or SPLIT and
else OFFLINE with query count 0, the group waits on exactly the lines with a PENDING member, and GROUP is raised if
none is PENDING. ReadGroupResult: OUT_OF_RANGE, else OK with members, banner, delivery number, and the codes, absent
with no delivery. No other group changes. The layout of the last (log entry 10), and BAD_REQUEST for a banner code
before R133's own checks (log entry 12), are the model's choices. (R132, R133, log entry 10, log entry 12) -/
def Obligations.GroupRequests : Prop :=
  ∀ (s : State) (tag : Byte), s.TakesRequests →
    (∀ body : List Byte, body.length ≤ 250 →
      let c : Instr := .configureGroup tag body
      let refused (r : Result) : Prop := exec c s = .next (s.answered body.length tag r false [])
      (s.saving.isSome = true → refused .busySaving) ∧
      (s.saving = none → (decodeGroup body = .malformed → refused .badRequest) ∧
        (decodeGroup body = .outOfRange → refused .outOfRange) ∧
        ∀ g members x, decodeGroup body = .ok (g, members) → Table.at? s.groups g = some x →
          ((∃ es, x.delivery = some es ∧ ∃ e ∈ es, e.code = .pending) → refused .notNow) ∧
          ((∀ es, x.delivery = some es → ∀ e ∈ es, e.code ≠ .pending) →
            ∃ t : State, exec c s = .next (t.answered body.length tag .ok false []) ∧
              t = { s with groups := t.groups, lineA := t.lineA, lineB := t.lineB } ∧
              (∀ i, Table.at? t.groups i = if i = g then some { x with members := members, delivery := none }
                else Table.at? s.groups i) ∧
              ∀ l a, t.station? l a = (s.station? l a).map fun st =>
                if st.state = .online ∧ (x.members.contains ⟨l, a⟩ ≠ members.contains ⟨l, a⟩)
                then { st with configurePending := true } else st))) ∧
    (∀ g banner : Byte,
      let c : Instr := .sendGroupLamp tag [g, banner]
      let refused (r : Result) : Prop := exec c s = .next (s.answered 2 tag r false [])
      (2 < banner.toNat → refused .badRequest) ∧
      (banner.toNat ≤ 2 → g = 0 ∨ 15 < g.toNat → refused .outOfRange) ∧
      ∀ x, banner.toNat ≤ 2 → g ≠ 0 → g.toNat ≤ 15 → Table.at? s.groups g.toNat = some x →
        (x.members = [] → refused .noSuch) ∧
        (x.members ≠ [] →
          let reachable (m : Member) : Prop := ((s.unit m.line).state = .intact ∨ (s.unit m.line).state = .split) ∧
            ∃ st, s.station? m.line m.address = some st ∧ st.state = .online
          ∃ (t : State) (entries : List DeliveryEntry), exec c s = .next (t.answered 2 tag .ok false []) ∧
            t = { s with groups := t.groups, lineA := t.lineA, lineB := t.lineB, notices := t.notices } ∧
            (∀ i, Table.at? t.groups i = if i = g.toNat then
              some ⟨x.members, if banner = 0 then .off else if banner = 1 then .on else .flash, (x.lastNumber + 1) % 8,
                some entries⟩ else Table.at? s.groups i) ∧
            entries.map (·.member) = x.members ∧
            (∀ e ∈ entries, e.queries = 0 ∧ (reachable e.member → e.code = .pending) ∧
              (¬ reachable e.member → e.code = .offline)) ∧
            (∀ l, g.toNat ∈ (t.unit l).waiting ↔ ∃ m ∈ x.members, m.line = l ∧ reachable m) ∧
            (∀ l i, i ≠ g.toNat → (i ∈ (t.unit l).waiting ↔ i ∈ (s.unit l).waiting)) ∧
            ((∃ m ∈ x.members, reachable m) → t.notices = s.notices) ∧
            ((∀ m ∈ x.members, ¬ reachable m) → t.notices = { s.notices with group := true }))) ∧
    ∀ g : Byte,
      (g = 0 ∨ 15 < g.toNat → exec (.readGroupResult tag [g]) s = .next (s.answered 1 tag .outOfRange false [])) ∧
      ∀ x, g ≠ 0 → g.toNat ≤ 15 → Table.at? s.groups g.toNat = some x → x.members.length ≤ 32 →
        (∀ es, x.delivery = some es → es.length ≤ 32) →
        exec (.readGroupResult tag [g]) s = .next (s.answered 1 tag .ok false
          ((x.members.flatMap fun m => [lineCode m.line, byteOf m.address]) ++ [x.banner.code, byteOf x.lastNumber] ++
            (match x.delivery with | some es => es.map fun e => e.code.code | none => x.members.map fun _ => 0xFF)))

/-- Survey: LINE_BUSY on a line OFF or CONTESTED, else in work, with address 1 next and nothing found. The end of a
Survey's slot adds to the list the address with the kind a sound Answer reports, or GARBLED for anything else heard,
and nothing for silence (after the other end in SPLIT); the next address follows, and after address 60 the Survey
ends, held probe and heal expiries are taken, and the request in work is answered OK with the list. No station record
changes. LineControl: BUSY_SAVING, else OFF on an OFF line and ON on a line INTACT or SPLIT are OK and change nothing,
ON in CONTESTED is LINE_BUSY, OFF leaves a running or contested line OFF, silent, with heal, probe and listen timers
stopped and LINES raised (a line INTACT or SPLIT is lost by steps 3 and 4 of R128, which the statements on lost
stations and queries show), and ON brings an OFF line into INTACT, every miss count 0 and reach UNKNOWN, and of an
ONLINE station (R129, R122, R106) asks a snapshot, forgets the lamps, and restarts the stuck timers of its keys in
DOWN or HELD with the full limit, its other key fields staying. SelectEnd: in INTACT OK with the active end and
continuity count 0, NOT_NOW in SPLIT, LINE_BUSY in OFF and CONTESTED. LineRestart: LINE_BUSY when OFF, else in work,
the line silent in its state with a listen of 200 ms, and lost by the same steps if it was INTACT or SPLIT. ReadLine:
OK with the record and the addresses by state, and the taken-over flag clear. The model's choices: a line that stops
drops a Continuity asked for (log entry 18); a held expiry is taken once, its timer having run on (log entry 27); the
first sound copy of a Survey's answer is taken in SPLIT too (log entry 37); OFF and ON are flags (log entry 11); the
codes of the line states are a free value (log entry 8); and the order of ReadLine's bytes (log entry 10). (R125,
R126, R128, R129, R130, R131, R136, R164, R116, log entries 8, 10, 11, 18, 27 and 37) -/
def Obligations.LineRequests : Prop :=
  (∀ (s : State) (tag : Byte) (l : Line), s.TakesRequests →
    let code := lineCode l
    let u := s.unit l
    (exec (.selectEnd tag [code, 0]) s = .next (match u.state with
      | .intact => (s.setUnit l { u with active := .a, continuity := 0 }).answered 2 tag .ok false []
      | .split => s.answered 2 tag .notNow false []
      | .off | .contested => s.answered 2 tag .lineBusy false [])) ∧
    (exec (.selectEnd tag [code, 1]) s = .next (match u.state with
      | .intact => (s.setUnit l { u with active := .b, continuity := 0 }).answered 2 tag .ok false []
      | .split => s.answered 2 tag .notNow false []
      | .off | .contested => s.answered 2 tag .lineBusy false [])) ∧
    (exec (.survey tag [code]) s = .next (
      if u.state = .off ∨ u.state = .contested then s.answered 1 tag .lineBusy false []
      else (s.setUnit l { u with survey := some ⟨1, [], false, false⟩ }).atWork 0x46 tag [code])) ∧
    (exec (.readLine tag [code]) s = .next ((s.setUnit l { u with takenOver := false }).answered 1 tag .ok false
      ([u.state.code, endCode u.preferred, endCode u.active, byteOf u.continuity, flagByte u.healTimer.isSome,
        flagByte u.takenOver] ++ [StationState.expected, .joining, .online, .mismatch, .missing].flatMap fun state =>
          addressSet ((u.stations.filter fun e => e.2.state == state).map Prod.fst)))) ∧
    (u.state = .off → exec (.lineRestart tag [code]) s = .next (s.answered 1 tag .lineBusy false [])) ∧
    (u.state ≠ .off → ∃ t : State, exec (.lineRestart tag [code]) s = .next (t.atWork 0x49 tag [code]) ∧
      (t.unit l).state = u.state ∧ (t.unit l).listen = some 200 ∧ (t.unit l).slot = none ∧ (t.unit l).healTimer = none ∧
      (t.unit l).probeTimer = none ∧ t.mode = s.mode ∧ t.racks = s.racks ∧
      (u.state = .contested → t = s.setUnit l { u with
        slot := none, healTimer := none, probeTimer := none, listen := some 200, continuityAsked := false }) ∧
      (u.state ≠ .contested →
        let lost := (s.setUnit l { u with
          slot := none, healTimer := none, probeTimer := none, listen := none, continuityAsked := false }).loseLine l
        t = lost.setUnit l { lost.unit l with listen := some 200 })) ∧
    (s.saving.isSome = true → ∀ setting : Byte, setting.toNat ≤ 1 →
      exec (.lineControl tag [code, setting]) s = .next (s.answered 2 tag .busySaving false [])) ∧
    (s.saving = none →
      (u.state = .off → exec (.lineControl tag [code, 0]) s = .next (s.answered 2 tag .ok false [])) ∧
      (u.state ≠ .off → ∃ t : State, exec (.lineControl tag [code, 0]) s = .next (t.answered 2 tag .ok false []) ∧
        (t.unit l).state = .off ∧ (t.unit l).listen = none ∧ (t.unit l).slot = none ∧ (t.unit l).healTimer = none ∧
        (t.unit l).probeTimer = none ∧ t.notices.has .lines = true ∧ t.mode = s.mode ∧ t.racks = s.racks ∧
        let off := s.setUnit l { u with
          state := .off, slot := none, healTimer := none, probeTimer := none, listen := none, continuityAsked := false }
        let lost := if u.state = .contested then off else off.loseLine l
        t = { lost with notices := { lost.notices with lines := true } }) ∧
      (u.state = .contested → exec (.lineControl tag [code, 1]) s = .next (s.answered 2 tag .lineBusy false [])) ∧
      (u.state = .intact ∨ u.state = .split → exec (.lineControl tag [code, 1]) s = .next (s.answered 2 tag .ok false [])) ∧
      (u.state = .off → ∃ t : State, exec (.lineControl tag [code, 1]) s = .next (t.answered 2 tag .ok false []) ∧
        (t.unit l).state = .intact ∧ (t.unit l).active = u.preferred ∧ (t.unit l).continuity = 0 ∧
        (t.unit l).probeTimer = some 1000 ∧ t.notices = { s.notices with lines := true } ∧
        t = { s with lineA := t.lineA, lineB := t.lineB, notices := t.notices } ∧
        ∀ a st, s.station? l a = some st → ∃ st', t.station? l a = some st' ∧ st'.state = st.state ∧ st'.missCount = 0 ∧
          st'.reach = none ∧ (Table.InOrder u.stations →
            st' = { st with
              missCount := 0, reach := none, snapshotNeeded := st.snapshotNeeded || decide (st.state = .online)
              lamps := if st.state = .online then st.lamps.map fun p => { p with confirmed := none } else st.lamps
              keys := st'.keys } ∧
            (st.state ≠ .online → st'.keys = st.keys)) ∧
          (st.state = .online → st'.snapshotNeeded = true ∧ (∀ p ∈ st'.lamps, p.confirmed = none) ∧
            ∀ i, Table.at? st'.keys i = (Table.at? st.keys i).map (KeyRecord.returned s.settings.stuck))))) ∧
  ∀ (s : State) (l : Line) (x : Slot) (a n : Nat) (v : Survey), s.power = .running → (s.unit l).slot = some x →
    x.window = some n → x.carries = .survey a → (s.unit l).survey = some v →
    let u := s.unit l
    let ended (found : List (Nat × Byte)) : State :=
      if a < 60 then
        s.setUnit l { u with slot := none, survey := some { v with next := a + 1, found := v.found ++ found } }
      else
        let probed := ((u.stations.filter fun e =>
          e.2.state == .expected || e.2.state == .missing || e.2.state == .mismatch).map Prod.fst).filter
            fun i => !u.probeList.contains i
        { s.setUnit l { u with
            slot := none, survey := none, continuityAsked := u.continuityAsked || v.healHeld
            probeList := if v.probeHeld then u.probeList ++ probed else u.probeList } with
          hostSlot := match s.hostSlot with
            | .working q =>
              .answerReady ⟨q.tag, .ok, false, (v.found ++ found).flatMap fun e => [byteOf e.1, e.2]⟩
            | slot => slot }
    (∀ heard before h rest f, heard = before ++ h :: rest → (∀ i ∈ before, decodeAnswer i.chars = none) →
      decodeAnswer h.chars = some f → exec (.stationAnswer l heard) s = .next (ended [(a, byteOf f.kindCode)])) ∧
    (∀ heard, heard ≠ [] → (∀ h ∈ heard, decodeAnswer h.chars = none) →
      exec (.stationAnswer l heard) s = .next (ended [(a, 0xFE)])) ∧
    (∀ heard, heard ≠ [] → exec (.snapshotAnswer l heard) s = .next (ended [(a, 0xFE)])) ∧
    (x.otherSide = none ∨ u.state ≠ .split → exec (.answerWindowExpiry l) s = .next (ended [])) ∧
    ∀ e, x.otherSide = some e → u.state = .split → exec (.answerWindowExpiry l) s = .next (s.setUnit l { u with
      slot := some { x with side := e, otherSide := none, window := none, sending := x.content } })

/-- FOREIGN_CHARACTER in a running part: a line INTACT or SPLIT with no listen becomes CONTESTED, silent, with heal, probe
and listen timers stopped, its Survey ended and answered LINE_BUSY, LINES raised, and the line is lost by steps 3 and
4 of R128: its stations are treated as MISSING and its PENDING codes become OFFLINE, as the statements on lost
stations and on queries show; one OFF or CONTESTED is unchanged. During a listen the listen ends and the line is
CONTESTED, with LINES raised unless it was CONTESTED, and the request in work is answered LINE_BUSY.
RESTART_LISTEN_EXPIRY with a listen: INTACT on the preferred end, continuity count 0, probe timer 1 s, every station's
miss count 0 and reach UNKNOWN, an ONLINE one needing a snapshot with its lamps UNKNOWN and the stuck timers of its
keys in DOWN or HELD running again with the full limit, its other key fields and every other station's keys as they
were, LINES raised, the request in work answered OK; without a listen nothing changes, which is the model's choice
(log entry 1). That a Continuity asked for is dropped when the line stops is the model's choice (log entry 18). (R128,
R129, R164, log entry 1, R131, R122, R106, log entry 18) -/
def Obligations.ForeignCharactersAndTheRestartListen : Prop :=
  ∀ (s : State) (l : Line), s.power = .running →
    let u := s.unit l
    (u.listen = none → u.state = .off ∨ u.state = .contested → exec (.foreignCharacter l) s = .next s) ∧
    (u.listen = none → u.state = .intact ∨ u.state = .split → ∃ t : State, exec (.foreignCharacter l) s = .next t ∧
      (t.unit l).state = .contested ∧ (t.unit l).slot = none ∧ (t.unit l).healTimer = none ∧ (t.unit l).probeTimer = none ∧
      (t.unit l).listen = none ∧ (t.unit l).survey = none ∧ t.notices.has .lines = true ∧
      (∀ a, (t.station? l a).map (fun st => (st.state, st.missCount, st.reach)) =
        (s.station? l a).map fun st => (st.state, st.missCount, st.reach)) ∧
      (∀ q, s.hostSlot = .working q → u.survey.isSome = true → t.hostSlot = .answerReady ⟨q.tag, .lineBusy, false, []⟩) ∧
      (u.survey = none → t.hostSlot = s.hostSlot) ∧
      (let lost := (s.setUnit l { u with
          state := .contested, slot := none, healTimer := none, probeTimer := none, listen := none,
          continuityAsked := false, survey := none }).loseLine l;
        t = { lost with notices := { lost.notices with lines := true }, hostSlot := t.hostSlot }) ∧
      t.mode = s.mode ∧ t.racks = s.racks ∧ t.settings = s.settings) ∧
    (∀ n q, u.listen = some n → u.state ≠ .off → s.hostSlot = .working q → ∃ t : State, exec (.foreignCharacter l) s = .next t ∧
      t = { s.setUnit l { u with
              state := .contested, slot := none, healTimer := none, probeTimer := none, listen := none,
              continuityAsked := false } with
            notices := if u.state = .contested then s.notices else { s.notices with lines := true }
            hostSlot := .answerReady ⟨q.tag, .lineBusy, false, []⟩ }) ∧
    (u.listen = none → exec (.restartListenExpiry l) s = .next s) ∧
    (∀ n q, u.listen = some n → s.hostSlot = .working q → ∃ t : State, exec (.restartListenExpiry l) s = .next t ∧
      t = { s with
        lineA := t.lineA, lineB := t.lineB, notices := { s.notices with lines := true },
        hostSlot := .answerReady ⟨q.tag, .ok, false, []⟩ } ∧
      (∀ l', l' ≠ l → t.unit l' = s.unit l') ∧
      (t.unit l).state = .intact ∧ (t.unit l).active = u.preferred ∧ (t.unit l).continuity = 0 ∧
      (t.unit l).listen = none ∧ (t.unit l).probeTimer = some 1000 ∧
      ∀ a st, s.station? l a = some st → ∃ st', t.station? l a = some st' ∧ st'.state = st.state ∧ st'.missCount = 0 ∧
        st'.reach = none ∧ (Table.InOrder u.stations →
            st' = { st with
              missCount := 0, reach := none, snapshotNeeded := st.snapshotNeeded || decide (st.state = .online)
              lamps := if st.state = .online then st.lamps.map fun p => { p with confirmed := none } else st.lamps
              keys := st'.keys } ∧
            (st.state ≠ .online → st'.keys = st.keys)) ∧
          (st.state = .online → st'.snapshotNeeded = true ∧ (∀ p ∈ st'.lamps, p.confirmed = none) ∧
            ∀ i, Table.at? st'.keys i = (Table.at? st.keys i).map (KeyRecord.returned s.settings.stuck)))

/-- MARKED_CHARACTER_SENT while a slot of the line has a frame going out: in INTACT a heard echo makes the continuity
count 0 and a missed one raises it, and at the third the line is SPLIT with count 0, heal timer 2 s, taken-over set,
every reach UNKNOWN, and LINES raised; a call or Survey slot in progress then has the other end still to try, and
another slot is as it was. In SPLIT, for a Continuity alone, a missed echo makes the count 0 and a heard one raises
it, and at the third the line is INTACT on the preferred end with the heal timer stopped, count 0, every reach
UNKNOWN, and LINES raised. PROBE_TIMER_EXPIRY, where the timer runs and no Survey does, restarts it and puts every
station EXPECTED, MISSING or MISMATCH on the probe list that is not on it, in rising address; HEAL_TIMER_EXPIRY
restarts its timer and asks for a Continuity. With no frame going out, or the timer stopped, nothing changes: this
(log entry 1), the slot's change at the entry into SPLIT (log entry 17) and the end that takes effect at a heal (log
entry 16) are the model's choices. (R120, R126, R127, log entry 1, log entry 16, log entry 17) -/
def Obligations.EchoesSplitAndHeal : Prop :=
  ∀ (s : State) (l : Line), s.power = .running →
    let u := s.unit l
    let unknownReach (v : LineUnit) : Prop :=
      ∀ a, Table.at? v.stations a = (Table.at? u.stations a).map fun st => { st with reach := none }
    (u.slot = none → ∀ echo, exec (.markedCharacterSent l echo) s = .next s) ∧
    (∀ x, u.slot = some x → x.sending = [] → ∀ echo, exec (.markedCharacterSent l echo) s = .next s) ∧
    (∀ x, u.slot = some x → x.sending ≠ [] →
      (u.state = .intact →
        exec (.markedCharacterSent l true) s = .next (s.setUnit l { u with continuity := 0 }) ∧
        (u.continuity < 2 →
          exec (.markedCharacterSent l false) s = .next (s.setUnit l { u with continuity := u.continuity + 1 })) ∧
        (2 ≤ u.continuity → ∃ v : LineUnit,
          exec (.markedCharacterSent l false) s =
            .next { s.setUnit l v with notices := { s.notices with lines := true } } ∧
          v.state = .split ∧ v.continuity = 0 ∧ v.healTimer = some 2000 ∧ v.takenOver = true ∧ unknownReach v ∧
          v = { u with
            state := v.state, continuity := v.continuity, healTimer := v.healTimer, takenOver := v.takenOver,
            stations := v.stations, slot := v.slot } ∧
          v.slot = some { x with otherSide := match x.carries with
            | .call _ | .survey _ => some (otherEnd x.side)
            | _ => x.otherSide })) ∧
      (u.state = .split → x.carries ≠ .continuity → ∀ echo, exec (.markedCharacterSent l echo) s = .next s) ∧
      (u.state = .split → x.carries = .continuity →
        exec (.markedCharacterSent l false) s = .next (s.setUnit l { u with continuity := 0 }) ∧
        (u.continuity < 2 →
          exec (.markedCharacterSent l true) s = .next (s.setUnit l { u with continuity := u.continuity + 1 })) ∧
        (2 ≤ u.continuity → ∃ v : LineUnit,
          exec (.markedCharacterSent l true) s =
            .next { s.setUnit l v with notices := { s.notices with lines := true } } ∧
          v.state = .intact ∧ v.active = u.preferred ∧ v.continuity = 0 ∧ v.healTimer = none ∧
          v.takenOver = u.takenOver ∧ unknownReach v))) ∧
    (u.probeTimer = none → exec (.probeTimerExpiry l) s = .next s) ∧
    (∀ n, u.probeTimer = some n → u.survey = none →
      exec (.probeTimerExpiry l) s = .next (s.setUnit l { u with
        probeTimer := some 1000
        probeList := u.probeList ++ ((u.stations.filter fun e =>
          e.2.state == .expected || e.2.state == .missing || e.2.state == .mismatch).map Prod.fst).filter
            fun a => !u.probeList.contains a })) ∧
    (u.healTimer = none → exec (.healTimerExpiry l) s = .next s) ∧
    (∀ n, u.healTimer = some n → u.survey = none →
      exec (.healTimerExpiry l) s = .next (s.setUnit l { u with healTimer := some 2000, continuityAsked := true }))

/-- SLOT_START on a line INTACT or SPLIT with no slot and no listen, in a running part: in a Survey, a Call to the next
address; else a Continuity asked for, on the preferred end in SPLIT; else the Group Lamp frame of the first waiting
group, which is the lowest since those that wait rise strictly (the statement on tables says every step keeps this);
else a station call: to the polled set (its lowest ONLINE or JOINING address at or above the next polled one, or its
lowest) or to the first station of the probe list that is EXPECTED, MISSING or MISMATCH, by turn where both have one,
and the turn passes to the other; in SPLIT on the end of the station's reach, or, that UNKNOWN, on the preferred end
with the other still to try. With nothing to send nothing changes. STATION_FRAME_SENT: with a further frame it
follows; after the last of a call or Survey slot the 3 ms window opens; a Continuity slot ends; a Group Lamp slot goes
to the other end in SPLIT, or ends and its group leaves the waiting set. The model's choices: a Survey's slot derives
no desired lamps (log entry 38), a slot start or frame end where none is possible changes nothing (log entry 1), the
turn passes also where one set was empty (15), the preferred end in effect (16), a Group Lamp goes on the preferred
end first (17), its group leaves the set when its frame has gone out (21), and the frame's bits without a meaning are
0 (40). (R116, R120, R126, R127, R131, R133, log entries 1, 15, 16, 17, 21, 38 and 40) -/
def Obligations.SlotsAreChosenInOrder : Prop :=
  ∀ (s : State) (l : Line), s.power = .running →
    let u := s.unit l
    (u.slot.isSome = true ∨ u.listen.isSome = true ∨ u.state = .off ∨ u.state = .contested →
      exec (.slotStart l) s = .next s) ∧
    (u.slot = none → u.listen = none → u.state = .intact ∨ u.state = .split →
      let first := if u.state = .split then u.preferredInUse else u.active
      let both := if u.state = .split then some (otherEnd u.preferredInUse) else none
      (∀ v, u.survey = some v →
        let frame := callFrame v.next (((s.station? l v.next).map (·.accepted)).getD 0) false none
        exec (.slotStart l) s = .next (s.setUnit l { u with
          slot := some ⟨.survey v.next, [frame], first, [frame], both, none⟩ })) ∧
      (∀ g rest, u.TablesInOrder → u.waiting = g :: rest → ∀ i ∈ u.waiting, g ≤ i) ∧
      (u.survey = none → u.continuityAsked = true → exec (.slotStart l) s = .next (s.setUnit l { u with
        continuityAsked := false, slot := some ⟨.continuity, [[0, 6, 0xFA]], first, [[0, 6, 0xFA]], none, none⟩ })) ∧
      (∀ g rest x, u.survey = none → u.continuityAsked = false → u.waiting = g :: rest → Table.at? s.groups g = some x →
        let frame := withCheck [byteOf (64 + g), 5, x.banner.code <<< 4 ||| byteOf x.lastNumber]
        exec (.slotStart l) s = .next (s.setUnit l { u with
          slot := some ⟨.groupLamp g, [frame], first, [frame], both, none⟩ })) ∧
      (u.survey = none → u.continuityAsked = false → u.waiting = [] → (∀ e ∈ u.stations, e.2.state.polled = false) →
        (∀ a ∈ u.probeList, ∀ st, s.station? l a = some st → st.state.probed = false) → exec (.slotStart l) s = .next s) ∧
      (∀ (a : Nat) (probe : Bool) (st : Station), u.survey = none → u.continuityAsked = false → u.waiting = [] →
        s.station? l a = some st →
        (if probe then u.nextProbe = some a ∧ (u.nextPoll = none ∨ u.turn = .probe)
          else u.nextPoll = some a ∧ (u.nextProbe = none ∨ u.turn = .polled)) →
        ∃ (v : LineUnit) (x : Slot) (c : StationCall), exec (.slotStart l) s = .next (s.setUnit l v) ∧
          v = { u with
            turn := if probe then .polled else .probe
            nextPolled := if probe then u.nextPolled else if a < 60 then a + 1 else 1
            slot := some x, stations := v.stations } ∧
          x.carries = .call c ∧ c.address = a ∧ c.fromProbeList = probe ∧ c.voided = false ∧ x.sending = x.content ∧
          x.window = none ∧
          x.side = (if u.state = .split then st.reach.getD u.preferredInUse else u.active) ∧
          x.otherSide = if u.state = .split ∧ st.reach = none then some (otherEnd u.preferredInUse) else none)) ∧
    (let polled (a : Nat) : Prop := ∃ st, s.station? l a = some st ∧ (st.state = .online ∨ st.state = .joining)
      let probed (a : Nat) : Prop := ∃ st, s.station? l a = some st ∧
        (st.state = .expected ∨ st.state = .missing ∨ st.state = .mismatch)
      (Table.InOrder u.stations → (u.nextPoll = none ↔ ∀ a, ¬ polled a) ∧
        ∀ a, u.nextPoll = some a → polled a ∧ (u.nextPolled ≤ a → ∀ b, polled b → u.nextPolled ≤ b → a ≤ b) ∧
          (a < u.nextPolled → ∀ b, polled b → b < u.nextPolled ∧ a ≤ b)) ∧
      (u.nextProbe = none ↔ ∀ a ∈ u.probeList, ¬ probed a) ∧
      ∀ a, u.nextProbe = some a ↔
        ∃ before rest, u.probeList = before ++ a :: rest ∧ probed a ∧ ∀ b ∈ before, ¬ probed b) ∧
    (∀ x f g rest, u.slot = some x → x.sending = f :: g :: rest →
      exec (.stationFrameSent l) s = .next (s.setUnit l { u with slot := some { x with sending := g :: rest } })) ∧
    (∀ x f, u.slot = some x → x.sending = [f] →
      (∀ c, x.carries = .call c ∨ (∃ a, x.carries = .survey a) →
        exec (.stationFrameSent l) s = .next (s.setUnit l { u with slot := some { x with sending := [], window := some 3 } })) ∧
      (x.carries = .continuity → exec (.stationFrameSent l) s = .next (s.setUnit l { u with slot := none })) ∧
      (∀ g, x.carries = .groupLamp g → x.otherSide = none → exec (.stationFrameSent l) s =
        .next (s.setUnit l { u with slot := none, waiting := u.waiting.filter (· != g) })) ∧
      (∀ g e, x.carries = .groupLamp g → x.otherSide = some e → exec (.stationFrameSent l) s =
        .next (s.setUnit l { u with slot := some { x with side := e, otherSide := none, sending := x.content } }))) ∧
    (u.slot = none → exec (.stationFrameSent l) s = .next s)

/-- For a station call whose window is open. For a record gone or of another kind since, the slot just ends. Else a sound
Answer of the right kind makes an EXPECTED, MISSING or MISMATCH station JOINING and a JOINING one ONLINE with
configure pending clear, snapshot needed, every lamp UNKNOWN and STATIONS raised, with one new key record for each
input of its kind where it had none, and else its own with the stuck timers of DOWN and HELD keys running again,
nothing else changing; of an ONLINE one it clears configure pending after a Configure, then its events are accepted,
an overrun sets snapshot needed, and a group query is settled. An Answer, or a Snapshot Answer to a Snapshot Call, of
another kind makes any but a MISMATCH station MISMATCH with no key records, their holdings, repeats and captured marks
gone, its PENDING codes OFFLINE and STATIONS raised, and nothing else changes. A sound Snapshot Answer to a Snapshot
Call of an ONLINE station sets accepted-through, clears snapshot needed, and is compared. In each case the miss count
is 0, the lamps sent are confirmed, in SPLIT the end is learnt, and an ONLINE station stays so. A window that expires
with no other end to try, an answer that is not sound, and one of the wrong type, settle the query and are a miss: the
miss count of an ONLINE or JOINING station rises, and at 3 it is MISSING with STATIONS raised (the statement on lost
stations says what that does); of another nothing moves; no lamp changes; in SPLIT the reach becomes UNKNOWN. In SPLIT
the frames go out on the other end where it is to be tried. That the first sound copy is taken in SPLIT too (log entry
37), what the bytes of an answer outside their codes stand for (log entry 22) and what the end of a void slot does
(log entry 24) are the model's choices. Accepting, comparing and settling have statements of their own. (R118, R119,
R121, R122, R123, R124, R127, R133, R98, R106, log entries 22, 24 and 37) -/
def Obligations.StationCallsEnd : Prop :=
  ∀ (s : State) (l : Line) (x : Slot) (c : StationCall) (n : Nat), s.power = .running →
    (s.unit l).slot = some x → x.window = some n → x.carries = .call c →
    let u := s.unit l
    let ended := s.setUnit l { u with
      slot := none, probeList := if c.fromProbeList then u.probeList.erase c.address else u.probeList }
    (c.voided = true → exec (.answerWindowExpiry l) s = .next ended ∧ ∀ heard, heard ≠ [] →
      exec (.stationAnswer l heard) s = .next ended ∧ exec (.snapshotAnswer l heard) s = .next ended) ∧
    (c.voided = false → ∀ e, x.otherSide = some e → u.state = .split → exec (.answerWindowExpiry l) s = .next (s.setUnit l
      { u with slot := some { x with side := e, otherSide := none, window := none, sending := x.content } })) ∧
    ∀ st, c.voided = false → s.station? l c.address = some st →
      let noted (side : LineEnd) : State := ended.onStation l c.address fun y => { y with
        missCount := 0, reach := if u.state = .split then some side else y.reach
        lamps := y.lamps.map fun p => { p with
          confirmed := (((c.lampsSent.getD []).find? fun e => e.1 == p.key).map (·.2)).or p.confirmed } }
      let mismatched (side : LineEnd) (t : State) (st' : Station) : Prop :=
        let offline := (noted side).offlineStation l c.address
        st'.state = .mismatch ∧ (st.state = .mismatch → t = noted side) ∧
        (st.state ≠ .mismatch →
          (∃ y, (noted side).station? l c.address = some y ∧ st' = { y with state := .mismatch, keys := [] }) ∧
          (s.ListsSound → s.TablesInOrder → (noted side).KeysDiscarded t l c.address) ∧
          t.groups = offline.groups ∧ t.notices = { offline.notices with stations := true } ∧
          (∀ l', t.unit l' = { (noted side).unit l' with
            stations := (t.unit l').stations, waiting := (offline.unit l').waiting }) ∧
          t = { noted side with
            circuits := t.circuits, bindings := t.bindings, repeats := t.repeats, groups := t.groups
            notices := t.notices, lineA := t.lineA, lineB := t.lineB })
      let heardFirst (good : List Character → Bool) (side : LineEnd) (chars : List Character) (heard : List Heard) : Prop :=
        ∃ before rest, heard = before ++ ⟨side, chars⟩ :: rest ∧ ∀ h ∈ before, good h.chars = false
      (∀ heard side chars f, heardFirst (fun q => (decodeAnswer q).isSome) side chars heard → decodeAnswer chars = some f →
        c.frame ≠ .snapshotCall →
        ∃ (t : State) (st' : Station), exec (.stationAnswer l heard) s = .next t ∧ (t.unit l).slot = none ∧
          t.station? l c.address = some st' ∧ st'.setup = st.setup ∧ st'.missCount = 0 ∧
          (stationKindOfNat f.kindCode = some st.setup.kind →
            (st.state = .expected ∨ st.state = .missing ∨ st.state = .mismatch →
              t = (noted side).onStation l c.address fun y => { y with state := .joining }) ∧
            (st.state = .joining →
              st' = { st with
                state := .online, configurePending := false, snapshotNeeded := true, missCount := 0
                reach := if u.state = .split then some side else st.reach
                lamps := st.lamps.map fun p => { p with confirmed := none }
                keys := st'.keys } ∧
              (st.keys = [] → st'.keys = st.setup.firstKeys) ∧
              (st.keys ≠ [] → ∀ i, Table.at? st'.keys i =
                (Table.at? st.keys i).map (KeyRecord.returned s.settings.stuck)) ∧
              (∀ l' a, l' ≠ l ∨ a ≠ c.address → t.station? l' a = s.station? l' a) ∧
              (∀ l', t.unit l' = { ended.unit l' with stations := (t.unit l').stations }) ∧
              t = { s with lineA := t.lineA, lineB := t.lineB, notices := { s.notices with stations := true } }) ∧
            (st.state = .online → st'.state = .online ∧
              let taken := if c.frame = .configure then
                  (noted side).onStation l c.address fun y => { y with configurePending := false }
                else noted side
              let events := taken.acceptEvents l c.address f.events
              let flagged := if f.overrun then
                  events.onStation l c.address fun y => { y with snapshotNeeded := true }
                else events
              t = c.query.elim flagged fun g => flagged.settleQuery g ⟨l, c.address⟩ (.acknowledged f.ack))) ∧
          (stationKindOfNat f.kindCode ≠ some st.setup.kind → mismatched side t st')) ∧
      (∀ heard side chars f, heardFirst (fun q => (decodeSnapshot q).isSome) side chars heard →
        decodeSnapshot chars = some f → c.frame = .snapshotCall → f.kind ≠ st.setup.kind →
        ∃ (t : State) (st' : Station), exec (.snapshotAnswer l heard) s = .next t ∧ (t.unit l).slot = none ∧
          t.station? l c.address = some st' ∧ mismatched side t st') ∧
      (∀ heard side chars f, heardFirst (fun q => (decodeSnapshot q).isSome) side chars heard →
        decodeSnapshot chars = some f → c.frame = .snapshotCall → f.kind = st.setup.kind → st.state = .online →
        ∃ (t : State) (st' : Station), exec (.snapshotAnswer l heard) s = .next t ∧ (t.unit l).slot = none ∧
          t.station? l c.address = some st' ∧ st'.state = .online ∧ st'.accepted = f.sequence ∧ st'.snapshotNeeded = false ∧
          st'.missCount = 0 ∧ st'.setup = st.setup ∧
          t = ((noted side).onStation l c.address fun y => { y with
            accepted := f.sequence, snapshotNeeded := false }).compareSnapshot l c.address f.inputs) ∧
      ∀ command how,
        (how = QueryEnd.silent ∧ (x.otherSide = none ∨ u.state ≠ .split) ∧ command = Instr.answerWindowExpiry l) ∨
        (how = .garbled ∧ ∃ heard, heard ≠ [] ∧
          (command = .stationAnswer l heard ∧ ((∀ h ∈ heard, decodeAnswer h.chars = none) ∨ c.frame = .snapshotCall) ∨
            command = .snapshotAnswer l heard ∧ ((∀ h ∈ heard, decodeSnapshot h.chars = none) ∨ c.frame ≠ .snapshotCall))) →
        ∃ (t : State) (st' : Station), exec command s = .next t ∧ (t.unit l).slot = none ∧ t.station? l c.address = some st' ∧
          let settled := c.query.elim ended fun g => ended.settleQuery g ⟨l, c.address⟩ how
          let missed (count : Option Nat) : State := settled.onStation l c.address fun y => { y with
            missCount := count.getD y.missCount, reach := if u.state = .split then none else y.reach }
          st'.accepted = st.accepted ∧ st'.setup = st.setup ∧ st'.lamps = st.lamps ∧
          st'.reach = (if u.state = .split then none else st.reach) ∧
          (st.state.polled = false → st'.state = st.state ∧ st'.missCount = st.missCount ∧
            (c.query = none → t.notices = s.notices) ∧ t = missed none) ∧
          (st.state.polled = true → st'.missCount = min 3 (st.missCount + 1) ∧
            (st.missCount < 2 → st'.state = st.state ∧ (c.query = none → t.notices = s.notices) ∧ t.circuits = s.circuits ∧
              t = missed (some (st.missCount + 1))) ∧
            (2 ≤ st.missCount → st'.state = .missing ∧ t.notices.has .stations = true ∧
              t = (missed (some 3)).enterMissing l c.address))

/-- SetMode: BAD_REQUEST for a code above 5, OK with no change for the present mode. Otherwise OK: the mode and its feed;
the light of each binding ARMED for the old mode and not the new is released by the five steps of R53, scenes recalled
included; on a change into or out of PERFORMANCE the claims of AUDIENCE circuits are dormant just when of tier 0 or 1
in PERFORMANCE; no binding's record changes, and nothing but mode, required feed, claims, bindings, scenes, repeats,
holdings and, where a step falls into the change, the step timer. On a new required feed each TRANSFER circuit STEADY,
FADING or UPSLOPE drops a pending transfer if it is on that feed; if not, it is in DOWNSLOPE from its level at the
report if the latch copy is clear and the rack ONLINE, else the feed is pending. One untouched before starts from its
old level, or, crossing PERFORMANCE, from the next step's, by a free value (log entry 31). With no such binding and no
PERFORMANCE, one in DOWNSLOPE on that feed fades to its target in the upslope time, and others are as they were.
ReadMode: OK with mode, start mode, latch, filtered PANIC and the count of EGRESS circuits; PANIC as a flag is the
model's choice (log entry 11). (R138, R139, R140, R141, R142, R143, R53, R31, R38, log entry 11, log entry 31) -/
def Obligations.SetModeAndReadMode : Prop :=
  ∀ (s : State) (tag : Byte), s.TakesRequests →
    (∀ code : Byte, 5 < code.toNat → exec (.setMode tag [code]) s = .next (s.answered 1 tag .badRequest false [])) ∧
    exec (.setMode tag [s.mode.code]) s = .next (s.answered 1 tag .ok false []) ∧
    exec (.readMode tag []) s = .next (s.answered 0 tag .ok false
      ([s.mode.code, s.settings.startMode.code, flagByte s.latch, flagByte s.panicFiltered] ++ bytes16 (s.holds .egress))) ∧
    ∀ m : HouseMode, m ≠ s.mode → s.requiredFeed = s.mode.requires →
      let crosses := s.mode = .performance ∨ m = .performance
      let news := m.requires ≠ s.mode.requires
      ∃ t : State, exec (.setMode tag [m.code]) s = .next (t.answered 1 tag .ok false []) ∧
        t.mode = m ∧ t.requiredFeed = m.requires ∧
        s.OnlyLight { t with
          mode := s.mode, requiredFeed := s.requiredFeed, stepTimer := s.stepTimer, freeUses := s.freeUses } ∧
        (¬ (crosses ∧ news) → t.stepTimer = s.stepTimer ∧ t.freeUses = s.freeUses) ∧
        (crosses → news → t.freeUses = s.freeUses + 1 ∧
          (Config.stepInModeChange s.freeUses = none → t.stepTimer = s.stepTimer) ∧
          (Config.stepInModeChange s.freeUses ≠ none → t.stepTimer = some 20)) ∧
        (∀ b, (Table.at? t.bindings b).map (·.record) = (Table.at? s.bindings b).map (·.record)) ∧
        (s.ListsSound → s.TablesInOrder → ∀ b x, Table.at? s.bindings b = some x → x.record.suspended = false →
          x.record.modes.has s.mode = true → x.record.modes.has m = false → s.Released t b x) ∧
        (crosses → ∀ e ∈ t.circuits, e.2.config.audience = true →
          ∀ k ∈ e.2.claims, (k.dormant = true ↔ k.tier ≤ 1 ∧ m = .performance)) ∧
        (news → ∀ c x, Table.at? s.circuits c = some x → x.config.kind = .transfer →
          x.transition.phase.mayTransfer = true → ∃ y, Table.at? t.circuits c = some y ∧ y.config = x.config ∧
            y.transition.feed = x.transition.feed ∧ y.transition.relay = x.transition.relay ∧
            let z := y.transition
            (x.transition.feed = m.requires → z.pendingTransfer = none ∧ z.phase.mayTransfer = true) ∧
            (x.transition.feed ≠ m.requires → s.latchCopy = false → s.feedOnline x.config m.requires = true →
              z.phase = .downslope ∧ z.pendingTransfer = none ∧ z.origin = z.level ∧ z.fadeEnd = 0 ∧ z.stepCount = 0 ∧
              z.stepTotal = max 1 (5 * x.config.downslope) ∧
              (s.leaving s.mode m = [] → x.config.audience = false → z.origin = x.transition.level ∨
                crosses ∧ z.origin = (x.transition.step x.config).level)) ∧
            (x.transition.feed ≠ m.requires → s.latchCopy = true ∨ s.feedOnline x.config m.requires = false →
              z.pendingTransfer = some m.requires ∧ z.phase.mayTransfer = true)) ∧
        (s.leaving s.mode m = [] → ¬ crosses →
          t = { s with mode := m, requiredFeed := m.requires, circuits := t.circuits } ∧ (¬ news → t.circuits = s.circuits) ∧
          (news → ∀ c x, Table.at? s.circuits c = some x → ∃ y, Table.at? t.circuits c = some { x with transition := y } ∧
            (x.config.kind ≠ .transfer ∨ x.transition.phase = .block → y = x.transition) ∧
            (x.config.kind = .transfer → x.transition.phase.mayTransfer = true →
              (x.transition.feed = m.requires → y = { x.transition with pendingTransfer := none }) ∧
              (x.transition.feed ≠ m.requires → s.latchCopy = true ∨ s.feedOnline x.config m.requires = false →
                y = { x.transition with pendingTransfer := some m.requires }) ∧
              (x.transition.feed ≠ m.requires → s.latchCopy = false → s.feedOnline x.config m.requires = true →
                y = { x.transition with
                  phase := .downslope, origin := x.transition.level, fadeEnd := 0, stepCount := 0,
                  stepTotal := max 1 (5 * x.config.downslope), pendingTransfer := none,
                  output := outputLevel x.config x.transition })) ∧
            (x.config.kind = .transfer → x.transition.phase = .downslope →
              (x.transition.feed ≠ m.requires → y = x.transition) ∧
              (x.transition.feed = m.requires → y = { x.transition with
                phase := .fading, origin := x.transition.level, fadeEnd := x.transition.target, stepCount := 0,
                stepTotal := max 1 (5 * x.config.upslope), output := outputLevel x.config x.transition }))))

/-- PANIC_INPUT_CHANGE: the input takes the level; in a running part a change starts the 50 ms filter timer where it
differs from the filtered state and stops it where it does not. PANIC_FILTER_EXPIRY while the timer runs: the filtered
state takes the input's level and EGRESS is raised; asserted with the latch clear, the latch and its copy are set and
every EGRESS circuit, its claims' tiers at most 3, holds the EGRESS contribution as its newest, with winning tier 3
and target 1000. With no timer running nothing changes, which is the model's choice (log entry 1). ClearEgress:
BAD_REQUEST with a body, ACTIVE while the filtered PANIC is asserted, OK with no change if the latch is clear; else OK
with the latch and its copy clear, no EGRESS contribution on any circuit, each circuit that held one resolved with
fade 0, a pending transfer whose feed's rack is ONLINE begun in STEADY, FADING and UPSLOPE, and EGRESS raised. The
order of the report and the resolutions is a free value (log entry 7); what they leave is the same in either order.
That no step of the step timer falls between the handovers of one request or expiry is the model's choice (log entry
35). (R39, R144, R145, R147, log entry 1, log entry 7, log entry 35) -/
def Obligations.PanicAndTheEgressLatch : Prop :=
  ∀ s : State,
    (∀ asserted, s.power ≠ .running → exec (.panicInputChange asserted) s = .next { s with panicInput := asserted }) ∧
    (s.power = .running →
      exec (.panicInputChange s.panicInput) s = .next s ∧
      exec (.panicInputChange !s.panicInput) s = .next { s with
        panicInput := !s.panicInput, panicTimer := if (!s.panicInput) = s.panicFiltered then none else some 50 } ∧
      (s.panicTimer = none → exec .panicFilterExpiry s = .next s) ∧
      (∀ n, s.panicTimer = some n →
        (s.panicInput = false ∨ s.latch = true → exec .panicFilterExpiry s = .next { s with
          panicTimer := none, panicFiltered := s.panicInput, notices := { s.notices with egress := true } }) ∧
        (s.panicInput = true → s.latch = false → ∃ t : State, exec .panicFilterExpiry s = .next t ∧
          t = { s with
            panicTimer := none, panicFiltered := true, latch := true, latchCopy := true, circuits := t.circuits,
            bindings := t.bindings, scenes := t.scenes, notices := { s.notices with egress := true } } ∧
          (s.TablesInOrder → ∀ c x, Table.at? s.circuits c = some x → x.config.egress = true →
            (∀ k ∈ x.claims, k.tier ≤ 3) →
            ∃ y, Table.at? t.circuits c = some y ∧ y.config = x.config ∧ y.resolved.winning = some 3 ∧
              y.resolved.target = 1000 ∧ y.claims.getLast? = some ⟨.egress, 3, 1000, 0, 0, none, none, false⟩) ∧
          ∀ c x, Table.at? s.circuits c = some x → x.config.egress = false → s.TablesInOrder →
            Table.at? t.circuits c = some x))) ∧
    ∀ tag body, s.TakesRequests → body.length ≤ 250 →
      (body ≠ [] → exec (.clearEgress tag body) s = .next (s.answered body.length tag .badRequest false [])) ∧
      (s.panicFiltered = true → exec (.clearEgress tag []) s = .next (s.answered 0 tag .active false [])) ∧
      (s.panicFiltered = false → s.latch = false → exec (.clearEgress tag []) s = .next (s.answered 0 tag .ok false [])) ∧
      (s.panicFiltered = false → s.latch = true → ∃ t : State, exec (.clearEgress tag []) s = .next (t.answered 0 tag .ok false []) ∧
        t = { s with
          latch := false, latchCopy := false, circuits := t.circuits, notices := { s.notices with egress := true },
          freeUses := s.freeUses + 1 } ∧
        (s.ListsSound → s.TablesInOrder → (∀ e ∈ t.circuits, ∀ k ∈ e.2.claims, k.origin ≠ .egress) ∧
          ∀ c x, Table.at? s.circuits c = some x →
            let cleared (r : Circuit) : Prop :=
              let begins := ∃ dest, r.transition.pendingTransfer = some dest ∧ r.transition.phase.mayTransfer = true ∧
                s.feedOnline x.config dest = true
              (begins → Table.at? t.circuits c = some { r with transition := { r.transition with
                phase := .downslope, origin := r.transition.level, fadeEnd := 0, stepCount := 0,
                stepTotal := max 1 (5 * x.config.downslope), pendingTransfer := none,
                output := outputLevel x.config r.transition } }) ∧
              (¬ begins → Table.at? t.circuits c = some r)
            ((∀ k ∈ x.claims, k.origin ≠ .egress) → cleared x) ∧
            ∀ older k newer, x.claims = older ++ k :: newer → k.origin = .egress → k.release = 0 →
              (∀ j ∈ older ++ newer, j.tier ≤ 2) →
              cleared ({ x with claims := older ++ newer }.resolve (s.masterOf x.config) 0)))

/-- ConfigureRack: BUSY_SAVING, else BAD_REQUEST for a setting that is no flag, else OUT_OF_RANGE outside 1..8; to yes, OK
with a configured rack unchanged and another WAITING with no miss, status, fault or last frame and RACKS raised; to
no, NO_SUCH for an ABSENT rack, else OK with an ABSENT one, RACKS raised, FAULTS raised if its fault set was not
empty, and a slot of it void. ReadRack of a configured rack: OK with its record, the circuit and feed of each channel
and the last frame, and nothing changed; of an ABSENT one: the setting no, its state and the channels. SetTimings:
BUSY_SAVING, else BAD_REQUEST, else OUT_OF_RANGE, else OK with settings and preferred ends replaced, and neither mode
nor active end moved. That the preferred end in effect stays too (log entry 16), the setting as a flag (log entry 11),
the void slot (log entry 25), the code of a rack's state and the transfer flags of an absent last frame, free values
(log entry 8), and the rest of ReadRack's layout (log entry 10) are the model's choices. (R148, R149, R157, R166, log
entry 8, log entry 10, log entry 11, log entry 25, log entry 16) -/
def Obligations.RackRequestsAndSettings : Prop :=
  ∀ (s : State) (tag : Byte), s.TakesRequests →
    (∀ id setting : Byte,
      let c : Instr := .configureRack tag [id, setting]
      let refused (r : Result) : Prop := exec c s = .next (s.answered 2 tag r false [])
      (s.saving.isSome = true → refused .busySaving) ∧
      (s.saving = none → 1 < setting.toNat → refused .badRequest) ∧
      (s.saving = none → setting.toNat ≤ 1 → id = 0 ∨ 8 < id.toNat → refused .outOfRange) ∧
      ∀ r, s.saving = none → id ≠ 0 → id.toNat ≤ 8 → Table.at? s.racks id.toNat = some r →
        let racks (new : Rack) : Table Rack := Table.adjust s.racks id.toNat fun _ => new
        (setting = 1 → r.state ≠ .absent → refused .ok) ∧
        (setting = 1 → r.state = .absent → exec c s = .next ({ s with
          racks := racks ⟨.waiting, 0, none, 0, none⟩, notices := { s.notices with racks := true } }.answered 2 tag .ok false [])) ∧
        (setting = 0 → r.state = .absent → refused .noSuch) ∧
        (setting = 0 → r.state ≠ .absent → exec c s = .next ({ s with
          racks := racks ⟨.absent, 0, none, 0, none⟩,
          notices := { s.notices with racks := true, faults := s.notices.faults || decide (r.faults ≠ 0) },
          rackSlot := s.rackSlot.map (fun (x : RackSlot) => { x with
            voided := x.voided || decide (x.rack = id.toNat) }) }.answered 2 tag .ok false []))) ∧
    (∀ id : Byte, (id = 0 ∨ 8 < id.toNat → exec (.readRack tag [id]) s = .next (s.answered 1 tag .outOfRange false [])) ∧
      (∀ r, id ≠ 0 → id.toNat ≤ 8 → Table.at? s.racks id.toNat = some r → r.state = .absent →
        exec (.readRack tag [id]) s = .next (s.answered 1 tag .ok false ([0, r.state.code] ++ s.assignmentBytes id.toNat))) ∧
      ∀ r, id ≠ 0 → id.toNat ≤ 8 → Table.at? s.racks id.toNat = some r → r.state ≠ .absent →
        (∀ f, r.last = some f → f.levels.length = 32) →
        exec (.readRack tag [id]) s = .next (s.answered 1 tag .ok false
          ([1, r.state.code, byteOf r.missCount, orAbsent (r.status.map RackStatus.code)] ++ bytes32 r.faults ++
            s.assignmentBytes id.toNat ++ lastFrameBytes r.last))) ∧
    ∀ body : List Byte, body.length ≤ 250 →
      let refused (r : Result) : Prop := exec (.setTimings tag body) s = .next (s.answered body.length tag r false [])
      (s.saving.isSome = true → refused .busySaving) ∧
      (s.saving = none → (decodeSettings body = .malformed → refused .badRequest) ∧
        (decodeSettings body = .outOfRange → refused .outOfRange) ∧
        ∀ settings p q, decodeSettings body = .ok (settings, p, q) →
          (300 ≤ settings.hold ∧ settings.hold ≤ 3000 ∧ 150 ≤ settings.doubleWindow ∧ settings.doubleWindow ≤ 1000 ∧
            10 ≤ settings.stuck ∧ settings.stuck ≤ 600 ∧ settings.startFade ≤ 6000) ∧
          exec (.setTimings tag body) s = .next ({ s with
            settings := settings, lineA := { s.lineA with preferred := p },
            lineB := { s.lineB with preferred := q } }.answered body.length tag .ok false []))

/-- ROUND_TIMER_EXPIRY with its timer running: with no slot in progress the timer restarts at 40 ms and the lowest
configured rack's frame is built; in a round the timer is stopped and nothing else changes. LEVEL_FRAME_SENT of a
configured rack: its last frame is the frame sent and the 10 ms window opens. RACK_REPLY, in the window, sound and of
this rack: status and fault set recorded, miss count 0, ONLINE, RACKS raised on a change of status or state and FAULTS
on one of the set; at an entry into ONLINE each pending transfer toward a feed of this rack begins in STEADY, FADING
and UPSLOPE where the latch copy is clear, and no other circuit changes; a reply that is not sound, or of another
rack, changes nothing. REPLY_WINDOW_EXPIRY: an ONLINE rack's miss count rises, and at 3 it is LOST with RACKS raised;
another is unchanged. After a reply or a miss the next configured rack above is served, or the round ends, and the
next begins at once where the round timer has expired. The model's choices: an event with no timer, slot or window
changes nothing (log entry 1), a reply of an unlisted status is not sound (23), and in a void slot replies change
nothing and its window runs out with no miss (25). (R40, R148, R150, R153, R154, R155, R158, log entry 1, log entry
23, log entry 25) -/
def Obligations.RackLinkSlots : Prop :=
  ∀ s : State, s.power = .running →
    let serve (t : State) (rack : Option Nat) : Option RackSlot := rack.map fun r => ⟨r, t.buildFrame r, none, false⟩
    let above (t : State) (rack : Nat) : Option Nat :=
      ((t.racks.filter fun e => e.2.state != .absent).map Prod.fst).find? fun r => rack < r
    let goesOn (t : State) (rack : Nat) : State :=
      if (above t rack).isNone && t.roundTimer.isNone then
        { t with rackSlot := serve t (above t 0), roundTimer := some 40 }
      else { t with rackSlot := serve t (above t rack) }
    (s.roundTimer = none → exec .roundTimerExpiry s = .next s) ∧
    (s.roundTimer.isSome = true → s.rackSlot = none →
      exec .roundTimerExpiry s = .next { s with rackSlot := serve s (above s 0), roundTimer := some 40 }) ∧
    (s.roundTimer.isSome = true → s.rackSlot.isSome = true → exec .roundTimerExpiry s = .next { s with roundTimer := none }) ∧
    (s.rackSlot = none → exec .levelFrameSent s = .next s ∧ exec .replyWindowExpiry s = .next s ∧
      ∀ chars, exec (.rackReply chars) s = .next s) ∧
    (∀ x r, s.rackSlot = some x → x.window = none → Table.at? s.racks x.rack = some r → r.state ≠ .absent →
      ∃ t : State, exec .levelFrameSent s = .next t ∧
        t = { s with racks := t.racks, rackSlot := some { x with window := some 10 } } ∧
        (Table.InOrder s.racks →
          ∀ i, Table.at? t.racks i = if i = x.rack then some { r with last := some x.frame } else Table.at? s.racks i)) ∧
    ∀ x n, s.rackSlot = some x → x.window = some n →
      (x.voided = true → (∀ chars, exec (.rackReply chars) s = .next s) ∧
        exec .replyWindowExpiry s = .next (goesOn s x.rack)) ∧
      ∀ r, x.voided = false → Table.at? s.racks x.rack = some r → r.state ≠ .absent →
        (∀ chars, (∀ f, decodeReply chars = some f → f.rack ≠ x.rack) → exec (.rackReply chars) s = .next s) ∧
        (∀ chars f, decodeReply chars = some f → f.rack = x.rack → ∃ t : State,
          exec (.rackReply chars) s = .next (goesOn t x.rack) ∧
          t = { s with racks := t.racks, circuits := t.circuits, notices := t.notices } ∧
          (∀ i, Table.at? t.racks i = if i = x.rack then
            some { r with status := some f.status, faults := f.faults, missCount := 0, state := .online }
            else Table.at? s.racks i) ∧
          t.notices = { s.notices with
            racks := s.notices.racks || decide (r.status ≠ some f.status ∨ r.state ≠ .online),
            faults := s.notices.faults || decide (r.faults ≠ f.faults) } ∧
          (r.state = .online → t.circuits = s.circuits) ∧
          (r.state ≠ .online → ∀ c y, Table.at? s.circuits c = some y →
            let begins := s.latchCopy = false ∧ y.transition.phase.mayTransfer = true ∧ ∃ dest ch,
              y.transition.pendingTransfer = some dest ∧ y.config.channelOf dest = some ch ∧ ch.rack = x.rack
            (begins → Table.at? t.circuits c = some { y with transition := { y.transition with
              phase := .downslope, origin := y.transition.level, fadeEnd := 0, stepCount := 0,
              stepTotal := max 1 (5 * y.config.downslope), pendingTransfer := none,
              output := outputLevel y.config y.transition } }) ∧
            (¬ begins → Table.at? t.circuits c = some y))) ∧
        (∃ t : State, exec .replyWindowExpiry s = .next (goesOn t x.rack) ∧
          t = { s with racks := t.racks, notices := t.notices } ∧
          (∀ i, i ≠ x.rack → Table.at? t.racks i = Table.at? s.racks i) ∧
          (r.state ≠ .online → Table.at? t.racks x.rack = some r ∧ t.notices = s.notices) ∧
          (r.state = .online → r.missCount < 2 →
            Table.at? t.racks x.rack = some { r with missCount := r.missCount + 1 } ∧ t.notices = s.notices) ∧
          (r.state = .online → 2 ≤ r.missCount →
            Table.at? t.racks x.rack = some { r with state := .lost, missCount := 3 } ∧
            t.notices = { s.notices with racks := true }))

/-- With the tables such that no channel feeds two circuits, a rack's Level frame has 32 levels; channel c of it carries
the output of the circuit whose current feed it is, 0 while that circuit is in BLOCK, 0 for the feed a circuit is not
on, and 0 where it feeds none; its transfer flag is set exactly where it is the stage feed of a TRANSFER circuit whose
relay flag is STAGE. (R30, R33, R151, R152) -/
def Obligations.LevelFrameCarriesTheOutputs : Prop :=
  ∀ (s : State) (rack ch : Nat), 1 ≤ ch → ch ≤ 32 → Table.InOrder s.circuits →
    (∀ i x j y, Table.at? s.circuits i = some x → Table.at? s.circuits j = some y →
      ∀ q, (x.config.house = q ∨ x.config.stage = some q) → (y.config.house = q ∨ y.config.stage = some q) → i = j) →
    (∀ i x, Table.at? s.circuits i = some x → x.config.stage ≠ some x.config.house) →
    let f := s.buildFrame rack
    let here : RackChannel := ⟨rack, ch⟩
    f.levels.length = 32 ∧
    (∀ i x, Table.at? s.circuits i = some x → x.config.channelOf x.transition.feed = some here →
      f.levels[ch - 1]? = some (if x.transition.phase = .block then 0 else x.transition.output)) ∧
    (∀ i x, Table.at? s.circuits i = some x → x.config.channelOf x.transition.feed.other = some here →
      f.levels[ch - 1]? = some 0) ∧
    ((∀ i x, Table.at? s.circuits i = some x → x.config.house ≠ here ∧ x.config.stage ≠ some here) →
      f.levels[ch - 1]? = some 0) ∧
    (f.flags.getLsbD (ch - 1) = true ↔ ∃ i x, Table.at? s.circuits i = some x ∧ x.config.stage = some here ∧
      x.config.kind = .transfer ∧ x.transition.relay = some .stage)

/-- In a running part: HOLD_TIMER_EXPIRY of a DOWN key with the timer running makes it HELD and then reports HOLD;
DOUBLE_TIMER_EXPIRY of a WAIT_SECOND one returns it to UP with its up stamp absent and then reports PRESS; where no
binding in use has the key as its source nothing else changes. STUCK_TIMER_EXPIRY makes a DOWN or HELD key STUCK with
its timers stopped, its mark and down stamp clear, its momentary holdings and repeats gone, and STUCK raised, with no
gesture. REPEAT_TIMER_EXPIRY of a repeat record moves the master of its configured zone by the step, held at 1000 and
0, and runs its timer again for 100 ms. With the timer stopped, another state or no record nothing changes, which is
the model's choice (log entry 1). (R79, R102, R104, R105, log entry 1) -/
def Obligations.KeyTimersAndRepeats : Prop :=
  ∀ s : State, s.power = .running →
    (∀ key r, s.key? key = some r →
      let unbound := ∀ e ∈ s.bindings, e.2.record.source ≠ key
      let held := s.onKey key fun y => { y with state := .held, holdTimer := none }
      let up := s.onKey key fun y => { y with state := .up, lastUpStamp := none, doubleTimer := none }
      (r.state = .down → r.holdTimer.isSome = true →
        exec (.holdTimerExpiry key) s = .next (held.report key .hold) ∧ (unbound → held.report key .hold = held)) ∧
      (r.state ≠ .down ∨ r.holdTimer = none → exec (.holdTimerExpiry key) s = .next s) ∧
      (r.state = .waitSecond → r.doubleTimer.isSome = true →
        exec (.doubleTimerExpiry key) s = .next (up.report key .press) ∧ (unbound → up.report key .press = up)) ∧
      (r.state ≠ .waitSecond ∨ r.doubleTimer = none → exec (.doubleTimerExpiry key) s = .next s) ∧
      (r.state = .down ∨ r.state = .held → r.stuckTimer.isSome = true → ∃ t : State, exec (.stuckTimerExpiry key) s = .next t ∧
        t.key? key = some { r with
          state := .stuck, plainRelease := false, downStamp := none, holdTimer := none, stuckTimer := none, holdings := [] } ∧
        t.repeats = s.repeats.filter (fun p => p.key != key) ∧ t.notices = { s.notices with stuck := true } ∧
        t = { s with
          circuits := t.circuits, bindings := t.bindings, scenes := t.scenes, repeats := t.repeats, notices := t.notices,
          lineA := t.lineA, lineB := t.lineB }) ∧
      ((r.state ≠ .down ∧ r.state ≠ .held) ∨ r.stuckTimer = none → exec (.stuckTimerExpiry key) s = .next s)) ∧
    (∀ key, s.key? key = none → exec (.holdTimerExpiry key) s = .next s ∧ exec (.doubleTimerExpiry key) s = .next s ∧
      exec (.stuckTimerExpiry key) s = .next s) ∧
    (∀ b, (∀ p ∈ s.repeats, p.binding ≠ b) → exec (.repeatTimerExpiry b) s = .next s) ∧
    ∀ b before p after zone, s.repeats = before ++ p :: after → p.binding = b → (∀ q ∈ before, q.binding ≠ b) →
      Table.at? s.zones p.zone = some zone → ∃ t : State, exec (.repeatTimerExpiry b) s = .next t ∧
        t = { s with zones := t.zones, circuits := t.circuits, bindings := t.bindings, repeats := t.repeats } ∧
        (∀ z, Table.at? t.zones z = if z = p.zone then
          some { zone with master := if p.upward then min 1000 (zone.master + p.step) else zone.master - p.step }
          else Table.at? s.zones z) ∧
        t.repeats = s.repeats.map fun q => if q.binding = b then { q with timer := 100 } else q

/-- An accepted event of a KEY record. DOWN: in UP a first press (DOWN, that stamp, mark clear, hold timer at the
threshold, stuck timer at the limit), reporting DOWN; in WAIT_SECOND within the double window of the up stamp a second
press (marked for a plain release, the hold timer left), reporting DOWN and DOUBLE; beyond it the deferred PRESS and
then a first press; in DOWN or HELD, an UP having been lost, its holdings and repeats end, it is UP, and UP (and
HOLD_END if HELD) and then a first press follow; in STUCK nothing. UP: hold and stuck timers stop and holdings and
repeats end first; in HELD it is UP and reports UP and HOLD_END; in DOWN it is UP and reports UP alone if so marked,
else after a press of the threshold or more UP, HOLD and HOLD_END, else UP and WAIT_SECOND with the double timer where
the key had a DOUBLE binding as the UP arrived (log entry 19), else UP and PRESS; in STUCK it is UP with no gesture;
in UP and WAIT_SECOND its state stays. Where no binding is on the key, it holds nothing and repeats nothing, no other
record, no circuit, binding or notice changes. That holdings and repeats end before the gestures is the model's choice
(log entry 30). (R48, R71, R80, R98, R99, R101, R103, R105, log entry 19, log entry 30) -/
def Obligations.KeyPressesAreClassified : Prop :=
  ∀ (s : State) (key : StationInput) (r : KeyRecord) (seq : Nat) (stamp : Stamp), s.key? key = some r →
    r.inputClass = .key →
    let after (e : Edge) : State := s.stationEvent key.line key.address ⟨seq, key.input, e, stamp⟩
    let rest (u : State) : State := u.onKey key fun y => { y with
      state := .up, plainRelease := false, downStamp := none, lastUpStamp := none, holdTimer := none, doubleTimer := none,
      stuckTimer := none }
    let first (u : State) : State := (u.onKey key fun y => { y with
      state := .down, plainRelease := false, downStamp := some stamp, lastUpStamp := none, doubleTimer := none,
      holdTimer := some s.settings.hold, stuckTimer := some (s.settings.stuck * 1000) }).report key .down
    let second := s.onKey key fun y => { y with
      state := .down, plainRelease := true, downStamp := some stamp, lastUpStamp := none, doubleTimer := none,
      stuckTimer := some (s.settings.stuck * 1000) }
    let inWindow := ∃ up, r.lastUpStamp = some up ∧ (stamp - up).toNat ≤ s.settings.doubleWindow
    let deferred := (s.onKey key fun y => { y with state := .up, lastUpStamp := none, doubleTimer := none }).report key .press
    let gone := (s.onKey key fun y => { y with holdTimer := none, stuckTimer := none }).letGo key
    let long := ∃ down, r.downStamp = some down ∧ s.settings.hold ≤ (stamp - down).toNat
    (r.state = .up → after .down = first s) ∧
    (r.state = .waitSecond → inWindow → after .down = (second.report key .down).report key .double) ∧
    (r.state = .waitSecond → ¬ inWindow → after .down = first deferred) ∧
    (r.state = .down → after .down = first ((rest (s.letGo key)).report key .up)) ∧
    (r.state = .held → after .down = first (((rest (s.letGo key)).report key .up).report key .holdEnd)) ∧
    (r.state = .stuck → after .down = s) ∧
    (r.state = .held → after .up = ((rest gone).report key .up).report key .holdEnd) ∧
    (r.state = .down → r.plainRelease = true → after .up = (rest gone).report key .up) ∧
    (r.state = .down → r.plainRelease = false → long →
      after .up = (((rest gone).report key .up).report key .hold).report key .holdEnd) ∧
    (r.state = .down → r.plainRelease = false → ¬ long → s.hasDouble key = true →
      after .up = (gone.onKey key fun y => { y with
        state := .waitSecond, downStamp := none, lastUpStamp := some stamp,
        doubleTimer := some s.settings.doubleWindow }).report key .up) ∧
    (r.state = .down → r.plainRelease = false → ¬ long → s.hasDouble key = false →
      after .up = ((rest gone).report key .up).report key .press) ∧
    (r.state = .stuck → after .up = rest gone) ∧ (r.state = .up ∨ r.state = .waitSecond → after .up = gone) ∧
    (r.holdings = [] → (∀ e ∈ s.bindings, e.2.record.source ≠ key) → (∀ p ∈ s.repeats, p.key ≠ key) →
      ∀ e, (after e).circuits = s.circuits ∧ (after e).bindings = s.bindings ∧ (after e).notices = s.notices ∧
        (after e).repeats = s.repeats ∧ ∀ other, other ≠ key → (after e).key? other = s.key? other)

/-- Of an event of an Answer whose sequence number less accepted-through plus 1, modulo 16, is d: with d = 0 accepted-
through becomes its number, the event is carried out, and the next one is dealt with; with d from 10 to 15 it is
dropped and the next is dealt with; with d from 1 to 9 it and all later ones are dropped and snapshot needed is set.
So an Answer whose one to six events follow on accepted-through, sent again after it has been taken, changes nothing.
(R123) -/
def Obligations.EventsAreAcceptedOnceInOrder : Prop :=
  ∀ (s : State) (l : Line) (a : Nat) (st : Station), s.station? l a = some st → st.accepted < 16 →
    s.acceptEvents l a [] = s ∧
    (∀ (e : StationEvent) (rest : List StationEvent), e.sequence < 16 →
      let d := (e.sequence + 16 - (st.accepted + 1) % 16) % 16
      (d = 0 → s.acceptEvents l a (e :: rest) =
        ((s.onStation l a fun x => { x with accepted := e.sequence }).stationEvent l a e).acceptEvents l a rest) ∧
      (10 ≤ d → s.acceptEvents l a (e :: rest) = s.acceptEvents l a rest) ∧
      (1 ≤ d → d ≤ 9 → s.acceptEvents l a (e :: rest) = s.onStation l a fun x => { x with snapshotNeeded := true })) ∧
    ∀ events : List StationEvent, events.length ≤ 6 →
      (∀ i e, events[i]? = some e → e.sequence = (st.accepted + 1 + i) % 16) →
      (s.acceptEvents l a events).acceptEvents l a events = s.acceptEvents l a events ∧
      (events ≠ [] → ((s.acceptEvents l a events).station? l a).map (·.accepted) =
        some ((st.accepted + events.length) % 16))

/-- A fire of binding b, from a key or the host. LEVEL: on each circuit its target reaches, a circuit or the members of a
zone, the contribution of b with its tier, level and fade, held by the key where it is momentary and a key fired it,
is placed, and other circuits stay; with a refusal b has its partial mark, with none and a placement both its marks
are clear, with no configured circuit nothing changes; the owners displaced are marked, a FOLLOW binding among them
losing its captured mark, and a scene that lost its last contribution its live tier and recaller; other scenes and
other keys stay; each pair of b and a circuit placed on enters the holdings of the key; nothing else changes. TOGGLE:
with no contribution of b in any list the same, held by no key; with one, each is removed with its release fade and
nothing else changes. RELEASE: on each circuit reached every contribution of the tier, dormant or not, is removed, the
others keeping their order, and the list is resolved; another binding whose contribution went loses its captured mark;
a scene that lost its last one has no live tier and no recaller; nothing else changes. That no step of the step timer
falls inside an action is the model's choice (log entry 35). (R66, R67, R69, R70, R73, R74, R9, R10, R11, log entry
35) -/
def Obligations.FiringsThatPlaceAndRelease : Prop :=
  ∀ (s : State) (b : Nat) (x : Binding) (source : FiringSource) (p q : Option Nat), s.offered = none → s.ListsSound →
    s.TablesInOrder → Table.at? s.bindings b = some x →
    let t := s.fire b x source p q
    (∀ area level tier fade momentary, x.record.action = .level area level tier fade momentary →
      s.Fired t b x (s.reached area) ⟨.binding b, tier, level, fade, fade, none,
        (match source with | .station k => if momentary then some k else none | .host => none), false⟩) ∧
    (∀ area level tier fade, x.record.action = .toggle area level tier fade →
      (s.holds (.binding b) = 0 →
        s.Fired t b x (s.reached area) ⟨.binding b, tier, level, fade, fade, none, none, false⟩) ∧
      (0 < s.holds (.binding b) → t = { s with circuits := t.circuits } ∧
        ∀ c, Table.at? t.circuits c = Table.at? (s.remove false (.binding b) c).circuits c)) ∧
    (∀ area tier, x.record.action = .release area tier →
      let hit (o : Origin) : Prop := ∃ c ∈ s.reached area, ∃ y, Table.at? s.circuits c = some y ∧
        ∃ k ∈ y.claims, k.tier = tier ∧ k.origin = o
      s.OnlyClaims t ∧ (∀ c, c ∉ s.reached area → Table.at? t.circuits c = Table.at? s.circuits c) ∧
      (∀ c ∈ s.reached area, ∀ y, Table.at? s.circuits c = some y →
        ∃ z, Table.at? t.circuits c = some z ∧ z.claims = y.claims.filter (fun k => k.tier != tier) ∧
          z.config = y.config ∧ ((∀ k ∈ y.claims, k.tier ≠ tier) → z = y) ∧
          ((∃ k ∈ y.claims, k.tier = tier) → z.resolved.winning = winningTier z.claims ∧
            z.resolved.raw = rawValue y.config.rest z.claims)) ∧
      (∀ i, Table.at? t.bindings i = (Table.at? s.bindings i).map fun w =>
        if i ≠ b ∧ hit (.binding i) then { w with captured := false } else w) ∧
      ∀ n, Table.at? t.scenes n = (Table.at? s.scenes n).map fun w =>
        if hit (.scene n) ∧ t.holds (.scene n) = 0 then { w with liveTier := none, recaller := none } else w)

/-- A fire of binding b, from a key or the host. SCENE: a recall of the defined scene at its tier, its recaller b.
SCENE_OFF: each entry's circuit is as the removal of the scene's contribution leaves it, bindings, definition and
marks stay, and a scene left with no contribution has no live tier and no recaller. MASTER: the master change of the
configured zone to the level with the zone's master fade. RAISE and LOWER: the same to the master moved by the step,
held at 1000 and 0; fired by a key they enter a repeat record of 100 ms, or restart that of b, and fired by the host
none. FOLLOW_MASTER and FOLLOW_LEVEL fired by the host apply the position: the master change with fade 0, which leaves
b's own captured mark; or the placement of the position with arrival fade 0. MODE: in PERFORMANCE the request is
ignored with notice MODE; the present mode changes nothing; another mode leaves the state that SetMode to it leaves,
and fired by a key raises MODE. NOTIFY: its pending mark and notice NOTIFY. Nothing else changes. That no step of the
step timer falls inside an action but a mode change is the model's choice (log entry 35). (R20, R22, R75, R76, R77,
R78, R79, R81, R82, R83, R110, log entry 35) -/
def Obligations.FiringsOfScenesMastersAndModes : Prop :=
  ∀ (s : State) (b : Nat) (x : Binding) (source : FiringSource) (p q : Option Nat), s.offered = none → s.ListsSound →
    s.TablesInOrder → Table.at? s.bindings b = some x →
    let t := s.fire b x source p q
    (∀ n tier y, x.record.action = .scene n tier → Table.at? s.scenes n = some y →
      (y.definition.entries.map Prod.fst).Pairwise (· < ·) → s.Recalled t n y tier (.binding b)) ∧
    (∀ n y, x.record.action = .sceneOff n → Table.at? s.scenes n = some y → s.OnlyClaims t ∧ t.bindings = s.bindings ∧
      (∀ c, Table.at? t.circuits c = if c ∈ y.definition.entries.map Prod.fst then
        Table.at? (s.remove true (.scene n) c).circuits c else Table.at? s.circuits c) ∧
      (∀ m, m ≠ n → Table.at? t.scenes m = Table.at? s.scenes m) ∧
      (∃ z, Table.at? t.scenes n = some z ∧ z.definition = y.definition ∧ z.partialMark = y.partialMark ∧
        z.displacedMark = y.displacedMark) ∧ (s.WithinEntries n y → s.SceneEnded t n)) ∧
    (∀ z level zone, x.record.action = .master z level → Table.at? s.zones z = some zone →
      s.MasterChanged t z zone level zone.masterFade none) ∧
    (∀ z n zone, x.record.action = .raise z n ∨ x.record.action = .lower z n → Table.at? s.zones z = some zone →
      s.MasterChanged { t with repeats := s.repeats } z zone
        (if x.record.action = .raise z n then min 1000 (zone.master + n) else zone.master - n) zone.masterFade none ∧
      t.repeats = match source with
        | .host => s.repeats
        | .station key =>
          if ∃ r ∈ s.repeats, r.binding = b then
            s.repeats.map fun r => if r.binding = b then { r with timer := 100 } else r
          else s.repeats ++ [⟨b, z, decide (x.record.action = .raise z n), n, key, 100⟩]) ∧
    (∀ z zone, source = .host → x.record.action = .followMaster z → Table.at? s.zones z = some zone →
      s.MasterChanged t z zone (q.getD 0) 0 (some b)) ∧
    (∀ area tier fade, source = .host → x.record.action = .followLevel area tier fade →
      s.Fired t b x (s.reached area) ⟨.binding b, tier, q.getD 0, 0, fade, none, none, false⟩) ∧
    (∀ m, x.record.action = .mode m →
      (s.mode = .performance → t = { s with notices := { s.notices with mode := true } }) ∧
      (s.mode ≠ .performance → m = s.mode → t = s) ∧
      (s.mode ≠ .performance → m ≠ s.mode → t.mode = m ∧
        t.notices = (match source with | .station _ => { s.notices with mode := true } | .host => s.notices) ∧
        (s.TakesRequests → ∀ tag, exec (.setMode tag [m.code]) s = .next
          ({ t with notices := s.notices }.answered 1 tag .ok false [])))) ∧
    (x.record.action = .notify → t = { s with
      bindings := Table.adjust s.bindings b fun y => { y with notifyPending := true }
      notices := { s.notices with notify := true } })

/-- The index list of an input and a gesture holds, rising strictly, the ids of exactly the bindings in use, ARMED or
SUSPENDED, that have them as source and gesture. A gesture reported goes through it: there is a chain of states from
the present one to the one after the gesture, one for each id in order, in which a binding that is ARMED with the
house mode of that moment among its modes is fired by the key, with the positions of a MOVE, and any other is passed
over. The index lists stay as they were, so none is added or left out on the way. With an empty list nothing changes.
A key has a DOUBLE binding when its list for DOUBLE holds a binding ARMED with the present mode. (R46, R47, R48) -/
def Obligations.GesturesOfferTheirBindings : Prop :=
  ∀ (s : State) (key : StationInput) (g : Gesture), Table.InOrder s.bindings →
    let ids := s.indexList key g
    ids.Pairwise (· < ·) ∧
    (∀ b, b ∈ ids ↔ ∃ x, Table.at? s.bindings b = some x ∧ x.record.source = key ∧ x.record.gesture = g) ∧
    (s.hasDouble key = true ↔ ∃ b x, Table.at? s.bindings b = some x ∧ x.record.source = key ∧
      x.record.gesture = .double ∧ x.record.suspended = false ∧ x.record.modes.has s.mode = true) ∧
    ∀ p q : Option Nat,
      (ids = [] → s.report key g p q = s) ∧
      (∀ other h, (s.report key g p q).indexList other h = s.indexList other h) ∧
      ∃ chain : List State, chain.length = ids.length + 1 ∧ chain.head? = some s ∧
        chain.getLast? = some (s.report key g p q) ∧
        ∀ i b u v, ids[i]? = some b → chain[i]? = some u → chain[i + 1]? = some v →
          ∃ x, Table.at? u.bindings b = some x ∧ x.record.source = key ∧ x.record.gesture = g ∧
            (x.record.suspended = false → x.record.modes.has u.mode = true → v = u.fire b x (.station key) p q) ∧
            (x.record.suspended = true ∨ x.record.modes.has u.mode = false → v = u)

/-- A FOLLOW_MASTER or FOLLOW_LEVEL binding b offered for a MOVE from position P, which may be absent, to Q. Its reference
is the zone's master; for a circuit the level of b's own contribution, or the raw value where it has none; for a zone
the level of b's contribution on the lowest member that has one, or the raw value of the lowest member. Captured, it
applies Q: the master change to Q with fade 0, or the placement of Q with arrival fade 0. Not captured, it captures
and then applies Q where Q is the reference, or P is present and the reference lies strictly between P and Q;
otherwise nothing changes. A zone with no member has no reference, and nothing changes. A MOVE event of a FADER input
reports MOVE with the old position and the new one, taken as 1000 above 1000, and then the record holds the new
position. That no step of the step timer falls between the handovers of one action is the model's choice (log entry
35). (R98, R108, R109, R110, R111, log entry 35) -/
def Obligations.FadersCaptureAndFollow : Prop :=
  ∀ (s : State) (b : Nat) (x : Binding) (key : StationInput) (p : Option Nat) (q : Nat), s.offered = none →
    s.ListsSound → s.TablesInOrder → Table.at? s.bindings b = some x →
    let t := s.fire b x (.station key) p (some q)
    let own (y : Circuit) (level : Nat) : Prop := ∃ k ∈ y.claims, k.origin = .binding b ∧ k.level = level
    let lacks (y : Circuit) : Prop := ∀ k ∈ y.claims, k.origin ≠ .binding b
    let meets (reference : Nat) : Prop := q = reference ∨
      ∃ old, p = some old ∧ (old < reference ∧ reference < q ∨ q < reference ∧ reference < old)
    let x' : Binding := { x with captured := true }
    let s' := s.withBindings (Table.adjust s.bindings b fun _ => x')
    (∀ z zone, x.record.action = .followMaster z → Table.at? s.zones z = some zone →
      (x.captured = true → s.MasterChanged t z zone q 0 (some b)) ∧
      (x.captured = false → meets zone.master → s'.MasterChanged t z zone q 0 (some b)) ∧
      (x.captured = false → ¬ meets zone.master → t = s)) ∧
    (∀ area tier fade, x.record.action = .followLevel area tier fade →
      let claim : Contribution := ⟨.binding b, tier, q, 0, fade, none, none, false⟩
      let circuits := (s.reached area).filterMap fun c => Table.at? s.circuits c
      let reference (r : Nat) : Prop :=
        (∃ before y rest, circuits = before ++ y :: rest ∧ own y r ∧ ∀ w ∈ before, lacks w) ∨
        (∃ y rest, circuits = y :: rest ∧ r = y.resolved.raw ∧ ∀ w ∈ circuits, lacks w)
      (x.captured = true → s.Fired t b x (s.reached area) claim) ∧
      (x.captured = false → ∀ r, reference r → meets r → s'.Fired t b x' (s.reached area) claim) ∧
      (x.captured = false → ∀ r, reference r → ¬ meets r → t = s) ∧
      (x.captured = false → circuits = [] → t = s)) ∧
    ∀ r seq position stamp, s.key? key = some r → r.inputClass = .fader →
      s.stationEvent key.line key.address ⟨seq, key.input, .move position, stamp⟩ =
        (s.report key .move r.position (some (min 1000 position))).onKey key fun y =>
          { y with position := some (min 1000 position) }

/-- A closing of a CONTACT makes it DOWN and reports DOWN unless its edge mode is FALL; an opening makes it UP, and unless
the mode is RISE its holdings and repeats end before and UP is reported after; under RISE it ends the repeats alone
(log entry 30). A Snapshot Answer compares its inputs one after another, in strictly rising number. KEY found down: in
UP a first press without a stamp, in WAIT_SECOND the deferred PRESS and then that press, else nothing; KEY found up:
in DOWN or HELD its holdings and repeats end, it is UP, and UP (and HOLD_END if HELD) is reported, in STUCK it is UP
with no gesture, else nothing. CONTACT: nothing where it agrees, else a closing or an opening. FADER: nothing where
the position is the record's, else MOVE with both, and then the record has it; a position above 1000 is taken as 1000
before the comparison, which is the model's choice (log entry 33). An input with no record is passed over. (R71, R80,
R98, R105, R107, R108, R112, R124, log entry 30, log entry 33) -/
def Obligations.ContactsAndSnapshots : Prop :=
  ∀ (s : State) (l : Line) (a input : Nat) (st : Station), s.station? l a = some st →
    let key : StationInput := ⟨l, a, input⟩
    let one (reading : InputReading) : State := s.compareSnapshot l a [(input, reading)]
    (∀ reading rest, s.compareSnapshot l a ((input, reading) :: rest) = (one reading).compareSnapshot l a rest) ∧
    (∀ chars f, decodeSnapshot chars = some f → (f.inputs.map Prod.fst).Pairwise (· < ·)) ∧
    (Table.at? st.keys input = none → ∀ reading, one reading = s) ∧
    ∀ r, Table.at? st.keys input = some r →
      let rest (u : State) : State := u.onKey key fun y => { y with
        state := .up, plainRelease := false, downStamp := none, lastUpStamp := none, holdTimer := none,
        doubleTimer := none, stuckTimer := none }
      let pressed (u : State) : State := (u.onKey key fun y => { y with
        state := .down, plainRelease := false, downStamp := none, lastUpStamp := none, doubleTimer := none,
        holdTimer := some s.settings.hold, stuckTimer := some (s.settings.stuck * 1000) }).report key .down
      (r.inputClass = .key →
        (r.state = .up → one (.down true) = pressed s) ∧
        (r.state = .waitSecond → one (.down true) =
          pressed ((s.onKey key fun y => { y with state := .up, lastUpStamp := none, doubleTimer := none }).report key .press)) ∧
        (r.state = .down ∨ r.state = .held ∨ r.state = .stuck → one (.down true) = s) ∧
        (r.state = .down → one (.down false) = (rest (s.letGo key)).report key .up) ∧
        (r.state = .held → one (.down false) = ((rest (s.letGo key)).report key .up).report key .holdEnd) ∧
        (r.state = .stuck → one (.down false) = rest (s.letGo key)) ∧
        (r.state = .up ∨ r.state = .waitSecond → one (.down false) = s)) ∧
      (r.inputClass = .contact → ∀ edges filter mode, st.setup = .contact edges filter → edges[input - 1]? = some mode →
        let closed := s.onKey key fun y => { y with state := .down }
        let closing := if mode = .fall then closed else closed.report key .down
        let opening := if mode = .rise then
            { s with repeats := s.repeats.filter fun p => p.key != key }.onKey key fun y => { y with state := .up }
          else ((s.letGo key).onKey key fun y => { y with state := .up }).report key .up
        (∀ seq stamp, s.stationEvent l a ⟨seq, input, .down, stamp⟩ = closing ∧
          s.stationEvent l a ⟨seq, input, .up, stamp⟩ = opening) ∧
        one (.down true) = (if r.state = .down then s else closing) ∧
        one (.down false) = if r.state = .down then opening else s) ∧
      (r.inputClass = .fader → ∀ q, let position := min 1000 q
        (r.position = some position → one (.position q) = s) ∧
        (r.position ≠ some position → one (.position q) =
          (s.report key .move r.position (some position)).onKey key fun y => { y with position := some position }))

/-- The desired lamp of a key is OFF with no ARMED binding on it that has a lamp link; else it follows the lowest: FOLLOW
is OFF with no contribution of the binding in any list, FLASH while a circuit that holds one is not STEADY, else ON;
SCENE is ON while the scene is live; MODE is ON in the binding's mode. At the start of a station call the desired
lamps of the station are derived. JOINING, or configure pending: a Configure frame with its setup and groups. Else,
ONLINE and snapshot needed: a Snapshot Call. Else, ONLINE: a Call with accepted-through and the group query, before it
a Lamp frame with every desired state, and the lamp bit in the Call, where one differs from its confirmed state,
UNKNOWN differing from all. EXPECTED, MISSING and MISMATCH: a bare Call. The query is of the lowest group with the
station PENDING. What an Answer confirms and a miss leaves stands in the statement on the end of a call. Zeros in the
bits of a Lamp frame that belong to no lamp (log entry 39) and in the bits of a Call without a meaning (log entry 40)
are the model's choices. The idle bytes of a Configure frame are free values (log entry 8). (R120, R121, R124, R133,
R134, R135, log entry 39, log entry 40, log entry 8) -/
def Obligations.LampsFollowAndAreSent : Prop :=
  ∀ s : State, s.TablesInOrder →
    (∀ key : StationInput,
      let linked (b : Nat) (x : Binding) : Prop := Table.at? s.bindings b = some x ∧ x.record.source = key ∧
        x.record.suspended = false ∧ x.record.lamp ≠ none
      ((∀ b x, ¬ linked b x) → s.desiredLamp key = .off) ∧
      ∀ b x, linked b x → (∀ i y, linked i y → b ≤ i) →
        (x.record.lamp = some .follow →
          let holding (e : Nat × Circuit) : Prop := e ∈ s.circuits ∧ ∃ k ∈ e.2.claims, k.origin = .binding b
          ((∀ e, ¬ holding e) → s.desiredLamp key = .off) ∧
          ((∃ e, holding e ∧ e.2.transition.phase ≠ .steady) → s.desiredLamp key = .flash) ∧
          ((∃ e, holding e) → (∀ e, holding e → e.2.transition.phase = .steady) → s.desiredLamp key = .on)) ∧
        (∀ n tier, x.record.lamp = some .scene → x.record.action = .scene n tier ∨ x.record.action = .sceneOff n →
          s.desiredLamp key = if 0 < s.holds (.scene n) then .on else .off) ∧
        (∀ m, x.record.lamp = some .mode → x.record.action = .mode m →
          s.desiredLamp key = if s.mode = m then .on else .off)) ∧
    ∀ (l : Line) (a : Nat) (st : Station), let u := s.unit l
      s.power = .running → u.slot = none → u.listen = none → u.state = .intact ∨ u.state = .split → u.survey = none →
      u.continuityAsked = false → u.waiting = [] → s.station? l a = some st →
      (u.nextPoll = some a ∧ u.nextProbe = none) ∨ (u.nextPoll = none ∧ u.nextProbe = some a) →
      let lamps := st.lamps.map fun p => { p with desired := s.desiredLamp ⟨l, a, p.key⟩ }
      let sent := lamps.map fun p => (p.key, p.desired)
      let owed (g : Nat) : Prop := ∃ x es, Table.at? s.groups g = some x ∧ x.delivery = some es ∧
        ∃ e ∈ es, e.member = ⟨l, a⟩ ∧ e.code = .pending
      ∃ (t : State) (y : Slot) (c : StationCall), exec (.slotStart l) s = .next t ∧ (t.unit l).slot = some y ∧
        y.carries = .call c ∧ c.address = a ∧ t.station? l a = some { st with lamps := lamps } ∧
        let sends (frame : CallFrame) (content : List (List Byte)) : Prop :=
          c.frame = frame ∧ y.content = content ∧ c.lampsSent = none
        let call (bit : Byte) : List Byte := withCheck [byteOf a, 1, byteOf st.accepted ||| bit, byteOf (c.query.getD 0)]
        (st.state = .joining ∨ st.state = .online ∧ st.configurePending = true →
          sends .configure [configureFrame a st.setup (s.groupSet ⟨l, a⟩)] ∧ c.query = none) ∧
        (st.state = .online → st.configurePending = false → st.snapshotNeeded = true →
          sends .snapshotCall [withCheck [byteOf a, 4]] ∧ c.query = none) ∧
        (st.state = .online → st.configurePending = false → st.snapshotNeeded = false →
          (∀ g, c.query = some g ↔ owed g ∧ ∀ h, owed h → g ≤ h) ∧
          ((∀ p ∈ lamps, p.confirmed = some p.desired) → sends .call [call 0]) ∧
          ((∃ p ∈ lamps, p.confirmed ≠ some p.desired) →
            c.frame = .call ∧ y.content = [lampFrame a sent, call 0x80] ∧ c.lampsSent = some sent)) ∧
        (st.state = .expected ∨ st.state = .missing ∨ st.state = .mismatch → sends .call [call 0] ∧ c.query = none)

/-- The end of a slot that carried a query of group g for a member: each PENDING entry of the member becomes OK on an
acknowledgement of the present delivery number, REFUSED for not a member, GARBLED for a garbled answer; on another
number, no acknowledgement or silence its query count rises, and at 3 it is NO_ANSWER. On another number the group's
frame waits again on the member's line. GROUP is raised when the last PENDING code settles. A group leaves the waiting
set of a line on which no member is PENDING, here and where codes become OFFLINE. Nothing else changes. Where a
station is lost (MISSING, MISMATCH) its PENDING codes, where a line is lost those of its members, become OFFLINE in
every group, and GROUP is raised where that settled the last of a group. Which end reaches this is in the statement on
the end of a call. (R122, R128, R133) -/
def Obligations.GroupQueriesSettle : Prop :=
  ∀ s : State,
    (∀ (g : Nat) (m : Member) (how : QueryEnd) (x : Group) (es : List DeliveryEntry), Table.at? s.groups g = some x →
      x.delivery = some es →
      let asked (e : DeliveryEntry) : DeliveryEntry := { e with
        queries := e.queries + 1, code := if 3 ≤ e.queries + 1 then .noAnswer else .pending }
      let settled (e : DeliveryEntry) : DeliveryEntry :=
        if e.member = m ∧ e.code = .pending then
          match how with
          | .acknowledged (.number n) => if n = x.lastNumber then { e with code := .ok } else asked e
          | .acknowledged .notMember => { e with code := .refused }
          | .acknowledged .none | .silent => asked e
          | .garbled => { e with code := .garbled }
        else e
      let t := s.settleQuery g m how
      let again := (∃ n, how = .acknowledged (.number n) ∧ n ≠ x.lastNumber) ∧ ∃ e ∈ es, e.member = m ∧ e.code = .pending
      t = { s with groups := t.groups, notices := t.notices, lineA := t.lineA, lineB := t.lineB } ∧
      (∀ i, Table.at? t.groups i =
        if i = g then some { x with delivery := some (es.map settled) } else Table.at? s.groups i) ∧
      ((∃ e ∈ es, e.code = .pending) → (∀ e ∈ es, (settled e).code ≠ .pending) →
        t.notices = { s.notices with group := true }) ∧
      ((∀ e ∈ es, e.code ≠ .pending) ∨ (∃ e ∈ es, (settled e).code = .pending) → t.notices = s.notices) ∧
      ∀ l, t.unit l = { s.unit l with waiting := (t.unit l).waiting } ∧
        (∀ i, i ≠ g → (i ∈ (t.unit l).waiting ↔ i ∈ (s.unit l).waiting)) ∧
        (g ∈ (t.unit l).waiting ↔ (∃ e ∈ es, (settled e).code = .pending ∧ e.member.line = l) ∧
          (g ∈ (s.unit l).waiting ∨ again ∧ m.line = l))) ∧
    (∀ test : Member → Bool, Table.InOrder s.groups →
      let t := s.offlineWhere test
      let lost (e : DeliveryEntry) : Bool := e.code == .pending && test e.member
      t = { s with groups := t.groups, notices := t.notices, lineA := t.lineA, lineB := t.lineB } ∧
      (∀ l, t.unit l = { s.unit l with waiting := (t.unit l).waiting } ∧
        ∀ g, g ∈ (t.unit l).waiting ↔ g ∈ (s.unit l).waiting ∧ ∀ x, Table.at? t.groups g = some x →
          ∃ es, x.delivery = some es ∧ ∃ e ∈ es, e.code = .pending ∧ e.member.line = l) ∧
      (∀ g, Table.at? t.groups g = (Table.at? s.groups g).map fun x => { x with
        delivery := x.delivery.map fun es => es.map fun e => if lost e then { e with code := .offline } else e }) ∧
      ((∃ g x es, Table.at? s.groups g = some x ∧ x.delivery = some es ∧ (∃ e ∈ es, lost e = true) ∧
          ∀ e ∈ es, e.code = .pending → lost e = true) → t.notices = { s.notices with group := true }) ∧
      ((∀ g x es, Table.at? s.groups g = some x → x.delivery = some es → (∀ e ∈ es, lost e = false) ∨
          ∃ e ∈ es, e.code = .pending ∧ lost e = false) → t.notices = s.notices)) ∧
    ∀ l a, (s.enterMissing l a).groups = (s.offlineStation l a).groups ∧
      (s.enterMismatch l a).groups = (s.offlineStation l a).groups ∧
      s.offlineStation l a = s.offlineWhere (fun m => m == ⟨l, a⟩) ∧
      (s.loseLine l).groups = (s.offlineWhere fun m => m.line == l).groups ∧
      (s.loseLine l).notices = (s.offlineWhere fun m => m.line == l).notices ∧
      ∀ l', ((s.loseLine l).unit l').waiting = ((s.offlineWhere fun m => m.line == l).unit l').waiting

/-- Letting go of a key (its UP, STUCK, its station lost or discarded): for each pair of binding and circuit in its
holdings the contribution of the binding is removed from the circuit where it still names the key, and the circuit is
resolved; every other contribution stays in its order; the set is emptied, the repeats of the key end, and no binding,
scene or other record changes. At the entry of a station with key records into MISSING, and at the loss of a line for
every station on it with key records, this is done for each of those keys; all their timers stop; a KEY in WAIT_SECOND
is UP with its up stamp absent, one in DOWN or HELD is marked for a plain release with its down stamp absent; the
captured marks of the bindings on the station are clear; no gesture is reported. Every other contribution stays in its
order, a circuit that lost none stays as it was, and so do other keys, stations, bindings and fields of the lines, the
scenes and the rest of the state. Entering MISSING besides sets the state of the station and raises STATIONS, and both
settle the PENDING codes as the statement on group queries shows. The order in which the keys of one loss are taken is
the model's choice (log entry 36); nothing said here rests on it. That the plain release is for class KEY alone is the
model's choice (log entry 20). (R71, R72, R80, R106, R111, log entry 20, R122, R128, log entry 36) -/
def Obligations.HoldingsEndWithTheirKey : Prop :=
  ∀ s : State, s.ListsSound → s.TablesInOrder →
    (∀ key r, s.key? key = some r →
      let t := s.letGo key
      let goes (c : Nat) (k : Contribution) : Prop :=
        k.heldBy = some key ∧ ∃ b, k.origin = .binding b ∧ (b, c) ∈ r.holdings
      s.OnlyLight t ∧ t.bindings = s.bindings ∧ t.scenes = s.scenes ∧
      t.repeats = s.repeats.filter (fun p => p.key != key) ∧ t.key? key = some { r with holdings := [] } ∧
      (∀ other, other ≠ key → t.key? other = s.key? other) ∧
      ∀ c, (Table.at? s.circuits c = none → Table.at? t.circuits c = none) ∧
        ∀ y, Table.at? s.circuits c = some y → ∃ z, Table.at? t.circuits c = some z ∧ z.config = y.config ∧
          z.claims.Sublist y.claims ∧ (∀ k, k ∈ z.claims ↔ k ∈ y.claims ∧ ¬ goes c k) ∧
          ((∀ k ∈ y.claims, ¬ goes c k) → z = y) ∧
          ((∃ k ∈ y.claims, goes c k) → z.resolved.winning = winningTier z.claims ∧
            z.resolved.raw = rawValue y.config.rest z.claims)) ∧
    (∀ l a st, s.station? l a = some st →
      let t := s.gestureMissing l a
      let m := s.enterMissing l a
      t = { s with
        circuits := t.circuits, bindings := t.bindings, repeats := t.repeats, lineA := t.lineA, lineB := t.lineB } ∧
      (∀ l', (t.unit l').waiting = (s.unit l').waiting) ∧ (st.keys = [] → t = s) ∧ s.TreatedAsMissing t l (fun i => i = a) ∧
      m = { s with
        circuits := t.circuits, bindings := t.bindings, repeats := t.repeats, lineA := m.lineA, lineB := m.lineB,
        groups := m.groups, notices := m.notices } ∧ m.notices.has .stations = true ∧
      (∀ l' i, m.station? l' i = (t.station? l' i).map fun y =>
        if l' = l ∧ i = a then { y with state := .missing } else y)) ∧
    ∀ l, let t := s.loseLine l
      t = { s with
        circuits := t.circuits, bindings := t.bindings, repeats := t.repeats, lineA := t.lineA, lineB := t.lineB,
        groups := t.groups, notices := t.notices } ∧ s.TreatedAsMissing t l fun _ => True
end

