-- ==== Sys2Proof/Laws/State.lean ====
section
/-! SUPPORT. What each update of State leaves of each field: one lemma per field per update. -/

namespace Sys2Proof.Machine

@[simp] theorem State.withCircuits_power (s : State) (x : Table Circuit) : (s.withCircuits x).power = s.power := rfl
@[simp] theorem State.withCircuits_panicInput (s : State) (x : Table Circuit) :
    (s.withCircuits x).panicInput = s.panicInput := rfl
@[simp] theorem State.withCircuits_installInput (s : State) (x : Table Circuit) :
    (s.withCircuits x).installInput = s.installInput := rfl
@[simp] theorem State.withCircuits_sdo (s : State) (x : Table Circuit) : (s.withCircuits x).sdo = s.sdo := rfl
@[simp] theorem State.withCircuits_hostSlot (s : State) (x : Table Circuit) :
    (s.withCircuits x).hostSlot = s.hostSlot := rfl
@[simp] theorem State.withCircuits_collision (s : State) (x : Table Circuit) :
    (s.withCircuits x).collision = s.collision := rfl
@[simp] theorem State.withCircuits_notices (s : State) (x : Table Circuit) :
    (s.withCircuits x).notices = s.notices := rfl
@[simp] theorem State.withCircuits_image (s : State) (x : Table Circuit) : (s.withCircuits x).image = s.image := rfl
@[simp] theorem State.withCircuits_saving (s : State) (x : Table Circuit) : (s.withCircuits x).saving = s.saving := rfl
@[simp] theorem State.withCircuits_resetCause (s : State) (x : Table Circuit) :
    (s.withCircuits x).resetCause = s.resetCause := rfl
@[simp] theorem State.withCircuits_settings (s : State) (x : Table Circuit) :
    (s.withCircuits x).settings = s.settings := rfl
@[simp] theorem State.withCircuits_mode (s : State) (x : Table Circuit) : (s.withCircuits x).mode = s.mode := rfl
@[simp] theorem State.withCircuits_latch (s : State) (x : Table Circuit) : (s.withCircuits x).latch = s.latch := rfl
@[simp] theorem State.withCircuits_panicFiltered (s : State) (x : Table Circuit) :
    (s.withCircuits x).panicFiltered = s.panicFiltered := rfl
@[simp] theorem State.withCircuits_panicTimer (s : State) (x : Table Circuit) :
    (s.withCircuits x).panicTimer = s.panicTimer := rfl
@[simp] theorem State.withCircuits_circuits (s : State) (x : Table Circuit) : (s.withCircuits x).circuits = x := rfl
@[simp] theorem State.withCircuits_zones (s : State) (x : Table Circuit) : (s.withCircuits x).zones = s.zones := rfl
@[simp] theorem State.withCircuits_requiredFeed (s : State) (x : Table Circuit) :
    (s.withCircuits x).requiredFeed = s.requiredFeed := rfl
@[simp] theorem State.withCircuits_latchCopy (s : State) (x : Table Circuit) :
    (s.withCircuits x).latchCopy = s.latchCopy := rfl
@[simp] theorem State.withCircuits_stepTimer (s : State) (x : Table Circuit) :
    (s.withCircuits x).stepTimer = s.stepTimer := rfl
@[simp] theorem State.withCircuits_bindings (s : State) (x : Table Circuit) :
    (s.withCircuits x).bindings = s.bindings := rfl
@[simp] theorem State.withCircuits_protectSize (s : State) (x : Table Circuit) :
    (s.withCircuits x).protectSize = s.protectSize := rfl
@[simp] theorem State.withCircuits_houseLock (s : State) (x : Table Circuit) :
    (s.withCircuits x).houseLock = s.houseLock := rfl
@[simp] theorem State.withCircuits_offered (s : State) (x : Table Circuit) :
    (s.withCircuits x).offered = s.offered := rfl
@[simp] theorem State.withCircuits_repeats (s : State) (x : Table Circuit) :
    (s.withCircuits x).repeats = s.repeats := rfl
@[simp] theorem State.withCircuits_scenes (s : State) (x : Table Circuit) : (s.withCircuits x).scenes = s.scenes := rfl
@[simp] theorem State.withCircuits_lineA (s : State) (x : Table Circuit) : (s.withCircuits x).lineA = s.lineA := rfl
@[simp] theorem State.withCircuits_lineB (s : State) (x : Table Circuit) : (s.withCircuits x).lineB = s.lineB := rfl
@[simp] theorem State.withCircuits_groups (s : State) (x : Table Circuit) : (s.withCircuits x).groups = s.groups := rfl
@[simp] theorem State.withCircuits_racks (s : State) (x : Table Circuit) : (s.withCircuits x).racks = s.racks := rfl
@[simp] theorem State.withCircuits_roundTimer (s : State) (x : Table Circuit) :
    (s.withCircuits x).roundTimer = s.roundTimer := rfl
@[simp] theorem State.withCircuits_rackSlot (s : State) (x : Table Circuit) :
    (s.withCircuits x).rackSlot = s.rackSlot := rfl
@[simp] theorem State.withCircuits_freeUses (s : State) (x : Table Circuit) :
    (s.withCircuits x).freeUses = s.freeUses := rfl
@[simp] theorem State.withCircuits_pending (s : State) (x : Table Circuit) :
    (s.withCircuits x).pending = s.pending := rfl

@[simp] theorem State.withZones_power (s : State) (x : Table Zone) : (s.withZones x).power = s.power := rfl
@[simp] theorem State.withZones_panicInput (s : State) (x : Table Zone) :
    (s.withZones x).panicInput = s.panicInput := rfl
@[simp] theorem State.withZones_installInput (s : State) (x : Table Zone) :
    (s.withZones x).installInput = s.installInput := rfl
@[simp] theorem State.withZones_sdo (s : State) (x : Table Zone) : (s.withZones x).sdo = s.sdo := rfl
@[simp] theorem State.withZones_hostSlot (s : State) (x : Table Zone) : (s.withZones x).hostSlot = s.hostSlot := rfl
@[simp] theorem State.withZones_collision (s : State) (x : Table Zone) : (s.withZones x).collision = s.collision := rfl
@[simp] theorem State.withZones_notices (s : State) (x : Table Zone) : (s.withZones x).notices = s.notices := rfl
@[simp] theorem State.withZones_image (s : State) (x : Table Zone) : (s.withZones x).image = s.image := rfl
@[simp] theorem State.withZones_saving (s : State) (x : Table Zone) : (s.withZones x).saving = s.saving := rfl
@[simp] theorem State.withZones_resetCause (s : State) (x : Table Zone) :
    (s.withZones x).resetCause = s.resetCause := rfl
@[simp] theorem State.withZones_settings (s : State) (x : Table Zone) : (s.withZones x).settings = s.settings := rfl
@[simp] theorem State.withZones_mode (s : State) (x : Table Zone) : (s.withZones x).mode = s.mode := rfl
@[simp] theorem State.withZones_latch (s : State) (x : Table Zone) : (s.withZones x).latch = s.latch := rfl
@[simp] theorem State.withZones_panicFiltered (s : State) (x : Table Zone) :
    (s.withZones x).panicFiltered = s.panicFiltered := rfl
@[simp] theorem State.withZones_panicTimer (s : State) (x : Table Zone) :
    (s.withZones x).panicTimer = s.panicTimer := rfl
@[simp] theorem State.withZones_circuits (s : State) (x : Table Zone) : (s.withZones x).circuits = s.circuits := rfl
@[simp] theorem State.withZones_zones (s : State) (x : Table Zone) : (s.withZones x).zones = x := rfl
@[simp] theorem State.withZones_requiredFeed (s : State) (x : Table Zone) :
    (s.withZones x).requiredFeed = s.requiredFeed := rfl
@[simp] theorem State.withZones_latchCopy (s : State) (x : Table Zone) : (s.withZones x).latchCopy = s.latchCopy := rfl
@[simp] theorem State.withZones_stepTimer (s : State) (x : Table Zone) : (s.withZones x).stepTimer = s.stepTimer := rfl
@[simp] theorem State.withZones_bindings (s : State) (x : Table Zone) : (s.withZones x).bindings = s.bindings := rfl
@[simp] theorem State.withZones_protectSize (s : State) (x : Table Zone) :
    (s.withZones x).protectSize = s.protectSize := rfl
@[simp] theorem State.withZones_houseLock (s : State) (x : Table Zone) : (s.withZones x).houseLock = s.houseLock := rfl
@[simp] theorem State.withZones_offered (s : State) (x : Table Zone) : (s.withZones x).offered = s.offered := rfl
@[simp] theorem State.withZones_repeats (s : State) (x : Table Zone) : (s.withZones x).repeats = s.repeats := rfl
@[simp] theorem State.withZones_scenes (s : State) (x : Table Zone) : (s.withZones x).scenes = s.scenes := rfl
@[simp] theorem State.withZones_lineA (s : State) (x : Table Zone) : (s.withZones x).lineA = s.lineA := rfl
@[simp] theorem State.withZones_lineB (s : State) (x : Table Zone) : (s.withZones x).lineB = s.lineB := rfl
@[simp] theorem State.withZones_groups (s : State) (x : Table Zone) : (s.withZones x).groups = s.groups := rfl
@[simp] theorem State.withZones_racks (s : State) (x : Table Zone) : (s.withZones x).racks = s.racks := rfl
@[simp] theorem State.withZones_roundTimer (s : State) (x : Table Zone) :
    (s.withZones x).roundTimer = s.roundTimer := rfl
@[simp] theorem State.withZones_rackSlot (s : State) (x : Table Zone) : (s.withZones x).rackSlot = s.rackSlot := rfl
@[simp] theorem State.withZones_freeUses (s : State) (x : Table Zone) : (s.withZones x).freeUses = s.freeUses := rfl
@[simp] theorem State.withZones_pending (s : State) (x : Table Zone) : (s.withZones x).pending = s.pending := rfl

@[simp] theorem State.withBindings_power (s : State) (x : Table Binding) : (s.withBindings x).power = s.power := rfl
@[simp] theorem State.withBindings_panicInput (s : State) (x : Table Binding) :
    (s.withBindings x).panicInput = s.panicInput := rfl
@[simp] theorem State.withBindings_installInput (s : State) (x : Table Binding) :
    (s.withBindings x).installInput = s.installInput := rfl
@[simp] theorem State.withBindings_sdo (s : State) (x : Table Binding) : (s.withBindings x).sdo = s.sdo := rfl
@[simp] theorem State.withBindings_hostSlot (s : State) (x : Table Binding) :
    (s.withBindings x).hostSlot = s.hostSlot := rfl
@[simp] theorem State.withBindings_collision (s : State) (x : Table Binding) :
    (s.withBindings x).collision = s.collision := rfl
@[simp] theorem State.withBindings_notices (s : State) (x : Table Binding) :
    (s.withBindings x).notices = s.notices := rfl
@[simp] theorem State.withBindings_image (s : State) (x : Table Binding) : (s.withBindings x).image = s.image := rfl
@[simp] theorem State.withBindings_saving (s : State) (x : Table Binding) : (s.withBindings x).saving = s.saving := rfl
@[simp] theorem State.withBindings_resetCause (s : State) (x : Table Binding) :
    (s.withBindings x).resetCause = s.resetCause := rfl
@[simp] theorem State.withBindings_settings (s : State) (x : Table Binding) :
    (s.withBindings x).settings = s.settings := rfl
@[simp] theorem State.withBindings_mode (s : State) (x : Table Binding) : (s.withBindings x).mode = s.mode := rfl
@[simp] theorem State.withBindings_latch (s : State) (x : Table Binding) : (s.withBindings x).latch = s.latch := rfl
@[simp] theorem State.withBindings_panicFiltered (s : State) (x : Table Binding) :
    (s.withBindings x).panicFiltered = s.panicFiltered := rfl
@[simp] theorem State.withBindings_panicTimer (s : State) (x : Table Binding) :
    (s.withBindings x).panicTimer = s.panicTimer := rfl
@[simp] theorem State.withBindings_circuits (s : State) (x : Table Binding) :
    (s.withBindings x).circuits = s.circuits := rfl
@[simp] theorem State.withBindings_zones (s : State) (x : Table Binding) : (s.withBindings x).zones = s.zones := rfl
@[simp] theorem State.withBindings_requiredFeed (s : State) (x : Table Binding) :
    (s.withBindings x).requiredFeed = s.requiredFeed := rfl
@[simp] theorem State.withBindings_latchCopy (s : State) (x : Table Binding) :
    (s.withBindings x).latchCopy = s.latchCopy := rfl
@[simp] theorem State.withBindings_stepTimer (s : State) (x : Table Binding) :
    (s.withBindings x).stepTimer = s.stepTimer := rfl
@[simp] theorem State.withBindings_bindings (s : State) (x : Table Binding) : (s.withBindings x).bindings = x := rfl
@[simp] theorem State.withBindings_protectSize (s : State) (x : Table Binding) :
    (s.withBindings x).protectSize = s.protectSize := rfl
@[simp] theorem State.withBindings_houseLock (s : State) (x : Table Binding) :
    (s.withBindings x).houseLock = s.houseLock := rfl
@[simp] theorem State.withBindings_offered (s : State) (x : Table Binding) :
    (s.withBindings x).offered = s.offered := rfl
@[simp] theorem State.withBindings_repeats (s : State) (x : Table Binding) :
    (s.withBindings x).repeats = s.repeats := rfl
@[simp] theorem State.withBindings_scenes (s : State) (x : Table Binding) : (s.withBindings x).scenes = s.scenes := rfl
@[simp] theorem State.withBindings_lineA (s : State) (x : Table Binding) : (s.withBindings x).lineA = s.lineA := rfl
@[simp] theorem State.withBindings_lineB (s : State) (x : Table Binding) : (s.withBindings x).lineB = s.lineB := rfl
@[simp] theorem State.withBindings_groups (s : State) (x : Table Binding) : (s.withBindings x).groups = s.groups := rfl
@[simp] theorem State.withBindings_racks (s : State) (x : Table Binding) : (s.withBindings x).racks = s.racks := rfl
@[simp] theorem State.withBindings_roundTimer (s : State) (x : Table Binding) :
    (s.withBindings x).roundTimer = s.roundTimer := rfl
@[simp] theorem State.withBindings_rackSlot (s : State) (x : Table Binding) :
    (s.withBindings x).rackSlot = s.rackSlot := rfl
@[simp] theorem State.withBindings_freeUses (s : State) (x : Table Binding) :
    (s.withBindings x).freeUses = s.freeUses := rfl
@[simp] theorem State.withBindings_pending (s : State) (x : Table Binding) :
    (s.withBindings x).pending = s.pending := rfl

@[simp] theorem State.withScenes_power (s : State) (x : Table Scene) : (s.withScenes x).power = s.power := rfl
@[simp] theorem State.withScenes_panicInput (s : State) (x : Table Scene) :
    (s.withScenes x).panicInput = s.panicInput := rfl
@[simp] theorem State.withScenes_installInput (s : State) (x : Table Scene) :
    (s.withScenes x).installInput = s.installInput := rfl
@[simp] theorem State.withScenes_sdo (s : State) (x : Table Scene) : (s.withScenes x).sdo = s.sdo := rfl
@[simp] theorem State.withScenes_hostSlot (s : State) (x : Table Scene) : (s.withScenes x).hostSlot = s.hostSlot := rfl
@[simp] theorem State.withScenes_collision (s : State) (x : Table Scene) :
    (s.withScenes x).collision = s.collision := rfl
@[simp] theorem State.withScenes_notices (s : State) (x : Table Scene) : (s.withScenes x).notices = s.notices := rfl
@[simp] theorem State.withScenes_image (s : State) (x : Table Scene) : (s.withScenes x).image = s.image := rfl
@[simp] theorem State.withScenes_saving (s : State) (x : Table Scene) : (s.withScenes x).saving = s.saving := rfl
@[simp] theorem State.withScenes_resetCause (s : State) (x : Table Scene) :
    (s.withScenes x).resetCause = s.resetCause := rfl
@[simp] theorem State.withScenes_settings (s : State) (x : Table Scene) : (s.withScenes x).settings = s.settings := rfl
@[simp] theorem State.withScenes_mode (s : State) (x : Table Scene) : (s.withScenes x).mode = s.mode := rfl
@[simp] theorem State.withScenes_latch (s : State) (x : Table Scene) : (s.withScenes x).latch = s.latch := rfl
@[simp] theorem State.withScenes_panicFiltered (s : State) (x : Table Scene) :
    (s.withScenes x).panicFiltered = s.panicFiltered := rfl
@[simp] theorem State.withScenes_panicTimer (s : State) (x : Table Scene) :
    (s.withScenes x).panicTimer = s.panicTimer := rfl
@[simp] theorem State.withScenes_circuits (s : State) (x : Table Scene) : (s.withScenes x).circuits = s.circuits := rfl
@[simp] theorem State.withScenes_zones (s : State) (x : Table Scene) : (s.withScenes x).zones = s.zones := rfl
@[simp] theorem State.withScenes_requiredFeed (s : State) (x : Table Scene) :
    (s.withScenes x).requiredFeed = s.requiredFeed := rfl
@[simp] theorem State.withScenes_latchCopy (s : State) (x : Table Scene) :
    (s.withScenes x).latchCopy = s.latchCopy := rfl
@[simp] theorem State.withScenes_stepTimer (s : State) (x : Table Scene) :
    (s.withScenes x).stepTimer = s.stepTimer := rfl
@[simp] theorem State.withScenes_bindings (s : State) (x : Table Scene) : (s.withScenes x).bindings = s.bindings := rfl
@[simp] theorem State.withScenes_protectSize (s : State) (x : Table Scene) :
    (s.withScenes x).protectSize = s.protectSize := rfl
@[simp] theorem State.withScenes_houseLock (s : State) (x : Table Scene) :
    (s.withScenes x).houseLock = s.houseLock := rfl
@[simp] theorem State.withScenes_offered (s : State) (x : Table Scene) : (s.withScenes x).offered = s.offered := rfl
@[simp] theorem State.withScenes_repeats (s : State) (x : Table Scene) : (s.withScenes x).repeats = s.repeats := rfl
@[simp] theorem State.withScenes_scenes (s : State) (x : Table Scene) : (s.withScenes x).scenes = x := rfl
@[simp] theorem State.withScenes_lineA (s : State) (x : Table Scene) : (s.withScenes x).lineA = s.lineA := rfl
@[simp] theorem State.withScenes_lineB (s : State) (x : Table Scene) : (s.withScenes x).lineB = s.lineB := rfl
@[simp] theorem State.withScenes_groups (s : State) (x : Table Scene) : (s.withScenes x).groups = s.groups := rfl
@[simp] theorem State.withScenes_racks (s : State) (x : Table Scene) : (s.withScenes x).racks = s.racks := rfl
@[simp] theorem State.withScenes_roundTimer (s : State) (x : Table Scene) :
    (s.withScenes x).roundTimer = s.roundTimer := rfl
@[simp] theorem State.withScenes_rackSlot (s : State) (x : Table Scene) : (s.withScenes x).rackSlot = s.rackSlot := rfl
@[simp] theorem State.withScenes_freeUses (s : State) (x : Table Scene) : (s.withScenes x).freeUses = s.freeUses := rfl
@[simp] theorem State.withScenes_pending (s : State) (x : Table Scene) : (s.withScenes x).pending = s.pending := rfl

@[simp] theorem State.withGroups_power (s : State) (x : Table Group) : (s.withGroups x).power = s.power := rfl
@[simp] theorem State.withGroups_panicInput (s : State) (x : Table Group) :
    (s.withGroups x).panicInput = s.panicInput := rfl
@[simp] theorem State.withGroups_installInput (s : State) (x : Table Group) :
    (s.withGroups x).installInput = s.installInput := rfl
@[simp] theorem State.withGroups_sdo (s : State) (x : Table Group) : (s.withGroups x).sdo = s.sdo := rfl
@[simp] theorem State.withGroups_hostSlot (s : State) (x : Table Group) : (s.withGroups x).hostSlot = s.hostSlot := rfl
@[simp] theorem State.withGroups_collision (s : State) (x : Table Group) :
    (s.withGroups x).collision = s.collision := rfl
@[simp] theorem State.withGroups_notices (s : State) (x : Table Group) : (s.withGroups x).notices = s.notices := rfl
@[simp] theorem State.withGroups_image (s : State) (x : Table Group) : (s.withGroups x).image = s.image := rfl
@[simp] theorem State.withGroups_saving (s : State) (x : Table Group) : (s.withGroups x).saving = s.saving := rfl
@[simp] theorem State.withGroups_resetCause (s : State) (x : Table Group) :
    (s.withGroups x).resetCause = s.resetCause := rfl
@[simp] theorem State.withGroups_settings (s : State) (x : Table Group) : (s.withGroups x).settings = s.settings := rfl
@[simp] theorem State.withGroups_mode (s : State) (x : Table Group) : (s.withGroups x).mode = s.mode := rfl
@[simp] theorem State.withGroups_latch (s : State) (x : Table Group) : (s.withGroups x).latch = s.latch := rfl
@[simp] theorem State.withGroups_panicFiltered (s : State) (x : Table Group) :
    (s.withGroups x).panicFiltered = s.panicFiltered := rfl
@[simp] theorem State.withGroups_panicTimer (s : State) (x : Table Group) :
    (s.withGroups x).panicTimer = s.panicTimer := rfl
@[simp] theorem State.withGroups_circuits (s : State) (x : Table Group) : (s.withGroups x).circuits = s.circuits := rfl
@[simp] theorem State.withGroups_zones (s : State) (x : Table Group) : (s.withGroups x).zones = s.zones := rfl
@[simp] theorem State.withGroups_requiredFeed (s : State) (x : Table Group) :
    (s.withGroups x).requiredFeed = s.requiredFeed := rfl
@[simp] theorem State.withGroups_latchCopy (s : State) (x : Table Group) :
    (s.withGroups x).latchCopy = s.latchCopy := rfl
@[simp] theorem State.withGroups_stepTimer (s : State) (x : Table Group) :
    (s.withGroups x).stepTimer = s.stepTimer := rfl
@[simp] theorem State.withGroups_bindings (s : State) (x : Table Group) : (s.withGroups x).bindings = s.bindings := rfl
@[simp] theorem State.withGroups_protectSize (s : State) (x : Table Group) :
    (s.withGroups x).protectSize = s.protectSize := rfl
@[simp] theorem State.withGroups_houseLock (s : State) (x : Table Group) :
    (s.withGroups x).houseLock = s.houseLock := rfl
@[simp] theorem State.withGroups_offered (s : State) (x : Table Group) : (s.withGroups x).offered = s.offered := rfl
@[simp] theorem State.withGroups_repeats (s : State) (x : Table Group) : (s.withGroups x).repeats = s.repeats := rfl
@[simp] theorem State.withGroups_scenes (s : State) (x : Table Group) : (s.withGroups x).scenes = s.scenes := rfl
@[simp] theorem State.withGroups_lineA (s : State) (x : Table Group) : (s.withGroups x).lineA = s.lineA := rfl
@[simp] theorem State.withGroups_lineB (s : State) (x : Table Group) : (s.withGroups x).lineB = s.lineB := rfl
@[simp] theorem State.withGroups_groups (s : State) (x : Table Group) : (s.withGroups x).groups = x := rfl
@[simp] theorem State.withGroups_racks (s : State) (x : Table Group) : (s.withGroups x).racks = s.racks := rfl
@[simp] theorem State.withGroups_roundTimer (s : State) (x : Table Group) :
    (s.withGroups x).roundTimer = s.roundTimer := rfl
@[simp] theorem State.withGroups_rackSlot (s : State) (x : Table Group) : (s.withGroups x).rackSlot = s.rackSlot := rfl
@[simp] theorem State.withGroups_freeUses (s : State) (x : Table Group) : (s.withGroups x).freeUses = s.freeUses := rfl
@[simp] theorem State.withGroups_pending (s : State) (x : Table Group) : (s.withGroups x).pending = s.pending := rfl

@[simp] theorem State.withRacks_power (s : State) (x : Table Rack) : (s.withRacks x).power = s.power := rfl
@[simp] theorem State.withRacks_panicInput (s : State) (x : Table Rack) :
    (s.withRacks x).panicInput = s.panicInput := rfl
@[simp] theorem State.withRacks_installInput (s : State) (x : Table Rack) :
    (s.withRacks x).installInput = s.installInput := rfl
@[simp] theorem State.withRacks_sdo (s : State) (x : Table Rack) : (s.withRacks x).sdo = s.sdo := rfl
@[simp] theorem State.withRacks_hostSlot (s : State) (x : Table Rack) : (s.withRacks x).hostSlot = s.hostSlot := rfl
@[simp] theorem State.withRacks_collision (s : State) (x : Table Rack) : (s.withRacks x).collision = s.collision := rfl
@[simp] theorem State.withRacks_notices (s : State) (x : Table Rack) : (s.withRacks x).notices = s.notices := rfl
@[simp] theorem State.withRacks_image (s : State) (x : Table Rack) : (s.withRacks x).image = s.image := rfl
@[simp] theorem State.withRacks_saving (s : State) (x : Table Rack) : (s.withRacks x).saving = s.saving := rfl
@[simp] theorem State.withRacks_resetCause (s : State) (x : Table Rack) :
    (s.withRacks x).resetCause = s.resetCause := rfl
@[simp] theorem State.withRacks_settings (s : State) (x : Table Rack) : (s.withRacks x).settings = s.settings := rfl
@[simp] theorem State.withRacks_mode (s : State) (x : Table Rack) : (s.withRacks x).mode = s.mode := rfl
@[simp] theorem State.withRacks_latch (s : State) (x : Table Rack) : (s.withRacks x).latch = s.latch := rfl
@[simp] theorem State.withRacks_panicFiltered (s : State) (x : Table Rack) :
    (s.withRacks x).panicFiltered = s.panicFiltered := rfl
@[simp] theorem State.withRacks_panicTimer (s : State) (x : Table Rack) :
    (s.withRacks x).panicTimer = s.panicTimer := rfl
@[simp] theorem State.withRacks_circuits (s : State) (x : Table Rack) : (s.withRacks x).circuits = s.circuits := rfl
@[simp] theorem State.withRacks_zones (s : State) (x : Table Rack) : (s.withRacks x).zones = s.zones := rfl
@[simp] theorem State.withRacks_requiredFeed (s : State) (x : Table Rack) :
    (s.withRacks x).requiredFeed = s.requiredFeed := rfl
@[simp] theorem State.withRacks_latchCopy (s : State) (x : Table Rack) : (s.withRacks x).latchCopy = s.latchCopy := rfl
@[simp] theorem State.withRacks_stepTimer (s : State) (x : Table Rack) : (s.withRacks x).stepTimer = s.stepTimer := rfl
@[simp] theorem State.withRacks_bindings (s : State) (x : Table Rack) : (s.withRacks x).bindings = s.bindings := rfl
@[simp] theorem State.withRacks_protectSize (s : State) (x : Table Rack) :
    (s.withRacks x).protectSize = s.protectSize := rfl
@[simp] theorem State.withRacks_houseLock (s : State) (x : Table Rack) : (s.withRacks x).houseLock = s.houseLock := rfl
@[simp] theorem State.withRacks_offered (s : State) (x : Table Rack) : (s.withRacks x).offered = s.offered := rfl
@[simp] theorem State.withRacks_repeats (s : State) (x : Table Rack) : (s.withRacks x).repeats = s.repeats := rfl
@[simp] theorem State.withRacks_scenes (s : State) (x : Table Rack) : (s.withRacks x).scenes = s.scenes := rfl
@[simp] theorem State.withRacks_lineA (s : State) (x : Table Rack) : (s.withRacks x).lineA = s.lineA := rfl
@[simp] theorem State.withRacks_lineB (s : State) (x : Table Rack) : (s.withRacks x).lineB = s.lineB := rfl
@[simp] theorem State.withRacks_groups (s : State) (x : Table Rack) : (s.withRacks x).groups = s.groups := rfl
@[simp] theorem State.withRacks_racks (s : State) (x : Table Rack) : (s.withRacks x).racks = x := rfl
@[simp] theorem State.withRacks_roundTimer (s : State) (x : Table Rack) :
    (s.withRacks x).roundTimer = s.roundTimer := rfl
@[simp] theorem State.withRacks_rackSlot (s : State) (x : Table Rack) : (s.withRacks x).rackSlot = s.rackSlot := rfl
@[simp] theorem State.withRacks_freeUses (s : State) (x : Table Rack) : (s.withRacks x).freeUses = s.freeUses := rfl
@[simp] theorem State.withRacks_pending (s : State) (x : Table Rack) : (s.withRacks x).pending = s.pending := rfl

@[simp] theorem State.withRepeats_power (s : State) (x : List Repeat) : (s.withRepeats x).power = s.power := rfl
@[simp] theorem State.withRepeats_panicInput (s : State) (x : List Repeat) :
    (s.withRepeats x).panicInput = s.panicInput := rfl
@[simp] theorem State.withRepeats_installInput (s : State) (x : List Repeat) :
    (s.withRepeats x).installInput = s.installInput := rfl
@[simp] theorem State.withRepeats_sdo (s : State) (x : List Repeat) : (s.withRepeats x).sdo = s.sdo := rfl
@[simp] theorem State.withRepeats_hostSlot (s : State) (x : List Repeat) :
    (s.withRepeats x).hostSlot = s.hostSlot := rfl
@[simp] theorem State.withRepeats_collision (s : State) (x : List Repeat) :
    (s.withRepeats x).collision = s.collision := rfl
@[simp] theorem State.withRepeats_notices (s : State) (x : List Repeat) : (s.withRepeats x).notices = s.notices := rfl
@[simp] theorem State.withRepeats_image (s : State) (x : List Repeat) : (s.withRepeats x).image = s.image := rfl
@[simp] theorem State.withRepeats_saving (s : State) (x : List Repeat) : (s.withRepeats x).saving = s.saving := rfl
@[simp] theorem State.withRepeats_resetCause (s : State) (x : List Repeat) :
    (s.withRepeats x).resetCause = s.resetCause := rfl
@[simp] theorem State.withRepeats_settings (s : State) (x : List Repeat) :
    (s.withRepeats x).settings = s.settings := rfl
@[simp] theorem State.withRepeats_mode (s : State) (x : List Repeat) : (s.withRepeats x).mode = s.mode := rfl
@[simp] theorem State.withRepeats_latch (s : State) (x : List Repeat) : (s.withRepeats x).latch = s.latch := rfl
@[simp] theorem State.withRepeats_panicFiltered (s : State) (x : List Repeat) :
    (s.withRepeats x).panicFiltered = s.panicFiltered := rfl
@[simp] theorem State.withRepeats_panicTimer (s : State) (x : List Repeat) :
    (s.withRepeats x).panicTimer = s.panicTimer := rfl
@[simp] theorem State.withRepeats_circuits (s : State) (x : List Repeat) :
    (s.withRepeats x).circuits = s.circuits := rfl
@[simp] theorem State.withRepeats_zones (s : State) (x : List Repeat) : (s.withRepeats x).zones = s.zones := rfl
@[simp] theorem State.withRepeats_requiredFeed (s : State) (x : List Repeat) :
    (s.withRepeats x).requiredFeed = s.requiredFeed := rfl
@[simp] theorem State.withRepeats_latchCopy (s : State) (x : List Repeat) :
    (s.withRepeats x).latchCopy = s.latchCopy := rfl
@[simp] theorem State.withRepeats_stepTimer (s : State) (x : List Repeat) :
    (s.withRepeats x).stepTimer = s.stepTimer := rfl
@[simp] theorem State.withRepeats_bindings (s : State) (x : List Repeat) :
    (s.withRepeats x).bindings = s.bindings := rfl
@[simp] theorem State.withRepeats_protectSize (s : State) (x : List Repeat) :
    (s.withRepeats x).protectSize = s.protectSize := rfl
@[simp] theorem State.withRepeats_houseLock (s : State) (x : List Repeat) :
    (s.withRepeats x).houseLock = s.houseLock := rfl
@[simp] theorem State.withRepeats_offered (s : State) (x : List Repeat) : (s.withRepeats x).offered = s.offered := rfl
@[simp] theorem State.withRepeats_repeats (s : State) (x : List Repeat) : (s.withRepeats x).repeats = x := rfl
@[simp] theorem State.withRepeats_scenes (s : State) (x : List Repeat) : (s.withRepeats x).scenes = s.scenes := rfl
@[simp] theorem State.withRepeats_lineA (s : State) (x : List Repeat) : (s.withRepeats x).lineA = s.lineA := rfl
@[simp] theorem State.withRepeats_lineB (s : State) (x : List Repeat) : (s.withRepeats x).lineB = s.lineB := rfl
@[simp] theorem State.withRepeats_groups (s : State) (x : List Repeat) : (s.withRepeats x).groups = s.groups := rfl
@[simp] theorem State.withRepeats_racks (s : State) (x : List Repeat) : (s.withRepeats x).racks = s.racks := rfl
@[simp] theorem State.withRepeats_roundTimer (s : State) (x : List Repeat) :
    (s.withRepeats x).roundTimer = s.roundTimer := rfl
@[simp] theorem State.withRepeats_rackSlot (s : State) (x : List Repeat) :
    (s.withRepeats x).rackSlot = s.rackSlot := rfl
@[simp] theorem State.withRepeats_freeUses (s : State) (x : List Repeat) :
    (s.withRepeats x).freeUses = s.freeUses := rfl
@[simp] theorem State.withRepeats_pending (s : State) (x : List Repeat) : (s.withRepeats x).pending = s.pending := rfl

@[simp] theorem State.withOffered_power (s : State) (x : Option Firing) : (s.withOffered x).power = s.power := rfl
@[simp] theorem State.withOffered_panicInput (s : State) (x : Option Firing) :
    (s.withOffered x).panicInput = s.panicInput := rfl
@[simp] theorem State.withOffered_installInput (s : State) (x : Option Firing) :
    (s.withOffered x).installInput = s.installInput := rfl
@[simp] theorem State.withOffered_sdo (s : State) (x : Option Firing) : (s.withOffered x).sdo = s.sdo := rfl
@[simp] theorem State.withOffered_hostSlot (s : State) (x : Option Firing) :
    (s.withOffered x).hostSlot = s.hostSlot := rfl
@[simp] theorem State.withOffered_collision (s : State) (x : Option Firing) :
    (s.withOffered x).collision = s.collision := rfl
@[simp] theorem State.withOffered_notices (s : State) (x : Option Firing) : (s.withOffered x).notices = s.notices := rfl
@[simp] theorem State.withOffered_image (s : State) (x : Option Firing) : (s.withOffered x).image = s.image := rfl
@[simp] theorem State.withOffered_saving (s : State) (x : Option Firing) : (s.withOffered x).saving = s.saving := rfl
@[simp] theorem State.withOffered_resetCause (s : State) (x : Option Firing) :
    (s.withOffered x).resetCause = s.resetCause := rfl
@[simp] theorem State.withOffered_settings (s : State) (x : Option Firing) :
    (s.withOffered x).settings = s.settings := rfl
@[simp] theorem State.withOffered_mode (s : State) (x : Option Firing) : (s.withOffered x).mode = s.mode := rfl
@[simp] theorem State.withOffered_latch (s : State) (x : Option Firing) : (s.withOffered x).latch = s.latch := rfl
@[simp] theorem State.withOffered_panicFiltered (s : State) (x : Option Firing) :
    (s.withOffered x).panicFiltered = s.panicFiltered := rfl
@[simp] theorem State.withOffered_panicTimer (s : State) (x : Option Firing) :
    (s.withOffered x).panicTimer = s.panicTimer := rfl
@[simp] theorem State.withOffered_circuits (s : State) (x : Option Firing) :
    (s.withOffered x).circuits = s.circuits := rfl
@[simp] theorem State.withOffered_zones (s : State) (x : Option Firing) : (s.withOffered x).zones = s.zones := rfl
@[simp] theorem State.withOffered_requiredFeed (s : State) (x : Option Firing) :
    (s.withOffered x).requiredFeed = s.requiredFeed := rfl
@[simp] theorem State.withOffered_latchCopy (s : State) (x : Option Firing) :
    (s.withOffered x).latchCopy = s.latchCopy := rfl
@[simp] theorem State.withOffered_stepTimer (s : State) (x : Option Firing) :
    (s.withOffered x).stepTimer = s.stepTimer := rfl
@[simp] theorem State.withOffered_bindings (s : State) (x : Option Firing) :
    (s.withOffered x).bindings = s.bindings := rfl
@[simp] theorem State.withOffered_protectSize (s : State) (x : Option Firing) :
    (s.withOffered x).protectSize = s.protectSize := rfl
@[simp] theorem State.withOffered_houseLock (s : State) (x : Option Firing) :
    (s.withOffered x).houseLock = s.houseLock := rfl
@[simp] theorem State.withOffered_offered (s : State) (x : Option Firing) : (s.withOffered x).offered = x := rfl
@[simp] theorem State.withOffered_repeats (s : State) (x : Option Firing) : (s.withOffered x).repeats = s.repeats := rfl
@[simp] theorem State.withOffered_scenes (s : State) (x : Option Firing) : (s.withOffered x).scenes = s.scenes := rfl
@[simp] theorem State.withOffered_lineA (s : State) (x : Option Firing) : (s.withOffered x).lineA = s.lineA := rfl
@[simp] theorem State.withOffered_lineB (s : State) (x : Option Firing) : (s.withOffered x).lineB = s.lineB := rfl
@[simp] theorem State.withOffered_groups (s : State) (x : Option Firing) : (s.withOffered x).groups = s.groups := rfl
@[simp] theorem State.withOffered_racks (s : State) (x : Option Firing) : (s.withOffered x).racks = s.racks := rfl
@[simp] theorem State.withOffered_roundTimer (s : State) (x : Option Firing) :
    (s.withOffered x).roundTimer = s.roundTimer := rfl
@[simp] theorem State.withOffered_rackSlot (s : State) (x : Option Firing) :
    (s.withOffered x).rackSlot = s.rackSlot := rfl
@[simp] theorem State.withOffered_freeUses (s : State) (x : Option Firing) :
    (s.withOffered x).freeUses = s.freeUses := rfl
@[simp] theorem State.withOffered_pending (s : State) (x : Option Firing) : (s.withOffered x).pending = s.pending := rfl

@[simp] theorem State.withRackSlot_power (s : State) (x : Option RackSlot) : (s.withRackSlot x).power = s.power := rfl
@[simp] theorem State.withRackSlot_panicInput (s : State) (x : Option RackSlot) :
    (s.withRackSlot x).panicInput = s.panicInput := rfl
@[simp] theorem State.withRackSlot_installInput (s : State) (x : Option RackSlot) :
    (s.withRackSlot x).installInput = s.installInput := rfl
@[simp] theorem State.withRackSlot_sdo (s : State) (x : Option RackSlot) : (s.withRackSlot x).sdo = s.sdo := rfl
@[simp] theorem State.withRackSlot_hostSlot (s : State) (x : Option RackSlot) :
    (s.withRackSlot x).hostSlot = s.hostSlot := rfl
@[simp] theorem State.withRackSlot_collision (s : State) (x : Option RackSlot) :
    (s.withRackSlot x).collision = s.collision := rfl
@[simp] theorem State.withRackSlot_notices (s : State) (x : Option RackSlot) :
    (s.withRackSlot x).notices = s.notices := rfl
@[simp] theorem State.withRackSlot_image (s : State) (x : Option RackSlot) : (s.withRackSlot x).image = s.image := rfl
@[simp] theorem State.withRackSlot_saving (s : State) (x : Option RackSlot) :
    (s.withRackSlot x).saving = s.saving := rfl
@[simp] theorem State.withRackSlot_resetCause (s : State) (x : Option RackSlot) :
    (s.withRackSlot x).resetCause = s.resetCause := rfl
@[simp] theorem State.withRackSlot_settings (s : State) (x : Option RackSlot) :
    (s.withRackSlot x).settings = s.settings := rfl
@[simp] theorem State.withRackSlot_mode (s : State) (x : Option RackSlot) : (s.withRackSlot x).mode = s.mode := rfl
@[simp] theorem State.withRackSlot_latch (s : State) (x : Option RackSlot) : (s.withRackSlot x).latch = s.latch := rfl
@[simp] theorem State.withRackSlot_panicFiltered (s : State) (x : Option RackSlot) :
    (s.withRackSlot x).panicFiltered = s.panicFiltered := rfl
@[simp] theorem State.withRackSlot_panicTimer (s : State) (x : Option RackSlot) :
    (s.withRackSlot x).panicTimer = s.panicTimer := rfl
@[simp] theorem State.withRackSlot_circuits (s : State) (x : Option RackSlot) :
    (s.withRackSlot x).circuits = s.circuits := rfl
@[simp] theorem State.withRackSlot_zones (s : State) (x : Option RackSlot) : (s.withRackSlot x).zones = s.zones := rfl
@[simp] theorem State.withRackSlot_requiredFeed (s : State) (x : Option RackSlot) :
    (s.withRackSlot x).requiredFeed = s.requiredFeed := rfl
@[simp] theorem State.withRackSlot_latchCopy (s : State) (x : Option RackSlot) :
    (s.withRackSlot x).latchCopy = s.latchCopy := rfl
@[simp] theorem State.withRackSlot_stepTimer (s : State) (x : Option RackSlot) :
    (s.withRackSlot x).stepTimer = s.stepTimer := rfl
@[simp] theorem State.withRackSlot_bindings (s : State) (x : Option RackSlot) :
    (s.withRackSlot x).bindings = s.bindings := rfl
@[simp] theorem State.withRackSlot_protectSize (s : State) (x : Option RackSlot) :
    (s.withRackSlot x).protectSize = s.protectSize := rfl
@[simp] theorem State.withRackSlot_houseLock (s : State) (x : Option RackSlot) :
    (s.withRackSlot x).houseLock = s.houseLock := rfl
@[simp] theorem State.withRackSlot_offered (s : State) (x : Option RackSlot) :
    (s.withRackSlot x).offered = s.offered := rfl
@[simp] theorem State.withRackSlot_repeats (s : State) (x : Option RackSlot) :
    (s.withRackSlot x).repeats = s.repeats := rfl
@[simp] theorem State.withRackSlot_scenes (s : State) (x : Option RackSlot) :
    (s.withRackSlot x).scenes = s.scenes := rfl
@[simp] theorem State.withRackSlot_lineA (s : State) (x : Option RackSlot) : (s.withRackSlot x).lineA = s.lineA := rfl
@[simp] theorem State.withRackSlot_lineB (s : State) (x : Option RackSlot) : (s.withRackSlot x).lineB = s.lineB := rfl
@[simp] theorem State.withRackSlot_groups (s : State) (x : Option RackSlot) :
    (s.withRackSlot x).groups = s.groups := rfl
@[simp] theorem State.withRackSlot_racks (s : State) (x : Option RackSlot) : (s.withRackSlot x).racks = s.racks := rfl
@[simp] theorem State.withRackSlot_roundTimer (s : State) (x : Option RackSlot) :
    (s.withRackSlot x).roundTimer = s.roundTimer := rfl
@[simp] theorem State.withRackSlot_rackSlot (s : State) (x : Option RackSlot) : (s.withRackSlot x).rackSlot = x := rfl
@[simp] theorem State.withRackSlot_freeUses (s : State) (x : Option RackSlot) :
    (s.withRackSlot x).freeUses = s.freeUses := rfl
@[simp] theorem State.withRackSlot_pending (s : State) (x : Option RackSlot) :
    (s.withRackSlot x).pending = s.pending := rfl

@[simp] theorem State.withRoundTimer_power (s : State) (x : Option Nat) : (s.withRoundTimer x).power = s.power := rfl
@[simp] theorem State.withRoundTimer_panicInput (s : State) (x : Option Nat) :
    (s.withRoundTimer x).panicInput = s.panicInput := rfl
@[simp] theorem State.withRoundTimer_installInput (s : State) (x : Option Nat) :
    (s.withRoundTimer x).installInput = s.installInput := rfl
@[simp] theorem State.withRoundTimer_sdo (s : State) (x : Option Nat) : (s.withRoundTimer x).sdo = s.sdo := rfl
@[simp] theorem State.withRoundTimer_hostSlot (s : State) (x : Option Nat) :
    (s.withRoundTimer x).hostSlot = s.hostSlot := rfl
@[simp] theorem State.withRoundTimer_collision (s : State) (x : Option Nat) :
    (s.withRoundTimer x).collision = s.collision := rfl
@[simp] theorem State.withRoundTimer_notices (s : State) (x : Option Nat) :
    (s.withRoundTimer x).notices = s.notices := rfl
@[simp] theorem State.withRoundTimer_image (s : State) (x : Option Nat) : (s.withRoundTimer x).image = s.image := rfl
@[simp] theorem State.withRoundTimer_saving (s : State) (x : Option Nat) : (s.withRoundTimer x).saving = s.saving := rfl
@[simp] theorem State.withRoundTimer_resetCause (s : State) (x : Option Nat) :
    (s.withRoundTimer x).resetCause = s.resetCause := rfl
@[simp] theorem State.withRoundTimer_settings (s : State) (x : Option Nat) :
    (s.withRoundTimer x).settings = s.settings := rfl
@[simp] theorem State.withRoundTimer_mode (s : State) (x : Option Nat) : (s.withRoundTimer x).mode = s.mode := rfl
@[simp] theorem State.withRoundTimer_latch (s : State) (x : Option Nat) : (s.withRoundTimer x).latch = s.latch := rfl
@[simp] theorem State.withRoundTimer_panicFiltered (s : State) (x : Option Nat) :
    (s.withRoundTimer x).panicFiltered = s.panicFiltered := rfl
@[simp] theorem State.withRoundTimer_panicTimer (s : State) (x : Option Nat) :
    (s.withRoundTimer x).panicTimer = s.panicTimer := rfl
@[simp] theorem State.withRoundTimer_circuits (s : State) (x : Option Nat) :
    (s.withRoundTimer x).circuits = s.circuits := rfl
@[simp] theorem State.withRoundTimer_zones (s : State) (x : Option Nat) : (s.withRoundTimer x).zones = s.zones := rfl
@[simp] theorem State.withRoundTimer_requiredFeed (s : State) (x : Option Nat) :
    (s.withRoundTimer x).requiredFeed = s.requiredFeed := rfl
@[simp] theorem State.withRoundTimer_latchCopy (s : State) (x : Option Nat) :
    (s.withRoundTimer x).latchCopy = s.latchCopy := rfl
@[simp] theorem State.withRoundTimer_stepTimer (s : State) (x : Option Nat) :
    (s.withRoundTimer x).stepTimer = s.stepTimer := rfl
@[simp] theorem State.withRoundTimer_bindings (s : State) (x : Option Nat) :
    (s.withRoundTimer x).bindings = s.bindings := rfl
@[simp] theorem State.withRoundTimer_protectSize (s : State) (x : Option Nat) :
    (s.withRoundTimer x).protectSize = s.protectSize := rfl
@[simp] theorem State.withRoundTimer_houseLock (s : State) (x : Option Nat) :
    (s.withRoundTimer x).houseLock = s.houseLock := rfl
@[simp] theorem State.withRoundTimer_offered (s : State) (x : Option Nat) :
    (s.withRoundTimer x).offered = s.offered := rfl
@[simp] theorem State.withRoundTimer_repeats (s : State) (x : Option Nat) :
    (s.withRoundTimer x).repeats = s.repeats := rfl
@[simp] theorem State.withRoundTimer_scenes (s : State) (x : Option Nat) : (s.withRoundTimer x).scenes = s.scenes := rfl
@[simp] theorem State.withRoundTimer_lineA (s : State) (x : Option Nat) : (s.withRoundTimer x).lineA = s.lineA := rfl
@[simp] theorem State.withRoundTimer_lineB (s : State) (x : Option Nat) : (s.withRoundTimer x).lineB = s.lineB := rfl
@[simp] theorem State.withRoundTimer_groups (s : State) (x : Option Nat) : (s.withRoundTimer x).groups = s.groups := rfl
@[simp] theorem State.withRoundTimer_racks (s : State) (x : Option Nat) : (s.withRoundTimer x).racks = s.racks := rfl
@[simp] theorem State.withRoundTimer_roundTimer (s : State) (x : Option Nat) :
    (s.withRoundTimer x).roundTimer = x := rfl
@[simp] theorem State.withRoundTimer_rackSlot (s : State) (x : Option Nat) :
    (s.withRoundTimer x).rackSlot = s.rackSlot := rfl
@[simp] theorem State.withRoundTimer_freeUses (s : State) (x : Option Nat) :
    (s.withRoundTimer x).freeUses = s.freeUses := rfl
@[simp] theorem State.withRoundTimer_pending (s : State) (x : Option Nat) :
    (s.withRoundTimer x).pending = s.pending := rfl

@[simp] theorem State.withHostSlot_power (s : State) (x : HostSlot) : (s.withHostSlot x).power = s.power := rfl
@[simp] theorem State.withHostSlot_panicInput (s : State) (x : HostSlot) :
    (s.withHostSlot x).panicInput = s.panicInput := rfl
@[simp] theorem State.withHostSlot_installInput (s : State) (x : HostSlot) :
    (s.withHostSlot x).installInput = s.installInput := rfl
@[simp] theorem State.withHostSlot_sdo (s : State) (x : HostSlot) : (s.withHostSlot x).sdo = s.sdo := rfl
@[simp] theorem State.withHostSlot_hostSlot (s : State) (x : HostSlot) : (s.withHostSlot x).hostSlot = x := rfl
@[simp] theorem State.withHostSlot_collision (s : State) (x : HostSlot) :
    (s.withHostSlot x).collision = s.collision := rfl
@[simp] theorem State.withHostSlot_notices (s : State) (x : HostSlot) : (s.withHostSlot x).notices = s.notices := rfl
@[simp] theorem State.withHostSlot_image (s : State) (x : HostSlot) : (s.withHostSlot x).image = s.image := rfl
@[simp] theorem State.withHostSlot_saving (s : State) (x : HostSlot) : (s.withHostSlot x).saving = s.saving := rfl
@[simp] theorem State.withHostSlot_resetCause (s : State) (x : HostSlot) :
    (s.withHostSlot x).resetCause = s.resetCause := rfl
@[simp] theorem State.withHostSlot_settings (s : State) (x : HostSlot) : (s.withHostSlot x).settings = s.settings := rfl
@[simp] theorem State.withHostSlot_mode (s : State) (x : HostSlot) : (s.withHostSlot x).mode = s.mode := rfl
@[simp] theorem State.withHostSlot_latch (s : State) (x : HostSlot) : (s.withHostSlot x).latch = s.latch := rfl
@[simp] theorem State.withHostSlot_panicFiltered (s : State) (x : HostSlot) :
    (s.withHostSlot x).panicFiltered = s.panicFiltered := rfl
@[simp] theorem State.withHostSlot_panicTimer (s : State) (x : HostSlot) :
    (s.withHostSlot x).panicTimer = s.panicTimer := rfl
@[simp] theorem State.withHostSlot_circuits (s : State) (x : HostSlot) : (s.withHostSlot x).circuits = s.circuits := rfl
@[simp] theorem State.withHostSlot_zones (s : State) (x : HostSlot) : (s.withHostSlot x).zones = s.zones := rfl
@[simp] theorem State.withHostSlot_requiredFeed (s : State) (x : HostSlot) :
    (s.withHostSlot x).requiredFeed = s.requiredFeed := rfl
@[simp] theorem State.withHostSlot_latchCopy (s : State) (x : HostSlot) :
    (s.withHostSlot x).latchCopy = s.latchCopy := rfl
@[simp] theorem State.withHostSlot_stepTimer (s : State) (x : HostSlot) :
    (s.withHostSlot x).stepTimer = s.stepTimer := rfl
@[simp] theorem State.withHostSlot_bindings (s : State) (x : HostSlot) : (s.withHostSlot x).bindings = s.bindings := rfl
@[simp] theorem State.withHostSlot_protectSize (s : State) (x : HostSlot) :
    (s.withHostSlot x).protectSize = s.protectSize := rfl
@[simp] theorem State.withHostSlot_houseLock (s : State) (x : HostSlot) :
    (s.withHostSlot x).houseLock = s.houseLock := rfl
@[simp] theorem State.withHostSlot_offered (s : State) (x : HostSlot) : (s.withHostSlot x).offered = s.offered := rfl
@[simp] theorem State.withHostSlot_repeats (s : State) (x : HostSlot) : (s.withHostSlot x).repeats = s.repeats := rfl
@[simp] theorem State.withHostSlot_scenes (s : State) (x : HostSlot) : (s.withHostSlot x).scenes = s.scenes := rfl
@[simp] theorem State.withHostSlot_lineA (s : State) (x : HostSlot) : (s.withHostSlot x).lineA = s.lineA := rfl
@[simp] theorem State.withHostSlot_lineB (s : State) (x : HostSlot) : (s.withHostSlot x).lineB = s.lineB := rfl
@[simp] theorem State.withHostSlot_groups (s : State) (x : HostSlot) : (s.withHostSlot x).groups = s.groups := rfl
@[simp] theorem State.withHostSlot_racks (s : State) (x : HostSlot) : (s.withHostSlot x).racks = s.racks := rfl
@[simp] theorem State.withHostSlot_roundTimer (s : State) (x : HostSlot) :
    (s.withHostSlot x).roundTimer = s.roundTimer := rfl
@[simp] theorem State.withHostSlot_rackSlot (s : State) (x : HostSlot) : (s.withHostSlot x).rackSlot = s.rackSlot := rfl
@[simp] theorem State.withHostSlot_freeUses (s : State) (x : HostSlot) : (s.withHostSlot x).freeUses = s.freeUses := rfl
@[simp] theorem State.withHostSlot_pending (s : State) (x : HostSlot) : (s.withHostSlot x).pending = s.pending := rfl

@[simp] theorem State.withHouseLock_power (s : State) (x : Bool) : (s.withHouseLock x).power = s.power := rfl
@[simp] theorem State.withHouseLock_panicInput (s : State) (x : Bool) :
    (s.withHouseLock x).panicInput = s.panicInput := rfl
@[simp] theorem State.withHouseLock_installInput (s : State) (x : Bool) :
    (s.withHouseLock x).installInput = s.installInput := rfl
@[simp] theorem State.withHouseLock_sdo (s : State) (x : Bool) : (s.withHouseLock x).sdo = s.sdo := rfl
@[simp] theorem State.withHouseLock_hostSlot (s : State) (x : Bool) : (s.withHouseLock x).hostSlot = s.hostSlot := rfl
@[simp] theorem State.withHouseLock_collision (s : State) (x : Bool) :
    (s.withHouseLock x).collision = s.collision := rfl
@[simp] theorem State.withHouseLock_notices (s : State) (x : Bool) : (s.withHouseLock x).notices = s.notices := rfl
@[simp] theorem State.withHouseLock_image (s : State) (x : Bool) : (s.withHouseLock x).image = s.image := rfl
@[simp] theorem State.withHouseLock_saving (s : State) (x : Bool) : (s.withHouseLock x).saving = s.saving := rfl
@[simp] theorem State.withHouseLock_resetCause (s : State) (x : Bool) :
    (s.withHouseLock x).resetCause = s.resetCause := rfl
@[simp] theorem State.withHouseLock_settings (s : State) (x : Bool) : (s.withHouseLock x).settings = s.settings := rfl
@[simp] theorem State.withHouseLock_mode (s : State) (x : Bool) : (s.withHouseLock x).mode = s.mode := rfl
@[simp] theorem State.withHouseLock_latch (s : State) (x : Bool) : (s.withHouseLock x).latch = s.latch := rfl
@[simp] theorem State.withHouseLock_panicFiltered (s : State) (x : Bool) :
    (s.withHouseLock x).panicFiltered = s.panicFiltered := rfl
@[simp] theorem State.withHouseLock_panicTimer (s : State) (x : Bool) :
    (s.withHouseLock x).panicTimer = s.panicTimer := rfl
@[simp] theorem State.withHouseLock_circuits (s : State) (x : Bool) : (s.withHouseLock x).circuits = s.circuits := rfl
@[simp] theorem State.withHouseLock_zones (s : State) (x : Bool) : (s.withHouseLock x).zones = s.zones := rfl
@[simp] theorem State.withHouseLock_requiredFeed (s : State) (x : Bool) :
    (s.withHouseLock x).requiredFeed = s.requiredFeed := rfl
@[simp] theorem State.withHouseLock_latchCopy (s : State) (x : Bool) :
    (s.withHouseLock x).latchCopy = s.latchCopy := rfl
@[simp] theorem State.withHouseLock_stepTimer (s : State) (x : Bool) :
    (s.withHouseLock x).stepTimer = s.stepTimer := rfl
@[simp] theorem State.withHouseLock_bindings (s : State) (x : Bool) : (s.withHouseLock x).bindings = s.bindings := rfl
@[simp] theorem State.withHouseLock_protectSize (s : State) (x : Bool) :
    (s.withHouseLock x).protectSize = s.protectSize := rfl
@[simp] theorem State.withHouseLock_houseLock (s : State) (x : Bool) : (s.withHouseLock x).houseLock = x := rfl
@[simp] theorem State.withHouseLock_offered (s : State) (x : Bool) : (s.withHouseLock x).offered = s.offered := rfl
@[simp] theorem State.withHouseLock_repeats (s : State) (x : Bool) : (s.withHouseLock x).repeats = s.repeats := rfl
@[simp] theorem State.withHouseLock_scenes (s : State) (x : Bool) : (s.withHouseLock x).scenes = s.scenes := rfl
@[simp] theorem State.withHouseLock_lineA (s : State) (x : Bool) : (s.withHouseLock x).lineA = s.lineA := rfl
@[simp] theorem State.withHouseLock_lineB (s : State) (x : Bool) : (s.withHouseLock x).lineB = s.lineB := rfl
@[simp] theorem State.withHouseLock_groups (s : State) (x : Bool) : (s.withHouseLock x).groups = s.groups := rfl
@[simp] theorem State.withHouseLock_racks (s : State) (x : Bool) : (s.withHouseLock x).racks = s.racks := rfl
@[simp] theorem State.withHouseLock_roundTimer (s : State) (x : Bool) :
    (s.withHouseLock x).roundTimer = s.roundTimer := rfl
@[simp] theorem State.withHouseLock_rackSlot (s : State) (x : Bool) : (s.withHouseLock x).rackSlot = s.rackSlot := rfl
@[simp] theorem State.withHouseLock_freeUses (s : State) (x : Bool) : (s.withHouseLock x).freeUses = s.freeUses := rfl
@[simp] theorem State.withHouseLock_pending (s : State) (x : Bool) : (s.withHouseLock x).pending = s.pending := rfl

@[simp] theorem State.withMode_power (s : State) (x : HouseMode) : (s.withMode x).power = s.power := rfl
@[simp] theorem State.withMode_panicInput (s : State) (x : HouseMode) : (s.withMode x).panicInput = s.panicInput := rfl
@[simp] theorem State.withMode_installInput (s : State) (x : HouseMode) :
    (s.withMode x).installInput = s.installInput := rfl
@[simp] theorem State.withMode_sdo (s : State) (x : HouseMode) : (s.withMode x).sdo = s.sdo := rfl
@[simp] theorem State.withMode_hostSlot (s : State) (x : HouseMode) : (s.withMode x).hostSlot = s.hostSlot := rfl
@[simp] theorem State.withMode_collision (s : State) (x : HouseMode) : (s.withMode x).collision = s.collision := rfl
@[simp] theorem State.withMode_notices (s : State) (x : HouseMode) : (s.withMode x).notices = s.notices := rfl
@[simp] theorem State.withMode_image (s : State) (x : HouseMode) : (s.withMode x).image = s.image := rfl
@[simp] theorem State.withMode_saving (s : State) (x : HouseMode) : (s.withMode x).saving = s.saving := rfl
@[simp] theorem State.withMode_resetCause (s : State) (x : HouseMode) : (s.withMode x).resetCause = s.resetCause := rfl
@[simp] theorem State.withMode_settings (s : State) (x : HouseMode) : (s.withMode x).settings = s.settings := rfl
@[simp] theorem State.withMode_mode (s : State) (x : HouseMode) : (s.withMode x).mode = x := rfl
@[simp] theorem State.withMode_latch (s : State) (x : HouseMode) : (s.withMode x).latch = s.latch := rfl
@[simp] theorem State.withMode_panicFiltered (s : State) (x : HouseMode) :
    (s.withMode x).panicFiltered = s.panicFiltered := rfl
@[simp] theorem State.withMode_panicTimer (s : State) (x : HouseMode) : (s.withMode x).panicTimer = s.panicTimer := rfl
@[simp] theorem State.withMode_circuits (s : State) (x : HouseMode) : (s.withMode x).circuits = s.circuits := rfl
@[simp] theorem State.withMode_zones (s : State) (x : HouseMode) : (s.withMode x).zones = s.zones := rfl
@[simp] theorem State.withMode_requiredFeed (s : State) (x : HouseMode) :
    (s.withMode x).requiredFeed = s.requiredFeed := rfl
@[simp] theorem State.withMode_latchCopy (s : State) (x : HouseMode) : (s.withMode x).latchCopy = s.latchCopy := rfl
@[simp] theorem State.withMode_stepTimer (s : State) (x : HouseMode) : (s.withMode x).stepTimer = s.stepTimer := rfl
@[simp] theorem State.withMode_bindings (s : State) (x : HouseMode) : (s.withMode x).bindings = s.bindings := rfl
@[simp] theorem State.withMode_protectSize (s : State) (x : HouseMode) :
    (s.withMode x).protectSize = s.protectSize := rfl
@[simp] theorem State.withMode_houseLock (s : State) (x : HouseMode) : (s.withMode x).houseLock = s.houseLock := rfl
@[simp] theorem State.withMode_offered (s : State) (x : HouseMode) : (s.withMode x).offered = s.offered := rfl
@[simp] theorem State.withMode_repeats (s : State) (x : HouseMode) : (s.withMode x).repeats = s.repeats := rfl
@[simp] theorem State.withMode_scenes (s : State) (x : HouseMode) : (s.withMode x).scenes = s.scenes := rfl
@[simp] theorem State.withMode_lineA (s : State) (x : HouseMode) : (s.withMode x).lineA = s.lineA := rfl
@[simp] theorem State.withMode_lineB (s : State) (x : HouseMode) : (s.withMode x).lineB = s.lineB := rfl
@[simp] theorem State.withMode_groups (s : State) (x : HouseMode) : (s.withMode x).groups = s.groups := rfl
@[simp] theorem State.withMode_racks (s : State) (x : HouseMode) : (s.withMode x).racks = s.racks := rfl
@[simp] theorem State.withMode_roundTimer (s : State) (x : HouseMode) : (s.withMode x).roundTimer = s.roundTimer := rfl
@[simp] theorem State.withMode_rackSlot (s : State) (x : HouseMode) : (s.withMode x).rackSlot = s.rackSlot := rfl
@[simp] theorem State.withMode_freeUses (s : State) (x : HouseMode) : (s.withMode x).freeUses = s.freeUses := rfl
@[simp] theorem State.withMode_pending (s : State) (x : HouseMode) : (s.withMode x).pending = s.pending := rfl

@[simp] theorem State.withPending_power (s : State) (x : List Instr) : (s.withPending x).power = s.power := rfl
@[simp] theorem State.withPending_panicInput (s : State) (x : List Instr) :
    (s.withPending x).panicInput = s.panicInput := rfl
@[simp] theorem State.withPending_installInput (s : State) (x : List Instr) :
    (s.withPending x).installInput = s.installInput := rfl
@[simp] theorem State.withPending_sdo (s : State) (x : List Instr) : (s.withPending x).sdo = s.sdo := rfl
@[simp] theorem State.withPending_hostSlot (s : State) (x : List Instr) : (s.withPending x).hostSlot = s.hostSlot := rfl
@[simp] theorem State.withPending_collision (s : State) (x : List Instr) :
    (s.withPending x).collision = s.collision := rfl
@[simp] theorem State.withPending_notices (s : State) (x : List Instr) : (s.withPending x).notices = s.notices := rfl
@[simp] theorem State.withPending_image (s : State) (x : List Instr) : (s.withPending x).image = s.image := rfl
@[simp] theorem State.withPending_saving (s : State) (x : List Instr) : (s.withPending x).saving = s.saving := rfl
@[simp] theorem State.withPending_resetCause (s : State) (x : List Instr) :
    (s.withPending x).resetCause = s.resetCause := rfl
@[simp] theorem State.withPending_settings (s : State) (x : List Instr) : (s.withPending x).settings = s.settings := rfl
@[simp] theorem State.withPending_mode (s : State) (x : List Instr) : (s.withPending x).mode = s.mode := rfl
@[simp] theorem State.withPending_latch (s : State) (x : List Instr) : (s.withPending x).latch = s.latch := rfl
@[simp] theorem State.withPending_panicFiltered (s : State) (x : List Instr) :
    (s.withPending x).panicFiltered = s.panicFiltered := rfl
@[simp] theorem State.withPending_panicTimer (s : State) (x : List Instr) :
    (s.withPending x).panicTimer = s.panicTimer := rfl
@[simp] theorem State.withPending_circuits (s : State) (x : List Instr) : (s.withPending x).circuits = s.circuits := rfl
@[simp] theorem State.withPending_zones (s : State) (x : List Instr) : (s.withPending x).zones = s.zones := rfl
@[simp] theorem State.withPending_requiredFeed (s : State) (x : List Instr) :
    (s.withPending x).requiredFeed = s.requiredFeed := rfl
@[simp] theorem State.withPending_latchCopy (s : State) (x : List Instr) :
    (s.withPending x).latchCopy = s.latchCopy := rfl
@[simp] theorem State.withPending_stepTimer (s : State) (x : List Instr) :
    (s.withPending x).stepTimer = s.stepTimer := rfl
@[simp] theorem State.withPending_bindings (s : State) (x : List Instr) : (s.withPending x).bindings = s.bindings := rfl
@[simp] theorem State.withPending_protectSize (s : State) (x : List Instr) :
    (s.withPending x).protectSize = s.protectSize := rfl
@[simp] theorem State.withPending_houseLock (s : State) (x : List Instr) :
    (s.withPending x).houseLock = s.houseLock := rfl
@[simp] theorem State.withPending_offered (s : State) (x : List Instr) : (s.withPending x).offered = s.offered := rfl
@[simp] theorem State.withPending_repeats (s : State) (x : List Instr) : (s.withPending x).repeats = s.repeats := rfl
@[simp] theorem State.withPending_scenes (s : State) (x : List Instr) : (s.withPending x).scenes = s.scenes := rfl
@[simp] theorem State.withPending_lineA (s : State) (x : List Instr) : (s.withPending x).lineA = s.lineA := rfl
@[simp] theorem State.withPending_lineB (s : State) (x : List Instr) : (s.withPending x).lineB = s.lineB := rfl
@[simp] theorem State.withPending_groups (s : State) (x : List Instr) : (s.withPending x).groups = s.groups := rfl
@[simp] theorem State.withPending_racks (s : State) (x : List Instr) : (s.withPending x).racks = s.racks := rfl
@[simp] theorem State.withPending_roundTimer (s : State) (x : List Instr) :
    (s.withPending x).roundTimer = s.roundTimer := rfl
@[simp] theorem State.withPending_rackSlot (s : State) (x : List Instr) : (s.withPending x).rackSlot = s.rackSlot := rfl
@[simp] theorem State.withPending_freeUses (s : State) (x : List Instr) : (s.withPending x).freeUses = s.freeUses := rfl
@[simp] theorem State.withPending_pending (s : State) (x : List Instr) : (s.withPending x).pending = x := rfl

@[simp] theorem State.seeInstall_power (s : State) (b : Bool) : (s.seeInstall b).power = s.power := rfl
@[simp] theorem State.seeInstall_panicInput (s : State) (b : Bool) : (s.seeInstall b).panicInput = s.panicInput := rfl
@[simp] theorem State.seeInstall_installInput (s : State) (b : Bool) : (s.seeInstall b).installInput = b := rfl
@[simp] theorem State.seeInstall_sdo (s : State) (b : Bool) : (s.seeInstall b).sdo = s.sdo := rfl
@[simp] theorem State.seeInstall_hostSlot (s : State) (b : Bool) : (s.seeInstall b).hostSlot = s.hostSlot := rfl
@[simp] theorem State.seeInstall_collision (s : State) (b : Bool) : (s.seeInstall b).collision = s.collision := rfl
@[simp] theorem State.seeInstall_notices (s : State) (b : Bool) : (s.seeInstall b).notices = s.notices := rfl
@[simp] theorem State.seeInstall_image (s : State) (b : Bool) : (s.seeInstall b).image = s.image := rfl
@[simp] theorem State.seeInstall_saving (s : State) (b : Bool) : (s.seeInstall b).saving = s.saving := rfl
@[simp] theorem State.seeInstall_resetCause (s : State) (b : Bool) : (s.seeInstall b).resetCause = s.resetCause := rfl
@[simp] theorem State.seeInstall_settings (s : State) (b : Bool) : (s.seeInstall b).settings = s.settings := rfl
@[simp] theorem State.seeInstall_mode (s : State) (b : Bool) : (s.seeInstall b).mode = s.mode := rfl
@[simp] theorem State.seeInstall_latch (s : State) (b : Bool) : (s.seeInstall b).latch = s.latch := rfl
@[simp] theorem State.seeInstall_panicFiltered (s : State) (b : Bool) :
    (s.seeInstall b).panicFiltered = s.panicFiltered := rfl
@[simp] theorem State.seeInstall_panicTimer (s : State) (b : Bool) : (s.seeInstall b).panicTimer = s.panicTimer := rfl
@[simp] theorem State.seeInstall_circuits (s : State) (b : Bool) : (s.seeInstall b).circuits = s.circuits := rfl
@[simp] theorem State.seeInstall_zones (s : State) (b : Bool) : (s.seeInstall b).zones = s.zones := rfl
@[simp] theorem State.seeInstall_requiredFeed (s : State) (b : Bool) :
    (s.seeInstall b).requiredFeed = s.requiredFeed := rfl
@[simp] theorem State.seeInstall_latchCopy (s : State) (b : Bool) : (s.seeInstall b).latchCopy = s.latchCopy := rfl
@[simp] theorem State.seeInstall_stepTimer (s : State) (b : Bool) : (s.seeInstall b).stepTimer = s.stepTimer := rfl
@[simp] theorem State.seeInstall_bindings (s : State) (b : Bool) : (s.seeInstall b).bindings = s.bindings := rfl
@[simp] theorem State.seeInstall_protectSize (s : State) (b : Bool) :
    (s.seeInstall b).protectSize = s.protectSize := rfl
@[simp] theorem State.seeInstall_houseLock (s : State) (b : Bool) : (s.seeInstall b).houseLock = s.houseLock := rfl
@[simp] theorem State.seeInstall_offered (s : State) (b : Bool) : (s.seeInstall b).offered = s.offered := rfl
@[simp] theorem State.seeInstall_repeats (s : State) (b : Bool) : (s.seeInstall b).repeats = s.repeats := rfl
@[simp] theorem State.seeInstall_scenes (s : State) (b : Bool) : (s.seeInstall b).scenes = s.scenes := rfl
@[simp] theorem State.seeInstall_lineA (s : State) (b : Bool) : (s.seeInstall b).lineA = s.lineA := rfl
@[simp] theorem State.seeInstall_lineB (s : State) (b : Bool) : (s.seeInstall b).lineB = s.lineB := rfl
@[simp] theorem State.seeInstall_groups (s : State) (b : Bool) : (s.seeInstall b).groups = s.groups := rfl
@[simp] theorem State.seeInstall_racks (s : State) (b : Bool) : (s.seeInstall b).racks = s.racks := rfl
@[simp] theorem State.seeInstall_roundTimer (s : State) (b : Bool) : (s.seeInstall b).roundTimer = s.roundTimer := rfl
@[simp] theorem State.seeInstall_rackSlot (s : State) (b : Bool) : (s.seeInstall b).rackSlot = s.rackSlot := rfl
@[simp] theorem State.seeInstall_freeUses (s : State) (b : Bool) : (s.seeInstall b).freeUses = s.freeUses := rfl
@[simp] theorem State.seeInstall_pending (s : State) (b : Bool) : (s.seeInstall b).pending = s.pending := rfl

@[simp] theorem State.shiftZeros_power (s : State) (n : Nat) : (s.shiftZeros n).power = s.power := rfl
@[simp] theorem State.shiftZeros_panicInput (s : State) (n : Nat) : (s.shiftZeros n).panicInput = s.panicInput := rfl
@[simp] theorem State.shiftZeros_installInput (s : State) (n : Nat) :
    (s.shiftZeros n).installInput = s.installInput := rfl
@[simp] theorem State.shiftZeros_sdo (s : State) (n : Nat) : (s.shiftZeros n).sdo = List.replicate n 0 := rfl
@[simp] theorem State.shiftZeros_hostSlot (s : State) (n : Nat) : (s.shiftZeros n).hostSlot = s.hostSlot := rfl
@[simp] theorem State.shiftZeros_collision (s : State) (n : Nat) : (s.shiftZeros n).collision = s.collision := rfl
@[simp] theorem State.shiftZeros_notices (s : State) (n : Nat) : (s.shiftZeros n).notices = s.notices := rfl
@[simp] theorem State.shiftZeros_image (s : State) (n : Nat) : (s.shiftZeros n).image = s.image := rfl
@[simp] theorem State.shiftZeros_saving (s : State) (n : Nat) : (s.shiftZeros n).saving = s.saving := rfl
@[simp] theorem State.shiftZeros_resetCause (s : State) (n : Nat) : (s.shiftZeros n).resetCause = s.resetCause := rfl
@[simp] theorem State.shiftZeros_settings (s : State) (n : Nat) : (s.shiftZeros n).settings = s.settings := rfl
@[simp] theorem State.shiftZeros_mode (s : State) (n : Nat) : (s.shiftZeros n).mode = s.mode := rfl
@[simp] theorem State.shiftZeros_latch (s : State) (n : Nat) : (s.shiftZeros n).latch = s.latch := rfl
@[simp] theorem State.shiftZeros_panicFiltered (s : State) (n : Nat) :
    (s.shiftZeros n).panicFiltered = s.panicFiltered := rfl
@[simp] theorem State.shiftZeros_panicTimer (s : State) (n : Nat) : (s.shiftZeros n).panicTimer = s.panicTimer := rfl
@[simp] theorem State.shiftZeros_circuits (s : State) (n : Nat) : (s.shiftZeros n).circuits = s.circuits := rfl
@[simp] theorem State.shiftZeros_zones (s : State) (n : Nat) : (s.shiftZeros n).zones = s.zones := rfl
@[simp] theorem State.shiftZeros_requiredFeed (s : State) (n : Nat) :
    (s.shiftZeros n).requiredFeed = s.requiredFeed := rfl
@[simp] theorem State.shiftZeros_latchCopy (s : State) (n : Nat) : (s.shiftZeros n).latchCopy = s.latchCopy := rfl
@[simp] theorem State.shiftZeros_stepTimer (s : State) (n : Nat) : (s.shiftZeros n).stepTimer = s.stepTimer := rfl
@[simp] theorem State.shiftZeros_bindings (s : State) (n : Nat) : (s.shiftZeros n).bindings = s.bindings := rfl
@[simp] theorem State.shiftZeros_protectSize (s : State) (n : Nat) : (s.shiftZeros n).protectSize = s.protectSize := rfl
@[simp] theorem State.shiftZeros_houseLock (s : State) (n : Nat) : (s.shiftZeros n).houseLock = s.houseLock := rfl
@[simp] theorem State.shiftZeros_offered (s : State) (n : Nat) : (s.shiftZeros n).offered = s.offered := rfl
@[simp] theorem State.shiftZeros_repeats (s : State) (n : Nat) : (s.shiftZeros n).repeats = s.repeats := rfl
@[simp] theorem State.shiftZeros_scenes (s : State) (n : Nat) : (s.shiftZeros n).scenes = s.scenes := rfl
@[simp] theorem State.shiftZeros_lineA (s : State) (n : Nat) : (s.shiftZeros n).lineA = s.lineA := rfl
@[simp] theorem State.shiftZeros_lineB (s : State) (n : Nat) : (s.shiftZeros n).lineB = s.lineB := rfl
@[simp] theorem State.shiftZeros_groups (s : State) (n : Nat) : (s.shiftZeros n).groups = s.groups := rfl
@[simp] theorem State.shiftZeros_racks (s : State) (n : Nat) : (s.shiftZeros n).racks = s.racks := rfl
@[simp] theorem State.shiftZeros_roundTimer (s : State) (n : Nat) : (s.shiftZeros n).roundTimer = s.roundTimer := rfl
@[simp] theorem State.shiftZeros_rackSlot (s : State) (n : Nat) : (s.shiftZeros n).rackSlot = s.rackSlot := rfl
@[simp] theorem State.shiftZeros_freeUses (s : State) (n : Nat) : (s.shiftZeros n).freeUses = s.freeUses := rfl
@[simp] theorem State.shiftZeros_pending (s : State) (n : Nat) : (s.shiftZeros n).pending = s.pending := rfl

@[simp] theorem State.placeAnswer_power (s : State) (tag : Byte) (r : Reply) :
    (s.placeAnswer tag r).power = s.power := rfl
@[simp] theorem State.placeAnswer_panicInput (s : State) (tag : Byte) (r : Reply) :
    (s.placeAnswer tag r).panicInput = s.panicInput := rfl
@[simp] theorem State.placeAnswer_installInput (s : State) (tag : Byte) (r : Reply) :
    (s.placeAnswer tag r).installInput = s.installInput := rfl
@[simp] theorem State.placeAnswer_sdo (s : State) (tag : Byte) (r : Reply) : (s.placeAnswer tag r).sdo = s.sdo := rfl
@[simp] theorem State.placeAnswer_hostSlot (s : State) (tag : Byte) (r : Reply) :
    (s.placeAnswer tag r).hostSlot = .answerReady ⟨tag, r.result, r.clamped, r.body⟩ := rfl
@[simp] theorem State.placeAnswer_collision (s : State) (tag : Byte) (r : Reply) :
    (s.placeAnswer tag r).collision = s.collision := rfl
@[simp] theorem State.placeAnswer_notices (s : State) (tag : Byte) (r : Reply) :
    (s.placeAnswer tag r).notices = s.notices := rfl
@[simp] theorem State.placeAnswer_image (s : State) (tag : Byte) (r : Reply) :
    (s.placeAnswer tag r).image = s.image := rfl
@[simp] theorem State.placeAnswer_saving (s : State) (tag : Byte) (r : Reply) :
    (s.placeAnswer tag r).saving = s.saving := rfl
@[simp] theorem State.placeAnswer_resetCause (s : State) (tag : Byte) (r : Reply) :
    (s.placeAnswer tag r).resetCause = s.resetCause := rfl
@[simp] theorem State.placeAnswer_settings (s : State) (tag : Byte) (r : Reply) :
    (s.placeAnswer tag r).settings = s.settings := rfl
@[simp] theorem State.placeAnswer_mode (s : State) (tag : Byte) (r : Reply) : (s.placeAnswer tag r).mode = s.mode := rfl
@[simp] theorem State.placeAnswer_latch (s : State) (tag : Byte) (r : Reply) :
    (s.placeAnswer tag r).latch = s.latch := rfl
@[simp] theorem State.placeAnswer_panicFiltered (s : State) (tag : Byte) (r : Reply) :
    (s.placeAnswer tag r).panicFiltered = s.panicFiltered := rfl
@[simp] theorem State.placeAnswer_panicTimer (s : State) (tag : Byte) (r : Reply) :
    (s.placeAnswer tag r).panicTimer = s.panicTimer := rfl
@[simp] theorem State.placeAnswer_circuits (s : State) (tag : Byte) (r : Reply) :
    (s.placeAnswer tag r).circuits = s.circuits := rfl
@[simp] theorem State.placeAnswer_zones (s : State) (tag : Byte) (r : Reply) :
    (s.placeAnswer tag r).zones = s.zones := rfl
@[simp] theorem State.placeAnswer_requiredFeed (s : State) (tag : Byte) (r : Reply) :
    (s.placeAnswer tag r).requiredFeed = s.requiredFeed := rfl
@[simp] theorem State.placeAnswer_latchCopy (s : State) (tag : Byte) (r : Reply) :
    (s.placeAnswer tag r).latchCopy = s.latchCopy := rfl
@[simp] theorem State.placeAnswer_stepTimer (s : State) (tag : Byte) (r : Reply) :
    (s.placeAnswer tag r).stepTimer = s.stepTimer := rfl
@[simp] theorem State.placeAnswer_bindings (s : State) (tag : Byte) (r : Reply) :
    (s.placeAnswer tag r).bindings = s.bindings := rfl
@[simp] theorem State.placeAnswer_protectSize (s : State) (tag : Byte) (r : Reply) :
    (s.placeAnswer tag r).protectSize = s.protectSize := rfl
@[simp] theorem State.placeAnswer_houseLock (s : State) (tag : Byte) (r : Reply) :
    (s.placeAnswer tag r).houseLock = s.houseLock := rfl
@[simp] theorem State.placeAnswer_offered (s : State) (tag : Byte) (r : Reply) :
    (s.placeAnswer tag r).offered = s.offered := rfl
@[simp] theorem State.placeAnswer_repeats (s : State) (tag : Byte) (r : Reply) :
    (s.placeAnswer tag r).repeats = s.repeats := rfl
@[simp] theorem State.placeAnswer_scenes (s : State) (tag : Byte) (r : Reply) :
    (s.placeAnswer tag r).scenes = s.scenes := rfl
@[simp] theorem State.placeAnswer_lineA (s : State) (tag : Byte) (r : Reply) :
    (s.placeAnswer tag r).lineA = s.lineA := rfl
@[simp] theorem State.placeAnswer_lineB (s : State) (tag : Byte) (r : Reply) :
    (s.placeAnswer tag r).lineB = s.lineB := rfl
@[simp] theorem State.placeAnswer_groups (s : State) (tag : Byte) (r : Reply) :
    (s.placeAnswer tag r).groups = s.groups := rfl
@[simp] theorem State.placeAnswer_racks (s : State) (tag : Byte) (r : Reply) :
    (s.placeAnswer tag r).racks = s.racks := rfl
@[simp] theorem State.placeAnswer_roundTimer (s : State) (tag : Byte) (r : Reply) :
    (s.placeAnswer tag r).roundTimer = s.roundTimer := rfl
@[simp] theorem State.placeAnswer_rackSlot (s : State) (tag : Byte) (r : Reply) :
    (s.placeAnswer tag r).rackSlot = s.rackSlot := rfl
@[simp] theorem State.placeAnswer_freeUses (s : State) (tag : Byte) (r : Reply) :
    (s.placeAnswer tag r).freeUses = s.freeUses := rfl
@[simp] theorem State.placeAnswer_pending (s : State) (tag : Byte) (r : Reply) :
    (s.placeAnswer tag r).pending = s.pending := rfl

@[simp] theorem State.raise_power (s : State) (n : Notice) : (s.raise n).power = s.power := rfl
@[simp] theorem State.raise_panicInput (s : State) (n : Notice) : (s.raise n).panicInput = s.panicInput := rfl
@[simp] theorem State.raise_installInput (s : State) (n : Notice) : (s.raise n).installInput = s.installInput := rfl
@[simp] theorem State.raise_sdo (s : State) (n : Notice) : (s.raise n).sdo = s.sdo := rfl
@[simp] theorem State.raise_hostSlot (s : State) (n : Notice) : (s.raise n).hostSlot = s.hostSlot := rfl
@[simp] theorem State.raise_collision (s : State) (n : Notice) : (s.raise n).collision = s.collision := rfl
@[simp] theorem State.raise_notices (s : State) (n : Notice) : (s.raise n).notices = s.notices.with n := rfl
@[simp] theorem State.raise_image (s : State) (n : Notice) : (s.raise n).image = s.image := rfl
@[simp] theorem State.raise_saving (s : State) (n : Notice) : (s.raise n).saving = s.saving := rfl
@[simp] theorem State.raise_resetCause (s : State) (n : Notice) : (s.raise n).resetCause = s.resetCause := rfl
@[simp] theorem State.raise_settings (s : State) (n : Notice) : (s.raise n).settings = s.settings := rfl
@[simp] theorem State.raise_mode (s : State) (n : Notice) : (s.raise n).mode = s.mode := rfl
@[simp] theorem State.raise_latch (s : State) (n : Notice) : (s.raise n).latch = s.latch := rfl
@[simp] theorem State.raise_panicFiltered (s : State) (n : Notice) : (s.raise n).panicFiltered = s.panicFiltered := rfl
@[simp] theorem State.raise_panicTimer (s : State) (n : Notice) : (s.raise n).panicTimer = s.panicTimer := rfl
@[simp] theorem State.raise_circuits (s : State) (n : Notice) : (s.raise n).circuits = s.circuits := rfl
@[simp] theorem State.raise_zones (s : State) (n : Notice) : (s.raise n).zones = s.zones := rfl
@[simp] theorem State.raise_requiredFeed (s : State) (n : Notice) : (s.raise n).requiredFeed = s.requiredFeed := rfl
@[simp] theorem State.raise_latchCopy (s : State) (n : Notice) : (s.raise n).latchCopy = s.latchCopy := rfl
@[simp] theorem State.raise_stepTimer (s : State) (n : Notice) : (s.raise n).stepTimer = s.stepTimer := rfl
@[simp] theorem State.raise_bindings (s : State) (n : Notice) : (s.raise n).bindings = s.bindings := rfl
@[simp] theorem State.raise_protectSize (s : State) (n : Notice) : (s.raise n).protectSize = s.protectSize := rfl
@[simp] theorem State.raise_houseLock (s : State) (n : Notice) : (s.raise n).houseLock = s.houseLock := rfl
@[simp] theorem State.raise_offered (s : State) (n : Notice) : (s.raise n).offered = s.offered := rfl
@[simp] theorem State.raise_repeats (s : State) (n : Notice) : (s.raise n).repeats = s.repeats := rfl
@[simp] theorem State.raise_scenes (s : State) (n : Notice) : (s.raise n).scenes = s.scenes := rfl
@[simp] theorem State.raise_lineA (s : State) (n : Notice) : (s.raise n).lineA = s.lineA := rfl
@[simp] theorem State.raise_lineB (s : State) (n : Notice) : (s.raise n).lineB = s.lineB := rfl
@[simp] theorem State.raise_groups (s : State) (n : Notice) : (s.raise n).groups = s.groups := rfl
@[simp] theorem State.raise_racks (s : State) (n : Notice) : (s.raise n).racks = s.racks := rfl
@[simp] theorem State.raise_roundTimer (s : State) (n : Notice) : (s.raise n).roundTimer = s.roundTimer := rfl
@[simp] theorem State.raise_rackSlot (s : State) (n : Notice) : (s.raise n).rackSlot = s.rackSlot := rfl
@[simp] theorem State.raise_freeUses (s : State) (n : Notice) : (s.raise n).freeUses = s.freeUses := rfl
@[simp] theorem State.raise_pending (s : State) (n : Notice) : (s.raise n).pending = s.pending := rfl

@[simp] theorem State.setUnit_power (s : State) (l : Line) (u : LineUnit) :
    (s.setUnit l u).power = s.power := by cases l <;> rfl
@[simp] theorem State.setUnit_panicInput (s : State) (l : Line) (u : LineUnit) :
    (s.setUnit l u).panicInput = s.panicInput := by cases l <;> rfl
@[simp] theorem State.setUnit_installInput (s : State) (l : Line) (u : LineUnit) :
    (s.setUnit l u).installInput = s.installInput := by cases l <;> rfl
@[simp] theorem State.setUnit_sdo (s : State) (l : Line) (u : LineUnit) :
    (s.setUnit l u).sdo = s.sdo := by cases l <;> rfl
@[simp] theorem State.setUnit_hostSlot (s : State) (l : Line) (u : LineUnit) :
    (s.setUnit l u).hostSlot = s.hostSlot := by cases l <;> rfl
@[simp] theorem State.setUnit_collision (s : State) (l : Line) (u : LineUnit) :
    (s.setUnit l u).collision = s.collision := by cases l <;> rfl
@[simp] theorem State.setUnit_notices (s : State) (l : Line) (u : LineUnit) :
    (s.setUnit l u).notices = s.notices := by cases l <;> rfl
@[simp] theorem State.setUnit_image (s : State) (l : Line) (u : LineUnit) :
    (s.setUnit l u).image = s.image := by cases l <;> rfl
@[simp] theorem State.setUnit_saving (s : State) (l : Line) (u : LineUnit) :
    (s.setUnit l u).saving = s.saving := by cases l <;> rfl
@[simp] theorem State.setUnit_resetCause (s : State) (l : Line) (u : LineUnit) :
    (s.setUnit l u).resetCause = s.resetCause := by cases l <;> rfl
@[simp] theorem State.setUnit_settings (s : State) (l : Line) (u : LineUnit) :
    (s.setUnit l u).settings = s.settings := by cases l <;> rfl
@[simp] theorem State.setUnit_mode (s : State) (l : Line) (u : LineUnit) :
    (s.setUnit l u).mode = s.mode := by cases l <;> rfl
@[simp] theorem State.setUnit_latch (s : State) (l : Line) (u : LineUnit) :
    (s.setUnit l u).latch = s.latch := by cases l <;> rfl
@[simp] theorem State.setUnit_panicFiltered (s : State) (l : Line) (u : LineUnit) :
    (s.setUnit l u).panicFiltered = s.panicFiltered := by cases l <;> rfl
@[simp] theorem State.setUnit_panicTimer (s : State) (l : Line) (u : LineUnit) :
    (s.setUnit l u).panicTimer = s.panicTimer := by cases l <;> rfl
@[simp] theorem State.setUnit_circuits (s : State) (l : Line) (u : LineUnit) :
    (s.setUnit l u).circuits = s.circuits := by cases l <;> rfl
@[simp] theorem State.setUnit_zones (s : State) (l : Line) (u : LineUnit) :
    (s.setUnit l u).zones = s.zones := by cases l <;> rfl
@[simp] theorem State.setUnit_requiredFeed (s : State) (l : Line) (u : LineUnit) :
    (s.setUnit l u).requiredFeed = s.requiredFeed := by cases l <;> rfl
@[simp] theorem State.setUnit_latchCopy (s : State) (l : Line) (u : LineUnit) :
    (s.setUnit l u).latchCopy = s.latchCopy := by cases l <;> rfl
@[simp] theorem State.setUnit_stepTimer (s : State) (l : Line) (u : LineUnit) :
    (s.setUnit l u).stepTimer = s.stepTimer := by cases l <;> rfl
@[simp] theorem State.setUnit_bindings (s : State) (l : Line) (u : LineUnit) :
    (s.setUnit l u).bindings = s.bindings := by cases l <;> rfl
@[simp] theorem State.setUnit_protectSize (s : State) (l : Line) (u : LineUnit) :
    (s.setUnit l u).protectSize = s.protectSize := by cases l <;> rfl
@[simp] theorem State.setUnit_houseLock (s : State) (l : Line) (u : LineUnit) :
    (s.setUnit l u).houseLock = s.houseLock := by cases l <;> rfl
@[simp] theorem State.setUnit_offered (s : State) (l : Line) (u : LineUnit) :
    (s.setUnit l u).offered = s.offered := by cases l <;> rfl
@[simp] theorem State.setUnit_repeats (s : State) (l : Line) (u : LineUnit) :
    (s.setUnit l u).repeats = s.repeats := by cases l <;> rfl
@[simp] theorem State.setUnit_scenes (s : State) (l : Line) (u : LineUnit) :
    (s.setUnit l u).scenes = s.scenes := by cases l <;> rfl
@[simp] theorem State.setUnit_groups (s : State) (l : Line) (u : LineUnit) :
    (s.setUnit l u).groups = s.groups := by cases l <;> rfl
@[simp] theorem State.setUnit_racks (s : State) (l : Line) (u : LineUnit) :
    (s.setUnit l u).racks = s.racks := by cases l <;> rfl
@[simp] theorem State.setUnit_roundTimer (s : State) (l : Line) (u : LineUnit) :
    (s.setUnit l u).roundTimer = s.roundTimer := by cases l <;> rfl
@[simp] theorem State.setUnit_rackSlot (s : State) (l : Line) (u : LineUnit) :
    (s.setUnit l u).rackSlot = s.rackSlot := by cases l <;> rfl
@[simp] theorem State.setUnit_freeUses (s : State) (l : Line) (u : LineUnit) :
    (s.setUnit l u).freeUses = s.freeUses := by cases l <;> rfl
@[simp] theorem State.setUnit_pending (s : State) (l : Line) (u : LineUnit) :
    (s.setUnit l u).pending = s.pending := by cases l <;> rfl

@[simp] theorem State.onUnit_power (s : State) (l : Line) (f : LineUnit → LineUnit) :
    (s.onUnit l f).power = s.power := by cases l <;> rfl
@[simp] theorem State.onUnit_panicInput (s : State) (l : Line) (f : LineUnit → LineUnit) :
    (s.onUnit l f).panicInput = s.panicInput := by cases l <;> rfl
@[simp] theorem State.onUnit_installInput (s : State) (l : Line) (f : LineUnit → LineUnit) :
    (s.onUnit l f).installInput = s.installInput := by cases l <;> rfl
@[simp] theorem State.onUnit_sdo (s : State) (l : Line) (f : LineUnit → LineUnit) :
    (s.onUnit l f).sdo = s.sdo := by cases l <;> rfl
@[simp] theorem State.onUnit_hostSlot (s : State) (l : Line) (f : LineUnit → LineUnit) :
    (s.onUnit l f).hostSlot = s.hostSlot := by cases l <;> rfl
@[simp] theorem State.onUnit_collision (s : State) (l : Line) (f : LineUnit → LineUnit) :
    (s.onUnit l f).collision = s.collision := by cases l <;> rfl
@[simp] theorem State.onUnit_notices (s : State) (l : Line) (f : LineUnit → LineUnit) :
    (s.onUnit l f).notices = s.notices := by cases l <;> rfl
@[simp] theorem State.onUnit_image (s : State) (l : Line) (f : LineUnit → LineUnit) :
    (s.onUnit l f).image = s.image := by cases l <;> rfl
@[simp] theorem State.onUnit_saving (s : State) (l : Line) (f : LineUnit → LineUnit) :
    (s.onUnit l f).saving = s.saving := by cases l <;> rfl
@[simp] theorem State.onUnit_resetCause (s : State) (l : Line) (f : LineUnit → LineUnit) :
    (s.onUnit l f).resetCause = s.resetCause := by cases l <;> rfl
@[simp] theorem State.onUnit_settings (s : State) (l : Line) (f : LineUnit → LineUnit) :
    (s.onUnit l f).settings = s.settings := by cases l <;> rfl
@[simp] theorem State.onUnit_mode (s : State) (l : Line) (f : LineUnit → LineUnit) :
    (s.onUnit l f).mode = s.mode := by cases l <;> rfl
@[simp] theorem State.onUnit_latch (s : State) (l : Line) (f : LineUnit → LineUnit) :
    (s.onUnit l f).latch = s.latch := by cases l <;> rfl
@[simp] theorem State.onUnit_panicFiltered (s : State) (l : Line) (f : LineUnit → LineUnit) :
    (s.onUnit l f).panicFiltered = s.panicFiltered := by cases l <;> rfl
@[simp] theorem State.onUnit_panicTimer (s : State) (l : Line) (f : LineUnit → LineUnit) :
    (s.onUnit l f).panicTimer = s.panicTimer := by cases l <;> rfl
@[simp] theorem State.onUnit_circuits (s : State) (l : Line) (f : LineUnit → LineUnit) :
    (s.onUnit l f).circuits = s.circuits := by cases l <;> rfl
@[simp] theorem State.onUnit_zones (s : State) (l : Line) (f : LineUnit → LineUnit) :
    (s.onUnit l f).zones = s.zones := by cases l <;> rfl
@[simp] theorem State.onUnit_requiredFeed (s : State) (l : Line) (f : LineUnit → LineUnit) :
    (s.onUnit l f).requiredFeed = s.requiredFeed := by cases l <;> rfl
@[simp] theorem State.onUnit_latchCopy (s : State) (l : Line) (f : LineUnit → LineUnit) :
    (s.onUnit l f).latchCopy = s.latchCopy := by cases l <;> rfl
@[simp] theorem State.onUnit_stepTimer (s : State) (l : Line) (f : LineUnit → LineUnit) :
    (s.onUnit l f).stepTimer = s.stepTimer := by cases l <;> rfl
@[simp] theorem State.onUnit_bindings (s : State) (l : Line) (f : LineUnit → LineUnit) :
    (s.onUnit l f).bindings = s.bindings := by cases l <;> rfl
@[simp] theorem State.onUnit_protectSize (s : State) (l : Line) (f : LineUnit → LineUnit) :
    (s.onUnit l f).protectSize = s.protectSize := by cases l <;> rfl
@[simp] theorem State.onUnit_houseLock (s : State) (l : Line) (f : LineUnit → LineUnit) :
    (s.onUnit l f).houseLock = s.houseLock := by cases l <;> rfl
@[simp] theorem State.onUnit_offered (s : State) (l : Line) (f : LineUnit → LineUnit) :
    (s.onUnit l f).offered = s.offered := by cases l <;> rfl
@[simp] theorem State.onUnit_repeats (s : State) (l : Line) (f : LineUnit → LineUnit) :
    (s.onUnit l f).repeats = s.repeats := by cases l <;> rfl
@[simp] theorem State.onUnit_scenes (s : State) (l : Line) (f : LineUnit → LineUnit) :
    (s.onUnit l f).scenes = s.scenes := by cases l <;> rfl
@[simp] theorem State.onUnit_groups (s : State) (l : Line) (f : LineUnit → LineUnit) :
    (s.onUnit l f).groups = s.groups := by cases l <;> rfl
@[simp] theorem State.onUnit_racks (s : State) (l : Line) (f : LineUnit → LineUnit) :
    (s.onUnit l f).racks = s.racks := by cases l <;> rfl
@[simp] theorem State.onUnit_roundTimer (s : State) (l : Line) (f : LineUnit → LineUnit) :
    (s.onUnit l f).roundTimer = s.roundTimer := by cases l <;> rfl
@[simp] theorem State.onUnit_rackSlot (s : State) (l : Line) (f : LineUnit → LineUnit) :
    (s.onUnit l f).rackSlot = s.rackSlot := by cases l <;> rfl
@[simp] theorem State.onUnit_freeUses (s : State) (l : Line) (f : LineUnit → LineUnit) :
    (s.onUnit l f).freeUses = s.freeUses := by cases l <;> rfl
@[simp] theorem State.onUnit_pending (s : State) (l : Line) (f : LineUnit → LineUnit) :
    (s.onUnit l f).pending = s.pending := by cases l <;> rfl

@[simp] theorem State.onStation_power (s : State) (l : Line) (a : Nat) (f : Station → Station) :
    (s.onStation l a f).power = s.power := by cases l <;> rfl
@[simp] theorem State.onStation_panicInput (s : State) (l : Line) (a : Nat) (f : Station → Station) :
    (s.onStation l a f).panicInput = s.panicInput := by cases l <;> rfl
@[simp] theorem State.onStation_installInput (s : State) (l : Line) (a : Nat) (f : Station → Station) :
    (s.onStation l a f).installInput = s.installInput := by cases l <;> rfl
@[simp] theorem State.onStation_sdo (s : State) (l : Line) (a : Nat) (f : Station → Station) :
    (s.onStation l a f).sdo = s.sdo := by cases l <;> rfl
@[simp] theorem State.onStation_hostSlot (s : State) (l : Line) (a : Nat) (f : Station → Station) :
    (s.onStation l a f).hostSlot = s.hostSlot := by cases l <;> rfl
@[simp] theorem State.onStation_collision (s : State) (l : Line) (a : Nat) (f : Station → Station) :
    (s.onStation l a f).collision = s.collision := by cases l <;> rfl
@[simp] theorem State.onStation_notices (s : State) (l : Line) (a : Nat) (f : Station → Station) :
    (s.onStation l a f).notices = s.notices := by cases l <;> rfl
@[simp] theorem State.onStation_image (s : State) (l : Line) (a : Nat) (f : Station → Station) :
    (s.onStation l a f).image = s.image := by cases l <;> rfl
@[simp] theorem State.onStation_saving (s : State) (l : Line) (a : Nat) (f : Station → Station) :
    (s.onStation l a f).saving = s.saving := by cases l <;> rfl
@[simp] theorem State.onStation_resetCause (s : State) (l : Line) (a : Nat) (f : Station → Station) :
    (s.onStation l a f).resetCause = s.resetCause := by cases l <;> rfl
@[simp] theorem State.onStation_settings (s : State) (l : Line) (a : Nat) (f : Station → Station) :
    (s.onStation l a f).settings = s.settings := by cases l <;> rfl
@[simp] theorem State.onStation_mode (s : State) (l : Line) (a : Nat) (f : Station → Station) :
    (s.onStation l a f).mode = s.mode := by cases l <;> rfl
@[simp] theorem State.onStation_latch (s : State) (l : Line) (a : Nat) (f : Station → Station) :
    (s.onStation l a f).latch = s.latch := by cases l <;> rfl
@[simp] theorem State.onStation_panicFiltered (s : State) (l : Line) (a : Nat) (f : Station → Station) :
    (s.onStation l a f).panicFiltered = s.panicFiltered := by cases l <;> rfl
@[simp] theorem State.onStation_panicTimer (s : State) (l : Line) (a : Nat) (f : Station → Station) :
    (s.onStation l a f).panicTimer = s.panicTimer := by cases l <;> rfl
@[simp] theorem State.onStation_circuits (s : State) (l : Line) (a : Nat) (f : Station → Station) :
    (s.onStation l a f).circuits = s.circuits := by cases l <;> rfl
@[simp] theorem State.onStation_zones (s : State) (l : Line) (a : Nat) (f : Station → Station) :
    (s.onStation l a f).zones = s.zones := by cases l <;> rfl
@[simp] theorem State.onStation_requiredFeed (s : State) (l : Line) (a : Nat) (f : Station → Station) :
    (s.onStation l a f).requiredFeed = s.requiredFeed := by cases l <;> rfl
@[simp] theorem State.onStation_latchCopy (s : State) (l : Line) (a : Nat) (f : Station → Station) :
    (s.onStation l a f).latchCopy = s.latchCopy := by cases l <;> rfl
@[simp] theorem State.onStation_stepTimer (s : State) (l : Line) (a : Nat) (f : Station → Station) :
    (s.onStation l a f).stepTimer = s.stepTimer := by cases l <;> rfl
@[simp] theorem State.onStation_bindings (s : State) (l : Line) (a : Nat) (f : Station → Station) :
    (s.onStation l a f).bindings = s.bindings := by cases l <;> rfl
@[simp] theorem State.onStation_protectSize (s : State) (l : Line) (a : Nat) (f : Station → Station) :
    (s.onStation l a f).protectSize = s.protectSize := by cases l <;> rfl
@[simp] theorem State.onStation_houseLock (s : State) (l : Line) (a : Nat) (f : Station → Station) :
    (s.onStation l a f).houseLock = s.houseLock := by cases l <;> rfl
@[simp] theorem State.onStation_offered (s : State) (l : Line) (a : Nat) (f : Station → Station) :
    (s.onStation l a f).offered = s.offered := by cases l <;> rfl
@[simp] theorem State.onStation_repeats (s : State) (l : Line) (a : Nat) (f : Station → Station) :
    (s.onStation l a f).repeats = s.repeats := by cases l <;> rfl
@[simp] theorem State.onStation_scenes (s : State) (l : Line) (a : Nat) (f : Station → Station) :
    (s.onStation l a f).scenes = s.scenes := by cases l <;> rfl
@[simp] theorem State.onStation_groups (s : State) (l : Line) (a : Nat) (f : Station → Station) :
    (s.onStation l a f).groups = s.groups := by cases l <;> rfl
@[simp] theorem State.onStation_racks (s : State) (l : Line) (a : Nat) (f : Station → Station) :
    (s.onStation l a f).racks = s.racks := by cases l <;> rfl
@[simp] theorem State.onStation_roundTimer (s : State) (l : Line) (a : Nat) (f : Station → Station) :
    (s.onStation l a f).roundTimer = s.roundTimer := by cases l <;> rfl
@[simp] theorem State.onStation_rackSlot (s : State) (l : Line) (a : Nat) (f : Station → Station) :
    (s.onStation l a f).rackSlot = s.rackSlot := by cases l <;> rfl
@[simp] theorem State.onStation_freeUses (s : State) (l : Line) (a : Nat) (f : Station → Station) :
    (s.onStation l a f).freeUses = s.freeUses := by cases l <;> rfl
@[simp] theorem State.onStation_pending (s : State) (l : Line) (a : Nat) (f : Station → Station) :
    (s.onStation l a f).pending = s.pending := by cases l <;> rfl

@[simp] theorem State.onKey_power (s : State) (k : StationInput) (f : KeyRecord → KeyRecord) :
    (s.onKey k f).power = s.power := by simp [State.onKey]
@[simp] theorem State.onKey_panicInput (s : State) (k : StationInput) (f : KeyRecord → KeyRecord) :
    (s.onKey k f).panicInput = s.panicInput := by simp [State.onKey]
@[simp] theorem State.onKey_installInput (s : State) (k : StationInput) (f : KeyRecord → KeyRecord) :
    (s.onKey k f).installInput = s.installInput := by simp [State.onKey]
@[simp] theorem State.onKey_sdo (s : State) (k : StationInput) (f : KeyRecord → KeyRecord) :
    (s.onKey k f).sdo = s.sdo := by simp [State.onKey]
@[simp] theorem State.onKey_hostSlot (s : State) (k : StationInput) (f : KeyRecord → KeyRecord) :
    (s.onKey k f).hostSlot = s.hostSlot := by simp [State.onKey]
@[simp] theorem State.onKey_collision (s : State) (k : StationInput) (f : KeyRecord → KeyRecord) :
    (s.onKey k f).collision = s.collision := by simp [State.onKey]
@[simp] theorem State.onKey_notices (s : State) (k : StationInput) (f : KeyRecord → KeyRecord) :
    (s.onKey k f).notices = s.notices := by simp [State.onKey]
@[simp] theorem State.onKey_image (s : State) (k : StationInput) (f : KeyRecord → KeyRecord) :
    (s.onKey k f).image = s.image := by simp [State.onKey]
@[simp] theorem State.onKey_saving (s : State) (k : StationInput) (f : KeyRecord → KeyRecord) :
    (s.onKey k f).saving = s.saving := by simp [State.onKey]
@[simp] theorem State.onKey_resetCause (s : State) (k : StationInput) (f : KeyRecord → KeyRecord) :
    (s.onKey k f).resetCause = s.resetCause := by simp [State.onKey]
@[simp] theorem State.onKey_settings (s : State) (k : StationInput) (f : KeyRecord → KeyRecord) :
    (s.onKey k f).settings = s.settings := by simp [State.onKey]
@[simp] theorem State.onKey_mode (s : State) (k : StationInput) (f : KeyRecord → KeyRecord) :
    (s.onKey k f).mode = s.mode := by simp [State.onKey]
@[simp] theorem State.onKey_latch (s : State) (k : StationInput) (f : KeyRecord → KeyRecord) :
    (s.onKey k f).latch = s.latch := by simp [State.onKey]
@[simp] theorem State.onKey_panicFiltered (s : State) (k : StationInput) (f : KeyRecord → KeyRecord) :
    (s.onKey k f).panicFiltered = s.panicFiltered := by simp [State.onKey]
@[simp] theorem State.onKey_panicTimer (s : State) (k : StationInput) (f : KeyRecord → KeyRecord) :
    (s.onKey k f).panicTimer = s.panicTimer := by simp [State.onKey]
@[simp] theorem State.onKey_circuits (s : State) (k : StationInput) (f : KeyRecord → KeyRecord) :
    (s.onKey k f).circuits = s.circuits := by simp [State.onKey]
@[simp] theorem State.onKey_zones (s : State) (k : StationInput) (f : KeyRecord → KeyRecord) :
    (s.onKey k f).zones = s.zones := by simp [State.onKey]
@[simp] theorem State.onKey_requiredFeed (s : State) (k : StationInput) (f : KeyRecord → KeyRecord) :
    (s.onKey k f).requiredFeed = s.requiredFeed := by simp [State.onKey]
@[simp] theorem State.onKey_latchCopy (s : State) (k : StationInput) (f : KeyRecord → KeyRecord) :
    (s.onKey k f).latchCopy = s.latchCopy := by simp [State.onKey]
@[simp] theorem State.onKey_stepTimer (s : State) (k : StationInput) (f : KeyRecord → KeyRecord) :
    (s.onKey k f).stepTimer = s.stepTimer := by simp [State.onKey]
@[simp] theorem State.onKey_bindings (s : State) (k : StationInput) (f : KeyRecord → KeyRecord) :
    (s.onKey k f).bindings = s.bindings := by simp [State.onKey]
@[simp] theorem State.onKey_protectSize (s : State) (k : StationInput) (f : KeyRecord → KeyRecord) :
    (s.onKey k f).protectSize = s.protectSize := by simp [State.onKey]
@[simp] theorem State.onKey_houseLock (s : State) (k : StationInput) (f : KeyRecord → KeyRecord) :
    (s.onKey k f).houseLock = s.houseLock := by simp [State.onKey]
@[simp] theorem State.onKey_offered (s : State) (k : StationInput) (f : KeyRecord → KeyRecord) :
    (s.onKey k f).offered = s.offered := by simp [State.onKey]
@[simp] theorem State.onKey_repeats (s : State) (k : StationInput) (f : KeyRecord → KeyRecord) :
    (s.onKey k f).repeats = s.repeats := by simp [State.onKey]
@[simp] theorem State.onKey_scenes (s : State) (k : StationInput) (f : KeyRecord → KeyRecord) :
    (s.onKey k f).scenes = s.scenes := by simp [State.onKey]
@[simp] theorem State.onKey_groups (s : State) (k : StationInput) (f : KeyRecord → KeyRecord) :
    (s.onKey k f).groups = s.groups := by simp [State.onKey]
@[simp] theorem State.onKey_racks (s : State) (k : StationInput) (f : KeyRecord → KeyRecord) :
    (s.onKey k f).racks = s.racks := by simp [State.onKey]
@[simp] theorem State.onKey_roundTimer (s : State) (k : StationInput) (f : KeyRecord → KeyRecord) :
    (s.onKey k f).roundTimer = s.roundTimer := by simp [State.onKey]
@[simp] theorem State.onKey_rackSlot (s : State) (k : StationInput) (f : KeyRecord → KeyRecord) :
    (s.onKey k f).rackSlot = s.rackSlot := by simp [State.onKey]
@[simp] theorem State.onKey_freeUses (s : State) (k : StationInput) (f : KeyRecord → KeyRecord) :
    (s.onKey k f).freeUses = s.freeUses := by simp [State.onKey]
@[simp] theorem State.onKey_pending (s : State) (k : StationInput) (f : KeyRecord → KeyRecord) :
    (s.onKey k f).pending = s.pending := by simp [State.onKey]

@[simp] theorem State.onCircuit_power (s : State) (c : Nat) (f : Circuit → Circuit) :
    (s.onCircuit c f).power = s.power := rfl
@[simp] theorem State.onCircuit_panicInput (s : State) (c : Nat) (f : Circuit → Circuit) :
    (s.onCircuit c f).panicInput = s.panicInput := rfl
@[simp] theorem State.onCircuit_installInput (s : State) (c : Nat) (f : Circuit → Circuit) :
    (s.onCircuit c f).installInput = s.installInput := rfl
@[simp] theorem State.onCircuit_sdo (s : State) (c : Nat) (f : Circuit → Circuit) : (s.onCircuit c f).sdo = s.sdo := rfl
@[simp] theorem State.onCircuit_hostSlot (s : State) (c : Nat) (f : Circuit → Circuit) :
    (s.onCircuit c f).hostSlot = s.hostSlot := rfl
@[simp] theorem State.onCircuit_collision (s : State) (c : Nat) (f : Circuit → Circuit) :
    (s.onCircuit c f).collision = s.collision := rfl
@[simp] theorem State.onCircuit_notices (s : State) (c : Nat) (f : Circuit → Circuit) :
    (s.onCircuit c f).notices = s.notices := rfl
@[simp] theorem State.onCircuit_image (s : State) (c : Nat) (f : Circuit → Circuit) :
    (s.onCircuit c f).image = s.image := rfl
@[simp] theorem State.onCircuit_saving (s : State) (c : Nat) (f : Circuit → Circuit) :
    (s.onCircuit c f).saving = s.saving := rfl
@[simp] theorem State.onCircuit_resetCause (s : State) (c : Nat) (f : Circuit → Circuit) :
    (s.onCircuit c f).resetCause = s.resetCause := rfl
@[simp] theorem State.onCircuit_settings (s : State) (c : Nat) (f : Circuit → Circuit) :
    (s.onCircuit c f).settings = s.settings := rfl
@[simp] theorem State.onCircuit_mode (s : State) (c : Nat) (f : Circuit → Circuit) :
    (s.onCircuit c f).mode = s.mode := rfl
@[simp] theorem State.onCircuit_latch (s : State) (c : Nat) (f : Circuit → Circuit) :
    (s.onCircuit c f).latch = s.latch := rfl
@[simp] theorem State.onCircuit_panicFiltered (s : State) (c : Nat) (f : Circuit → Circuit) :
    (s.onCircuit c f).panicFiltered = s.panicFiltered := rfl
@[simp] theorem State.onCircuit_panicTimer (s : State) (c : Nat) (f : Circuit → Circuit) :
    (s.onCircuit c f).panicTimer = s.panicTimer := rfl
@[simp] theorem State.onCircuit_circuits (s : State) (c : Nat) (f : Circuit → Circuit) :
    (s.onCircuit c f).circuits = Table.adjust s.circuits c f := rfl
@[simp] theorem State.onCircuit_zones (s : State) (c : Nat) (f : Circuit → Circuit) :
    (s.onCircuit c f).zones = s.zones := rfl
@[simp] theorem State.onCircuit_requiredFeed (s : State) (c : Nat) (f : Circuit → Circuit) :
    (s.onCircuit c f).requiredFeed = s.requiredFeed := rfl
@[simp] theorem State.onCircuit_latchCopy (s : State) (c : Nat) (f : Circuit → Circuit) :
    (s.onCircuit c f).latchCopy = s.latchCopy := rfl
@[simp] theorem State.onCircuit_stepTimer (s : State) (c : Nat) (f : Circuit → Circuit) :
    (s.onCircuit c f).stepTimer = s.stepTimer := rfl
@[simp] theorem State.onCircuit_bindings (s : State) (c : Nat) (f : Circuit → Circuit) :
    (s.onCircuit c f).bindings = s.bindings := rfl
@[simp] theorem State.onCircuit_protectSize (s : State) (c : Nat) (f : Circuit → Circuit) :
    (s.onCircuit c f).protectSize = s.protectSize := rfl
@[simp] theorem State.onCircuit_houseLock (s : State) (c : Nat) (f : Circuit → Circuit) :
    (s.onCircuit c f).houseLock = s.houseLock := rfl
@[simp] theorem State.onCircuit_offered (s : State) (c : Nat) (f : Circuit → Circuit) :
    (s.onCircuit c f).offered = s.offered := rfl
@[simp] theorem State.onCircuit_repeats (s : State) (c : Nat) (f : Circuit → Circuit) :
    (s.onCircuit c f).repeats = s.repeats := rfl
@[simp] theorem State.onCircuit_scenes (s : State) (c : Nat) (f : Circuit → Circuit) :
    (s.onCircuit c f).scenes = s.scenes := rfl
@[simp] theorem State.onCircuit_lineA (s : State) (c : Nat) (f : Circuit → Circuit) :
    (s.onCircuit c f).lineA = s.lineA := rfl
@[simp] theorem State.onCircuit_lineB (s : State) (c : Nat) (f : Circuit → Circuit) :
    (s.onCircuit c f).lineB = s.lineB := rfl
@[simp] theorem State.onCircuit_groups (s : State) (c : Nat) (f : Circuit → Circuit) :
    (s.onCircuit c f).groups = s.groups := rfl
@[simp] theorem State.onCircuit_racks (s : State) (c : Nat) (f : Circuit → Circuit) :
    (s.onCircuit c f).racks = s.racks := rfl
@[simp] theorem State.onCircuit_roundTimer (s : State) (c : Nat) (f : Circuit → Circuit) :
    (s.onCircuit c f).roundTimer = s.roundTimer := rfl
@[simp] theorem State.onCircuit_rackSlot (s : State) (c : Nat) (f : Circuit → Circuit) :
    (s.onCircuit c f).rackSlot = s.rackSlot := rfl
@[simp] theorem State.onCircuit_freeUses (s : State) (c : Nat) (f : Circuit → Circuit) :
    (s.onCircuit c f).freeUses = s.freeUses := rfl
@[simp] theorem State.onCircuit_pending (s : State) (c : Nat) (f : Circuit → Circuit) :
    (s.onCircuit c f).pending = s.pending := rfl

@[simp] theorem State.onBinding_power (s : State) (b : Nat) (f : Binding → Binding) :
    (s.onBinding b f).power = s.power := rfl
@[simp] theorem State.onBinding_panicInput (s : State) (b : Nat) (f : Binding → Binding) :
    (s.onBinding b f).panicInput = s.panicInput := rfl
@[simp] theorem State.onBinding_installInput (s : State) (b : Nat) (f : Binding → Binding) :
    (s.onBinding b f).installInput = s.installInput := rfl
@[simp] theorem State.onBinding_sdo (s : State) (b : Nat) (f : Binding → Binding) : (s.onBinding b f).sdo = s.sdo := rfl
@[simp] theorem State.onBinding_hostSlot (s : State) (b : Nat) (f : Binding → Binding) :
    (s.onBinding b f).hostSlot = s.hostSlot := rfl
@[simp] theorem State.onBinding_collision (s : State) (b : Nat) (f : Binding → Binding) :
    (s.onBinding b f).collision = s.collision := rfl
@[simp] theorem State.onBinding_notices (s : State) (b : Nat) (f : Binding → Binding) :
    (s.onBinding b f).notices = s.notices := rfl
@[simp] theorem State.onBinding_image (s : State) (b : Nat) (f : Binding → Binding) :
    (s.onBinding b f).image = s.image := rfl
@[simp] theorem State.onBinding_saving (s : State) (b : Nat) (f : Binding → Binding) :
    (s.onBinding b f).saving = s.saving := rfl
@[simp] theorem State.onBinding_resetCause (s : State) (b : Nat) (f : Binding → Binding) :
    (s.onBinding b f).resetCause = s.resetCause := rfl
@[simp] theorem State.onBinding_settings (s : State) (b : Nat) (f : Binding → Binding) :
    (s.onBinding b f).settings = s.settings := rfl
@[simp] theorem State.onBinding_mode (s : State) (b : Nat) (f : Binding → Binding) :
    (s.onBinding b f).mode = s.mode := rfl
@[simp] theorem State.onBinding_latch (s : State) (b : Nat) (f : Binding → Binding) :
    (s.onBinding b f).latch = s.latch := rfl
@[simp] theorem State.onBinding_panicFiltered (s : State) (b : Nat) (f : Binding → Binding) :
    (s.onBinding b f).panicFiltered = s.panicFiltered := rfl
@[simp] theorem State.onBinding_panicTimer (s : State) (b : Nat) (f : Binding → Binding) :
    (s.onBinding b f).panicTimer = s.panicTimer := rfl
@[simp] theorem State.onBinding_circuits (s : State) (b : Nat) (f : Binding → Binding) :
    (s.onBinding b f).circuits = s.circuits := rfl
@[simp] theorem State.onBinding_zones (s : State) (b : Nat) (f : Binding → Binding) :
    (s.onBinding b f).zones = s.zones := rfl
@[simp] theorem State.onBinding_requiredFeed (s : State) (b : Nat) (f : Binding → Binding) :
    (s.onBinding b f).requiredFeed = s.requiredFeed := rfl
@[simp] theorem State.onBinding_latchCopy (s : State) (b : Nat) (f : Binding → Binding) :
    (s.onBinding b f).latchCopy = s.latchCopy := rfl
@[simp] theorem State.onBinding_stepTimer (s : State) (b : Nat) (f : Binding → Binding) :
    (s.onBinding b f).stepTimer = s.stepTimer := rfl
@[simp] theorem State.onBinding_bindings (s : State) (b : Nat) (f : Binding → Binding) :
    (s.onBinding b f).bindings = Table.adjust s.bindings b f := rfl
@[simp] theorem State.onBinding_protectSize (s : State) (b : Nat) (f : Binding → Binding) :
    (s.onBinding b f).protectSize = s.protectSize := rfl
@[simp] theorem State.onBinding_houseLock (s : State) (b : Nat) (f : Binding → Binding) :
    (s.onBinding b f).houseLock = s.houseLock := rfl
@[simp] theorem State.onBinding_offered (s : State) (b : Nat) (f : Binding → Binding) :
    (s.onBinding b f).offered = s.offered := rfl
@[simp] theorem State.onBinding_repeats (s : State) (b : Nat) (f : Binding → Binding) :
    (s.onBinding b f).repeats = s.repeats := rfl
@[simp] theorem State.onBinding_scenes (s : State) (b : Nat) (f : Binding → Binding) :
    (s.onBinding b f).scenes = s.scenes := rfl
@[simp] theorem State.onBinding_lineA (s : State) (b : Nat) (f : Binding → Binding) :
    (s.onBinding b f).lineA = s.lineA := rfl
@[simp] theorem State.onBinding_lineB (s : State) (b : Nat) (f : Binding → Binding) :
    (s.onBinding b f).lineB = s.lineB := rfl
@[simp] theorem State.onBinding_groups (s : State) (b : Nat) (f : Binding → Binding) :
    (s.onBinding b f).groups = s.groups := rfl
@[simp] theorem State.onBinding_racks (s : State) (b : Nat) (f : Binding → Binding) :
    (s.onBinding b f).racks = s.racks := rfl
@[simp] theorem State.onBinding_roundTimer (s : State) (b : Nat) (f : Binding → Binding) :
    (s.onBinding b f).roundTimer = s.roundTimer := rfl
@[simp] theorem State.onBinding_rackSlot (s : State) (b : Nat) (f : Binding → Binding) :
    (s.onBinding b f).rackSlot = s.rackSlot := rfl
@[simp] theorem State.onBinding_freeUses (s : State) (b : Nat) (f : Binding → Binding) :
    (s.onBinding b f).freeUses = s.freeUses := rfl
@[simp] theorem State.onBinding_pending (s : State) (b : Nat) (f : Binding → Binding) :
    (s.onBinding b f).pending = s.pending := rfl

@[simp] theorem State.onScene_power (s : State) (n : Nat) (f : Scene → Scene) : (s.onScene n f).power = s.power := rfl
@[simp] theorem State.onScene_panicInput (s : State) (n : Nat) (f : Scene → Scene) :
    (s.onScene n f).panicInput = s.panicInput := rfl
@[simp] theorem State.onScene_installInput (s : State) (n : Nat) (f : Scene → Scene) :
    (s.onScene n f).installInput = s.installInput := rfl
@[simp] theorem State.onScene_sdo (s : State) (n : Nat) (f : Scene → Scene) : (s.onScene n f).sdo = s.sdo := rfl
@[simp] theorem State.onScene_hostSlot (s : State) (n : Nat) (f : Scene → Scene) :
    (s.onScene n f).hostSlot = s.hostSlot := rfl
@[simp] theorem State.onScene_collision (s : State) (n : Nat) (f : Scene → Scene) :
    (s.onScene n f).collision = s.collision := rfl
@[simp] theorem State.onScene_notices (s : State) (n : Nat) (f : Scene → Scene) :
    (s.onScene n f).notices = s.notices := rfl
@[simp] theorem State.onScene_image (s : State) (n : Nat) (f : Scene → Scene) : (s.onScene n f).image = s.image := rfl
@[simp] theorem State.onScene_saving (s : State) (n : Nat) (f : Scene → Scene) :
    (s.onScene n f).saving = s.saving := rfl
@[simp] theorem State.onScene_resetCause (s : State) (n : Nat) (f : Scene → Scene) :
    (s.onScene n f).resetCause = s.resetCause := rfl
@[simp] theorem State.onScene_settings (s : State) (n : Nat) (f : Scene → Scene) :
    (s.onScene n f).settings = s.settings := rfl
@[simp] theorem State.onScene_mode (s : State) (n : Nat) (f : Scene → Scene) : (s.onScene n f).mode = s.mode := rfl
@[simp] theorem State.onScene_latch (s : State) (n : Nat) (f : Scene → Scene) : (s.onScene n f).latch = s.latch := rfl
@[simp] theorem State.onScene_panicFiltered (s : State) (n : Nat) (f : Scene → Scene) :
    (s.onScene n f).panicFiltered = s.panicFiltered := rfl
@[simp] theorem State.onScene_panicTimer (s : State) (n : Nat) (f : Scene → Scene) :
    (s.onScene n f).panicTimer = s.panicTimer := rfl
@[simp] theorem State.onScene_circuits (s : State) (n : Nat) (f : Scene → Scene) :
    (s.onScene n f).circuits = s.circuits := rfl
@[simp] theorem State.onScene_zones (s : State) (n : Nat) (f : Scene → Scene) : (s.onScene n f).zones = s.zones := rfl
@[simp] theorem State.onScene_requiredFeed (s : State) (n : Nat) (f : Scene → Scene) :
    (s.onScene n f).requiredFeed = s.requiredFeed := rfl
@[simp] theorem State.onScene_latchCopy (s : State) (n : Nat) (f : Scene → Scene) :
    (s.onScene n f).latchCopy = s.latchCopy := rfl
@[simp] theorem State.onScene_stepTimer (s : State) (n : Nat) (f : Scene → Scene) :
    (s.onScene n f).stepTimer = s.stepTimer := rfl
@[simp] theorem State.onScene_bindings (s : State) (n : Nat) (f : Scene → Scene) :
    (s.onScene n f).bindings = s.bindings := rfl
@[simp] theorem State.onScene_protectSize (s : State) (n : Nat) (f : Scene → Scene) :
    (s.onScene n f).protectSize = s.protectSize := rfl
@[simp] theorem State.onScene_houseLock (s : State) (n : Nat) (f : Scene → Scene) :
    (s.onScene n f).houseLock = s.houseLock := rfl
@[simp] theorem State.onScene_offered (s : State) (n : Nat) (f : Scene → Scene) :
    (s.onScene n f).offered = s.offered := rfl
@[simp] theorem State.onScene_repeats (s : State) (n : Nat) (f : Scene → Scene) :
    (s.onScene n f).repeats = s.repeats := rfl
@[simp] theorem State.onScene_scenes (s : State) (n : Nat) (f : Scene → Scene) :
    (s.onScene n f).scenes = Table.adjust s.scenes n f := rfl
@[simp] theorem State.onScene_lineA (s : State) (n : Nat) (f : Scene → Scene) : (s.onScene n f).lineA = s.lineA := rfl
@[simp] theorem State.onScene_lineB (s : State) (n : Nat) (f : Scene → Scene) : (s.onScene n f).lineB = s.lineB := rfl
@[simp] theorem State.onScene_groups (s : State) (n : Nat) (f : Scene → Scene) :
    (s.onScene n f).groups = s.groups := rfl
@[simp] theorem State.onScene_racks (s : State) (n : Nat) (f : Scene → Scene) : (s.onScene n f).racks = s.racks := rfl
@[simp] theorem State.onScene_roundTimer (s : State) (n : Nat) (f : Scene → Scene) :
    (s.onScene n f).roundTimer = s.roundTimer := rfl
@[simp] theorem State.onScene_rackSlot (s : State) (n : Nat) (f : Scene → Scene) :
    (s.onScene n f).rackSlot = s.rackSlot := rfl
@[simp] theorem State.onScene_freeUses (s : State) (n : Nat) (f : Scene → Scene) :
    (s.onScene n f).freeUses = s.freeUses := rfl
@[simp] theorem State.onScene_pending (s : State) (n : Nat) (f : Scene → Scene) :
    (s.onScene n f).pending = s.pending := rfl

@[simp] theorem State.onGroup_power (s : State) (g : Nat) (f : Group → Group) : (s.onGroup g f).power = s.power := rfl
@[simp] theorem State.onGroup_panicInput (s : State) (g : Nat) (f : Group → Group) :
    (s.onGroup g f).panicInput = s.panicInput := rfl
@[simp] theorem State.onGroup_installInput (s : State) (g : Nat) (f : Group → Group) :
    (s.onGroup g f).installInput = s.installInput := rfl
@[simp] theorem State.onGroup_sdo (s : State) (g : Nat) (f : Group → Group) : (s.onGroup g f).sdo = s.sdo := rfl
@[simp] theorem State.onGroup_hostSlot (s : State) (g : Nat) (f : Group → Group) :
    (s.onGroup g f).hostSlot = s.hostSlot := rfl
@[simp] theorem State.onGroup_collision (s : State) (g : Nat) (f : Group → Group) :
    (s.onGroup g f).collision = s.collision := rfl
@[simp] theorem State.onGroup_notices (s : State) (g : Nat) (f : Group → Group) :
    (s.onGroup g f).notices = s.notices := rfl
@[simp] theorem State.onGroup_image (s : State) (g : Nat) (f : Group → Group) : (s.onGroup g f).image = s.image := rfl
@[simp] theorem State.onGroup_saving (s : State) (g : Nat) (f : Group → Group) :
    (s.onGroup g f).saving = s.saving := rfl
@[simp] theorem State.onGroup_resetCause (s : State) (g : Nat) (f : Group → Group) :
    (s.onGroup g f).resetCause = s.resetCause := rfl
@[simp] theorem State.onGroup_settings (s : State) (g : Nat) (f : Group → Group) :
    (s.onGroup g f).settings = s.settings := rfl
@[simp] theorem State.onGroup_mode (s : State) (g : Nat) (f : Group → Group) : (s.onGroup g f).mode = s.mode := rfl
@[simp] theorem State.onGroup_latch (s : State) (g : Nat) (f : Group → Group) : (s.onGroup g f).latch = s.latch := rfl
@[simp] theorem State.onGroup_panicFiltered (s : State) (g : Nat) (f : Group → Group) :
    (s.onGroup g f).panicFiltered = s.panicFiltered := rfl
@[simp] theorem State.onGroup_panicTimer (s : State) (g : Nat) (f : Group → Group) :
    (s.onGroup g f).panicTimer = s.panicTimer := rfl
@[simp] theorem State.onGroup_circuits (s : State) (g : Nat) (f : Group → Group) :
    (s.onGroup g f).circuits = s.circuits := rfl
@[simp] theorem State.onGroup_zones (s : State) (g : Nat) (f : Group → Group) : (s.onGroup g f).zones = s.zones := rfl
@[simp] theorem State.onGroup_requiredFeed (s : State) (g : Nat) (f : Group → Group) :
    (s.onGroup g f).requiredFeed = s.requiredFeed := rfl
@[simp] theorem State.onGroup_latchCopy (s : State) (g : Nat) (f : Group → Group) :
    (s.onGroup g f).latchCopy = s.latchCopy := rfl
@[simp] theorem State.onGroup_stepTimer (s : State) (g : Nat) (f : Group → Group) :
    (s.onGroup g f).stepTimer = s.stepTimer := rfl
@[simp] theorem State.onGroup_bindings (s : State) (g : Nat) (f : Group → Group) :
    (s.onGroup g f).bindings = s.bindings := rfl
@[simp] theorem State.onGroup_protectSize (s : State) (g : Nat) (f : Group → Group) :
    (s.onGroup g f).protectSize = s.protectSize := rfl
@[simp] theorem State.onGroup_houseLock (s : State) (g : Nat) (f : Group → Group) :
    (s.onGroup g f).houseLock = s.houseLock := rfl
@[simp] theorem State.onGroup_offered (s : State) (g : Nat) (f : Group → Group) :
    (s.onGroup g f).offered = s.offered := rfl
@[simp] theorem State.onGroup_repeats (s : State) (g : Nat) (f : Group → Group) :
    (s.onGroup g f).repeats = s.repeats := rfl
@[simp] theorem State.onGroup_scenes (s : State) (g : Nat) (f : Group → Group) :
    (s.onGroup g f).scenes = s.scenes := rfl
@[simp] theorem State.onGroup_lineA (s : State) (g : Nat) (f : Group → Group) : (s.onGroup g f).lineA = s.lineA := rfl
@[simp] theorem State.onGroup_lineB (s : State) (g : Nat) (f : Group → Group) : (s.onGroup g f).lineB = s.lineB := rfl
@[simp] theorem State.onGroup_groups (s : State) (g : Nat) (f : Group → Group) :
    (s.onGroup g f).groups = Table.adjust s.groups g f := rfl
@[simp] theorem State.onGroup_racks (s : State) (g : Nat) (f : Group → Group) : (s.onGroup g f).racks = s.racks := rfl
@[simp] theorem State.onGroup_roundTimer (s : State) (g : Nat) (f : Group → Group) :
    (s.onGroup g f).roundTimer = s.roundTimer := rfl
@[simp] theorem State.onGroup_rackSlot (s : State) (g : Nat) (f : Group → Group) :
    (s.onGroup g f).rackSlot = s.rackSlot := rfl
@[simp] theorem State.onGroup_freeUses (s : State) (g : Nat) (f : Group → Group) :
    (s.onGroup g f).freeUses = s.freeUses := rfl
@[simp] theorem State.onGroup_pending (s : State) (g : Nat) (f : Group → Group) :
    (s.onGroup g f).pending = s.pending := rfl

@[simp] theorem State.onRack_power (s : State) (r : Nat) (f : Rack → Rack) : (s.onRack r f).power = s.power := rfl
@[simp] theorem State.onRack_panicInput (s : State) (r : Nat) (f : Rack → Rack) :
    (s.onRack r f).panicInput = s.panicInput := rfl
@[simp] theorem State.onRack_installInput (s : State) (r : Nat) (f : Rack → Rack) :
    (s.onRack r f).installInput = s.installInput := rfl
@[simp] theorem State.onRack_sdo (s : State) (r : Nat) (f : Rack → Rack) : (s.onRack r f).sdo = s.sdo := rfl
@[simp] theorem State.onRack_hostSlot (s : State) (r : Nat) (f : Rack → Rack) :
    (s.onRack r f).hostSlot = s.hostSlot := rfl
@[simp] theorem State.onRack_collision (s : State) (r : Nat) (f : Rack → Rack) :
    (s.onRack r f).collision = s.collision := rfl
@[simp] theorem State.onRack_notices (s : State) (r : Nat) (f : Rack → Rack) : (s.onRack r f).notices = s.notices := rfl
@[simp] theorem State.onRack_image (s : State) (r : Nat) (f : Rack → Rack) : (s.onRack r f).image = s.image := rfl
@[simp] theorem State.onRack_saving (s : State) (r : Nat) (f : Rack → Rack) : (s.onRack r f).saving = s.saving := rfl
@[simp] theorem State.onRack_resetCause (s : State) (r : Nat) (f : Rack → Rack) :
    (s.onRack r f).resetCause = s.resetCause := rfl
@[simp] theorem State.onRack_settings (s : State) (r : Nat) (f : Rack → Rack) :
    (s.onRack r f).settings = s.settings := rfl
@[simp] theorem State.onRack_mode (s : State) (r : Nat) (f : Rack → Rack) : (s.onRack r f).mode = s.mode := rfl
@[simp] theorem State.onRack_latch (s : State) (r : Nat) (f : Rack → Rack) : (s.onRack r f).latch = s.latch := rfl
@[simp] theorem State.onRack_panicFiltered (s : State) (r : Nat) (f : Rack → Rack) :
    (s.onRack r f).panicFiltered = s.panicFiltered := rfl
@[simp] theorem State.onRack_panicTimer (s : State) (r : Nat) (f : Rack → Rack) :
    (s.onRack r f).panicTimer = s.panicTimer := rfl
@[simp] theorem State.onRack_circuits (s : State) (r : Nat) (f : Rack → Rack) :
    (s.onRack r f).circuits = s.circuits := rfl
@[simp] theorem State.onRack_zones (s : State) (r : Nat) (f : Rack → Rack) : (s.onRack r f).zones = s.zones := rfl
@[simp] theorem State.onRack_requiredFeed (s : State) (r : Nat) (f : Rack → Rack) :
    (s.onRack r f).requiredFeed = s.requiredFeed := rfl
@[simp] theorem State.onRack_latchCopy (s : State) (r : Nat) (f : Rack → Rack) :
    (s.onRack r f).latchCopy = s.latchCopy := rfl
@[simp] theorem State.onRack_stepTimer (s : State) (r : Nat) (f : Rack → Rack) :
    (s.onRack r f).stepTimer = s.stepTimer := rfl
@[simp] theorem State.onRack_bindings (s : State) (r : Nat) (f : Rack → Rack) :
    (s.onRack r f).bindings = s.bindings := rfl
@[simp] theorem State.onRack_protectSize (s : State) (r : Nat) (f : Rack → Rack) :
    (s.onRack r f).protectSize = s.protectSize := rfl
@[simp] theorem State.onRack_houseLock (s : State) (r : Nat) (f : Rack → Rack) :
    (s.onRack r f).houseLock = s.houseLock := rfl
@[simp] theorem State.onRack_offered (s : State) (r : Nat) (f : Rack → Rack) : (s.onRack r f).offered = s.offered := rfl
@[simp] theorem State.onRack_repeats (s : State) (r : Nat) (f : Rack → Rack) : (s.onRack r f).repeats = s.repeats := rfl
@[simp] theorem State.onRack_scenes (s : State) (r : Nat) (f : Rack → Rack) : (s.onRack r f).scenes = s.scenes := rfl
@[simp] theorem State.onRack_lineA (s : State) (r : Nat) (f : Rack → Rack) : (s.onRack r f).lineA = s.lineA := rfl
@[simp] theorem State.onRack_lineB (s : State) (r : Nat) (f : Rack → Rack) : (s.onRack r f).lineB = s.lineB := rfl
@[simp] theorem State.onRack_groups (s : State) (r : Nat) (f : Rack → Rack) : (s.onRack r f).groups = s.groups := rfl
@[simp] theorem State.onRack_racks (s : State) (r : Nat) (f : Rack → Rack) :
    (s.onRack r f).racks = Table.adjust s.racks r f := rfl
@[simp] theorem State.onRack_roundTimer (s : State) (r : Nat) (f : Rack → Rack) :
    (s.onRack r f).roundTimer = s.roundTimer := rfl
@[simp] theorem State.onRack_rackSlot (s : State) (r : Nat) (f : Rack → Rack) :
    (s.onRack r f).rackSlot = s.rackSlot := rfl
@[simp] theorem State.onRack_freeUses (s : State) (r : Nat) (f : Rack → Rack) :
    (s.onRack r f).freeUses = s.freeUses := rfl
@[simp] theorem State.onRack_pending (s : State) (r : Nat) (f : Rack → Rack) : (s.onRack r f).pending = s.pending := rfl

@[simp] theorem State.unit_setUnit_self (s : State) (l : Line) (u : LineUnit) : (s.setUnit l u).unit l = u := by
  cases l <;> rfl

theorem State.unit_setUnit_other (s : State) {l m : Line} (u : LineUnit) (h : l ≠ m) :
    (s.setUnit l u).unit m = s.unit m := by
  cases l <;> cases m <;> simp_all [State.setUnit, State.unit]

@[simp] theorem State.unit_onUnit_self (s : State) (l : Line) (f : LineUnit → LineUnit) :
    (s.onUnit l f).unit l = f (s.unit l) := by
  simp [State.onUnit]

theorem State.unit_onUnit_other (s : State) {l m : Line} (f : LineUnit → LineUnit) (h : l ≠ m) :
    (s.onUnit l f).unit m = s.unit m :=
  State.unit_setUnit_other s _ h

end Sys2Proof.Machine
end

