-- ==== Sys2Proof/Laws/HostLink.lean ====
section
/-! SUPPORT. What the exchange of the host link can do, once for each way a request transfer ends (R160, R161, R164). -/

namespace Sys2Proof.Machine

/-- The state on which the owner of a request works: the zeros are out and the slot is WORKING. -/
def State.taken (s : State) (code tag : Byte) (body : List Byte) : State :=
  (s.shiftZeros (3 + body.length)).withHostSlot (.working ⟨code, tag, body⟩)

theorem State.takeRequest_of_reset {s : State} (h : s.power ≠ .running) (code tag : Byte) (body : List Byte)
    (work : State → Work) : s.takeRequest code tag body work = s := by simp [State.takeRequest, h]

theorem State.takeRequest_of_busy {s : State} (h : s.power = .running) (hb : s.hostSlot ≠ .idle) (code tag : Byte)
    (body : List Byte) (work : State → Work) :
    s.takeRequest code tag body work = { s.shiftZeros (3 + body.length) with collision := true } := by
  have hs : (s.shiftZeros (3 + body.length)).hostSlot = s.hostSlot := rfl
  simp only [State.takeRequest, h, ne_eq, not_true_eq_false, if_false, hs]

theorem State.takeRequest_of_answered {s t : State} {code tag : Byte} {body : List Byte} {work : State → Work} {r : Reply}
    (h : s.power = .running) (hi : s.hostSlot = .idle) (hb : body.length ≤ 250)
    (hw : work (s.taken code tag body) = .answered r t) : s.takeRequest code tag body work = t.placeAnswer tag r := by
  have hs : (s.shiftZeros (3 + body.length)).hostSlot = .idle := hi
  have hl : ¬ Config.bodyLimit < body.length := Nat.not_lt.2 hb
  unfold State.taken at hw
  simp only [State.takeRequest, h, ne_eq, not_true_eq_false, if_false, hs, hl, hw]

theorem State.takeRequest_of_inWork {s t : State} {code tag : Byte} {body : List Byte} {work : State → Work}
    (h : s.power = .running) (hi : s.hostSlot = .idle) (hb : body.length ≤ 250)
    (hw : work (s.taken code tag body) = .inWork t) : s.takeRequest code tag body work = t := by
  have hs : (s.shiftZeros (3 + body.length)).hostSlot = .idle := hi
  have hl : ¬ Config.bodyLimit < body.length := Nat.not_lt.2 hb
  unfold State.taken at hw
  simp only [State.takeRequest, h, ne_eq, not_true_eq_false, if_false, hs, hl, hw]

theorem State.takeRequest_of_ended {s t : State} {code tag : Byte} {body : List Byte} {work : State → Work}
    (h : s.power = .running) (hi : s.hostSlot = .idle) (hb : body.length ≤ 250)
    (hw : work (s.taken code tag body) = .ended t) : s.takeRequest code tag body work = t := by
  have hs : (s.shiftZeros (3 + body.length)).hostSlot = .idle := hi
  have hl : ¬ Config.bodyLimit < body.length := Nat.not_lt.2 hb
  unfold State.taken at hw
  simp only [State.takeRequest, h, ne_eq, not_true_eq_false, if_false, hs, hl, hw]

/-- A refusal that leaves the state as it was is the answer and nothing else. -/
theorem State.taken_placeAnswer (s : State) (code tag : Byte) (body : List Byte) (r : Reply) :
    (s.taken code tag body).placeAnswer tag r =
      { s with sdo := List.replicate (3 + body.length) 0, hostSlot := .answerReady ⟨tag, r.result, r.clamped, r.body⟩ } := rfl

theorem State.inOrder_cons_true (s : State) (r : Result) (rest : List (Bool × Result)) (taken : Work) :
    s.inOrder ((true, r) :: rest) taken = .refuse r s := rfl

theorem State.inOrder_cons_false (s : State) (r : Result) (rest : List (Bool × Result)) (taken : Work) :
    s.inOrder ((false, r) :: rest) taken = s.inOrder rest taken := rfl

theorem State.inOrder_nil (s : State) (taken : Work) : s.inOrder [] taken = taken := rfl

theorem State.parsed_of_saving {α : Type} {s : State} (h : s.saving.isSome = true) (p : Parsed α) (taken : α → Work) :
    s.parsed p taken = .refuse .busySaving s := by simp [State.parsed, State.isSaving, h]

theorem State.parsed_malformed {α : Type} {s : State} (h : s.saving = none) (taken : α → Work) :
    s.parsed .malformed taken = .refuse .badRequest s := by simp [State.parsed, State.isSaving, h]

theorem State.parsed_outOfRange {α : Type} {s : State} (h : s.saving = none) (taken : α → Work) :
    s.parsed .outOfRange taken = .refuse .outOfRange s := by simp [State.parsed, State.isSaving, h]

theorem State.parsed_ok {α : Type} {s : State} (h : s.saving = none) (v : α) (taken : α → Work) :
    s.parsed (.ok v) taken = taken v := by simp [State.parsed, State.isSaving, h]

theorem State.complete_of_working {s : State} {q : Request} (h : s.hostSlot = .working q) (r : Reply) :
    s.complete r = s.placeAnswer q.tag r := by simp [State.complete, h]

end Sys2Proof.Machine
end

