-- ==== Sys2Proof/Laws/Table.lean ====
section
/-! SUPPORT. The laws of the tables: what a read finds after each operation, and that each keeps the order of the
identifiers. -/

namespace Sys2Proof.Machine

variable {α β : Type}

/-! ## Reads after operations -/

@[simp] theorem Table.at?_nil (i : Nat) : Table.at? ([] : Table α) i = none := rfl

theorem Table.at?_cons (k : Nat) (v : α) (t : Table α) (i : Nat) :
    Table.at? ((k, v) :: t) i = if k = i then some v else Table.at? t i := rfl

theorem Table.at?_put (t : Table α) (i : Nat) (x : α) (j : Nat) :
    Table.at? (Table.put t i x) j = if j = i then some x else Table.at? t j := by
  induction t with
  | nil => by_cases h : i = j <;> simp [Table.put, Table.at?_cons, h, eq_comm]
  | cons e t ih =>
    obtain ⟨k, v⟩ := e
    simp only [Table.put]
    split
    · subst_vars
      by_cases h : k = j
      · simp [Table.at?_cons, h]
      · simp [Table.at?_cons, h, Ne.symm h]
    · split
      · by_cases h : i = j <;> simp [Table.at?_cons, h, eq_comm]
      · rw [Table.at?_cons, Table.at?_cons, ih]
        by_cases h : k = j
        · subst h; simp_all
        · simp [h]

@[simp] theorem Table.at?_put_self (t : Table α) (i : Nat) (x : α) : Table.at? (Table.put t i x) i = some x := by
  simp [Table.at?_put]

theorem Table.at?_remove (t : Table α) (i j : Nat) :
    Table.at? (Table.remove t i) j = if j = i then none else Table.at? t j := by
  induction t with
  | nil => simp [Table.remove, Table.at?]
  | cons e t ih =>
    obtain ⟨k, v⟩ := e
    simp only [Table.remove, List.filter_cons] at ih ⊢
    by_cases hk : k = i
    · subst hk
      simp only [bne_self_eq_false, Bool.false_eq_true, if_false, ih, Table.at?_cons]
      by_cases h : j = k
      · simp [h]
      · simp [h, Ne.symm h]
    · simp only [bne_iff_ne, ne_eq, hk, not_false_eq_true, if_true, Table.at?_cons, ih]
      by_cases h : k = j
      · subst h; simp [hk]
      · simp [h]

@[simp] theorem Table.at?_remove_self (t : Table α) (i : Nat) : Table.at? (Table.remove t i) i = none := by
  simp [Table.at?_remove]

theorem Table.at?_adjust (t : Table α) (i : Nat) (f : α → α) (j : Nat) :
    Table.at? (Table.adjust t i f) j = if j = i then (Table.at? t j).map f else Table.at? t j := by
  induction t with
  | nil => simp [Table.adjust, Table.at?]
  | cons e t ih =>
    obtain ⟨k, v⟩ := e
    simp only [Table.adjust, List.map_cons] at ih ⊢
    by_cases hk : k = i
    · subst hk
      by_cases h : k = j
      · subst h; simp [Table.at?_cons]
      · simp [Table.at?_cons, h, ih, Ne.symm h]
    · by_cases h : k = j
      · subst h; simp [Table.at?_cons, hk]
      · simp [Table.at?_cons, hk, h, ih]

@[simp] theorem Table.at?_adjust_self (t : Table α) (i : Nat) (f : α → α) :
    Table.at? (Table.adjust t i f) i = (Table.at? t i).map f := by
  simp [Table.at?_adjust]

theorem Table.at?_adjust_ne (t : Table α) {i j : Nat} (f : α → α) (h : j ≠ i) :
    Table.at? (Table.adjust t i f) j = Table.at? t j := by
  simp [Table.at?_adjust, h]

@[simp] theorem Table.at?_mapAll (t : Table α) (f : Nat → α → β) (j : Nat) :
    Table.at? (Table.mapAll t f) j = (Table.at? t j).map (f j) := by
  induction t with
  | nil => rfl
  | cons e t ih =>
    obtain ⟨k, v⟩ := e
    simp only [Table.mapAll, List.map_cons, Table.at?_cons] at ih ⊢
    by_cases h : k = j
    · subst h; simp
    · simp [h, ih]

theorem Table.mem_of_at? {t : Table α} {i : Nat} {x : α} (h : Table.at? t i = some x) : (i, x) ∈ t := by
  induction t with
  | nil => simp at h
  | cons e t ih =>
    obtain ⟨k, v⟩ := e
    rw [Table.at?_cons] at h
    split at h
    · simp_all
    · exact List.mem_cons_of_mem _ (ih h)

/-! ## Members after operations -/

theorem Table.forall_mem_put {t : Table α} {i : Nat} {x : α} {p : Nat × α → Prop} (ht : ∀ e ∈ t, p e) (hx : p (i, x)) :
    ∀ e ∈ Table.put t i x, p e := by
  induction t with
  | nil => simpa [Table.put] using hx
  | cons e t ih =>
    obtain ⟨k, v⟩ := e
    simp only [List.forall_mem_cons] at ht
    simp only [Table.put]
    split
    · exact List.forall_mem_cons.2 ⟨hx, ht.2⟩
    · split
      · exact List.forall_mem_cons.2 ⟨hx, List.forall_mem_cons.2 ht⟩
      · exact List.forall_mem_cons.2 ⟨ht.1, ih ht.2⟩

theorem Table.forall_mem_remove {t : Table α} {p : Nat × α → Prop} (ht : ∀ e ∈ t, p e) (i : Nat) :
    ∀ e ∈ Table.remove t i, p e :=
  fun e he => ht e (List.mem_of_mem_filter he)

theorem Table.forall_mem_adjust {t : Table α} {i : Nat} {f : α → α} {p : Nat × α → Prop} (ht : ∀ e ∈ t, p e)
    (hf : ∀ x, p (i, x) → p (i, f x)) : ∀ e ∈ Table.adjust t i f, p e := by
  intro e he
  obtain ⟨e', he', rfl⟩ := List.mem_map.1 he
  obtain ⟨k, v⟩ := e'
  split
  · rename_i h; dsimp at h; subst h; exact hf _ (ht _ he')
  · exact ht _ he'

theorem Table.forall_mem_mapAll {t : Table α} {f : Nat → α → β} {p : Nat × α → Prop} {q : Nat × β → Prop}
    (ht : ∀ e ∈ t, p e) (hf : ∀ i x, p (i, x) → q (i, f i x)) : ∀ e ∈ Table.mapAll t f, q e := by
  intro e he
  obtain ⟨e', he', rfl⟩ := List.mem_map.1 he
  exact hf _ _ (ht _ he')

/-! ## The order of the identifiers -/

@[simp] theorem Table.ids_adjust (t : Table α) (i : Nat) (f : α → α) : Table.ids (Table.adjust t i f) = Table.ids t := by
  simp only [Table.ids, Table.adjust, List.map_map]
  refine List.map_congr_left fun e _ => ?_
  dsimp
  split <;> rfl

@[simp] theorem Table.ids_mapAll (t : Table α) (f : Nat → α → β) : Table.ids (Table.mapAll t f) = Table.ids t := by
  simp [Table.ids, Table.mapAll, Function.comp_def]

theorem Table.inOrder_remove {t : Table α} (h : Table.InOrder t) (i : Nat) : Table.InOrder (Table.remove t i) := by
  unfold Table.InOrder Table.ids Table.remove at *
  exact h.sublist (List.Sublist.map _ (List.filter_sublist))

theorem Table.inOrder_put {t : Table α} (h : Table.InOrder t) (i : Nat) (x : α) : Table.InOrder (Table.put t i x) := by
  have key : ∀ (t : Table α) (b : Nat), (∀ e ∈ t, b < e.1) → b < i → ∀ e ∈ Table.put t i x, b < e.1 :=
    fun t b ht hb => Table.forall_mem_put (p := fun e => b < e.1) ht hb
  induction t with
  | nil => simp [Table.InOrder, Table.ids, Table.put]
  | cons e t ih =>
    obtain ⟨k, v⟩ := e
    simp only [Table.InOrder, Table.ids, List.map_cons, List.pairwise_cons] at h ih ⊢
    have hk : ∀ e ∈ t, k < e.1 := fun e he => h.1 e.1 (List.mem_map_of_mem he)
    simp only [Table.put]
    split
    · subst_vars; simpa using ⟨fun a y => hk (a, y), h.2⟩
    · split
      · rename_i hik
        simp only [List.map_cons, List.pairwise_cons, List.forall_mem_cons]
        exact ⟨⟨hik, fun j hj => hik.trans (h.1 j hj)⟩, h⟩
      · simp only [List.map_cons, List.pairwise_cons]
        refine ⟨fun j hj => ?_, ih h.2⟩
        obtain ⟨e, he, rfl⟩ := List.mem_map.1 hj
        exact key t k hk (by omega) e he

theorem Table.inOrder_adjust {t : Table α} (h : Table.InOrder t) (i : Nat) (f : α → α) :
    Table.InOrder (Table.adjust t i f) := by
  simpa [Table.InOrder] using h

theorem Table.inOrder_mapAll {t : Table α} (h : Table.InOrder t) (f : Nat → α → β) :
    Table.InOrder (Table.mapAll t f) := by
  simpa [Table.InOrder] using h

/-- In a table in order a record is read at its identifier. -/
theorem Table.at?_of_mem {t : Table α} (h : Table.InOrder t) {i : Nat} {x : α} (hm : (i, x) ∈ t) :
    Table.at? t i = some x := by
  induction t with
  | nil => simp at hm
  | cons e t ih =>
    obtain ⟨k, v⟩ := e
    simp only [Table.InOrder, Table.ids, List.map_cons, List.pairwise_cons] at h ih
    rw [Table.at?_cons]
    rcases List.mem_cons.1 hm with hm | hm
    · simp_all
    · have := h.1 i (List.mem_map_of_mem (f := Prod.fst) hm)
      rw [if_neg (by omega), ih h.2 hm]

theorem Table.mem_idsWhere {t : Table α} {p : α → Bool} {i : Nat} :
    i ∈ Table.idsWhere t p ↔ ∃ x, (i, x) ∈ t ∧ p x = true := by
  simp [Table.idsWhere]

end Sys2Proof.Machine
end

