-- ==== Sys2Proof/Laws/Moves.lean ====
section
/-! SUPPORT. What a command can do, said once: every effect is a chain of moves, each a change of one record, of one table,
or of fields no table is in. A law kept by every move is kept by every command. -/

namespace Sys2Proof.Machine

-- One theorem at a time: proofs that wait for each other hold a thread each, and the package is one text when checked.
set_option Elab.async false

/-- What can happen to one circuit's record, but for a placement and a new configuration. -/
inductive CircuitStep : Circuit → Circuit → Prop
  | refl (x) : CircuitStep x x
  | trans {x y z} : CircuitStep x y → CircuitStep y z → CircuitStep x z
  | resolve (x : Circuit) (master tenths) : CircuitStep x (x.resolve master tenths)
  | erase (x : Circuit) (p : Contribution → Bool) : CircuitStep x { x with claims := x.claims.eraseP p }
  | mark (x : Circuit) (b : Bool) : CircuitStep x { x with resolved := { x.resolved with hostDisplaced := b } }
  | redorm (x : Circuit) (mode) : CircuitStep x (x.redorm mode)
  | step (x : Circuit) : CircuitStep x { x with transition := x.transition.step x.config }
  | begin (x : Circuit) (h : x.transition.phase.mayTransfer = true)
      (k : x.config.kind = .transfer ∨ x.transition.pendingTransfer.isSome = true) :
      CircuitStep x { x with transition := x.transition.beginTransfer x.config }
  | pend (x : Circuit) (dest : Feed) (k : x.config.kind = .transfer) :
      CircuitStep x { x with transition := { x.transition with pendingTransfer := some dest } }
  | feedReport (x : Circuit) (required ready) (k : x.config.kind = .transfer) :
      CircuitStep x { x with transition := x.transition.feedReport x.config required ready }
  | endBlock (x : Circuit) (required ready) (h : x.transition.phase = .block) :
      CircuitStep x { x with transition := x.transition.endBlock x.config required ready }
  | tick (x : Circuit) : CircuitStep x x.tick

/-- The tables of records, the image with its copy, and the queue. -/
def State.tables (s : State) : Table Circuit × Table Zone × Table Binding × Table Scene × LineUnit × LineUnit ×
    Table Group × Table Rack × Option Image × Option Image × List Instr :=
  (s.circuits, s.zones, s.bindings, s.scenes, s.lineA, s.lineB, s.groups, s.racks, s.image, s.saving, s.pending)

/-- One move of a command's effect. -/
inductive Move : State → State → Prop
  /-- Fields that are no table of records and no image. -/
  | plain {s t : State} (h : t.tables = s.tables) : Move s t
  | circuit (s : State) (c : Nat) (f : Circuit → Circuit) (h : ∀ x, CircuitStep x (f x)) : Move s (s.onCircuit c f)
  | circuits (s : State) (f : Nat → Circuit → Circuit) (h : ∀ i x, CircuitStep x (f i x)) :
      Move s (s.withCircuits (Table.mapAll s.circuits f))
  | claim (s : State) (c : Nat) (x : Circuit) (k : Contribution) (h : Table.at? s.circuits c = some x) :
      Move s (s.onCircuit c fun y => { y with claims := (insertClaim k x.claims).1 })
  | newCircuit (s : State) (c : Nat) (cfg : CircuitConfig) :
      Move s (s.withCircuits (Table.put s.circuits c (Circuit.atStart .house cfg)))
  | reconfigure (s : State) (c : Nat) (x : Circuit) (new : CircuitConfig) (h : Table.at? s.circuits c = some x)
      (free : x.transition.phase.inTransfer = false ∨
        (x.config.kind = new.kind ∧ x.config.house = new.house ∧ x.config.stage = new.stage)) :
      Move s (s.onCircuit c fun x => { x with config := new, transition := x.transition.reconfigured x.config new })
  | dropCircuit (s : State) (c : Nat) : Move s (s.withCircuits (Table.remove s.circuits c))
  | putZone (s : State) (z : Nat) (x : Zone) : Move s (s.withZones (Table.put s.zones z x))
  | setZone (s : State) (z : Nat) (f : Zone → Zone) : Move s (s.withZones (Table.adjust s.zones z f))
  | dropZone (s : State) (z : Nat) : Move s (s.withZones (Table.remove s.zones z))
  | putBinding (s : State) (b : Nat) (x : Binding) : Move s (s.withBindings (Table.put s.bindings b x))
  | setBinding (s : State) (b : Nat) (f : Binding → Binding) : Move s (s.onBinding b f)
  | setBindings (s : State) (f : Nat → Binding → Binding) : Move s (s.withBindings (Table.mapAll s.bindings f))
  | dropBinding (s : State) (b : Nat) : Move s (s.withBindings (Table.remove s.bindings b))
  | putScene (s : State) (n : Nat) (x : Scene) : Move s (s.withScenes (Table.put s.scenes n x))
  | setScene (s : State) (n : Nat) (f : Scene → Scene) : Move s (s.onScene n f)
  | dropScene (s : State) (n : Nat) : Move s (s.withScenes (Table.remove s.scenes n))
  | setGroup (s : State) (g : Nat) (f : Group → Group) : Move s (s.onGroup g f)
  | setGroups (s : State) (f : Nat → Group → Group) : Move s (s.withGroups (Table.mapAll s.groups f))
  | setRack (s : State) (r : Nat) (f : Rack → Rack) : Move s (s.onRack r f)
  | unit (s : State) (l : Line) (f : LineUnit → LineUnit)
      (h : ∀ u : LineUnit, u.TablesInOrder → (f u).TablesInOrder) : Move s (s.onUnit l f)
  | beginSave (s : State) : Move s s.beginSave
  | endSave (s : State) (i : Image) (h : s.saving = some i) : Move s { s with image := some i, saving := none }
  | dropSave (s : State) : Move s { s with saving := none }
  | load (s : State) (cause : ResetCause) : Move s (s.load cause (s.image.getD .blank))

/-- A chain of moves. -/
inductive Moves : State → State → Prop
  | refl (s) : Moves s s
  | step {s t u} : Moves s t → Move t u → Moves s u

variable {s t u : State}

theorem Moves.trans (h : Moves s t) (k : Moves t u) : Moves s u := by
  induction k with
  | refl => exact h
  | step _ m ih => exact .step ih m

theorem Moves.foldl {α : Type} {f : State → α → State} (h : Moves s t) (xs : List α)
    (k : ∀ u x, Moves s u → Moves s (f u x)) : Moves s (xs.foldl f t) := by
  induction xs generalizing t with
  | nil => exact h
  | cons x xs ih => exact ih (k t x h)

theorem Moves.foldlFst {α β : Type} {f : State × β → α → State × β} {acc : State × β} (h : Moves s acc.1) (xs : List α)
    (k : ∀ acc x, Moves s acc.1 → Moves s (f acc x).1) : Moves s (xs.foldl f acc).1 := by
  induction xs generalizing acc with
  | nil => exact h
  | cons x xs ih => exact ih (k acc x h)

theorem Moves.ite {p : Prop} [Decidable p] (h : p → Moves s t) (k : ¬ p → Moves s u) :
    Moves s (if p then t else u) := by
  split
  · exact h ‹_›
  · exact k ‹_›

/-- A change of fields that are in no table. -/
theorem Moves.plain (h : Moves s t) (e : u.tables = t.tables) : Moves s u := h.step (.plain e)

/-! ## Records -/

theorem Moves.raise (h : Moves s t) (n : Notice) : Moves s (t.raise n) := h.plain rfl

theorem Moves.withRepeats (h : Moves s t) (x : List Repeat) : Moves s (t.withRepeats x) := h.plain rfl

theorem Moves.withOffered (h : Moves s t) (x : Option Firing) : Moves s (t.withOffered x) := h.plain rfl

theorem Moves.withRackSlot (h : Moves s t) (x : Option RackSlot) : Moves s (t.withRackSlot x) := h.plain rfl

theorem Moves.withRoundTimer (h : Moves s t) (x : Option Nat) : Moves s (t.withRoundTimer x) := h.plain rfl

theorem Moves.withHostSlot (h : Moves s t) (x : HostSlot) : Moves s (t.withHostSlot x) := h.plain rfl

theorem Moves.withHouseLock (h : Moves s t) (x : Bool) : Moves s (t.withHouseLock x) := h.plain rfl

theorem Moves.withMode (h : Moves s t) (x : HouseMode) : Moves s (t.withMode x) := h.plain rfl

theorem Moves.seeInstall (h : Moves s t) (x : Bool) : Moves s (t.seeInstall x) := h.plain rfl

theorem Moves.shiftZeros (h : Moves s t) (n : Nat) : Moves s (t.shiftZeros n) := h.plain rfl

theorem Moves.placeAnswer (h : Moves s t) (tag : Byte) (r : Reply) : Moves s (t.placeAnswer tag r) := h.plain rfl

theorem Moves.onBinding (h : Moves s t) (b : Nat) (f : Binding → Binding) : Moves s (t.onBinding b f) :=
  h.step (.setBinding t b f)

theorem Moves.onScene (h : Moves s t) (n : Nat) (f : Scene → Scene) : Moves s (t.onScene n f) := h.step (.setScene t n f)

theorem Moves.onGroup (h : Moves s t) (g : Nat) (f : Group → Group) : Moves s (t.onGroup g f) := h.step (.setGroup t g f)

theorem Moves.onRack (h : Moves s t) (r : Nat) (f : Rack → Rack) : Moves s (t.onRack r f) := h.step (.setRack t r f)

/-- A change of a line unit that keeps its stations, and its waiting groups in order. -/
theorem Moves.onUnit (h : Moves s t) (l : Line) (f : LineUnit → LineUnit) (hf : ∀ u, (f u).stations = u.stations)
    (hw : ∀ u, u.waiting.Pairwise (· < ·) → (f u).waiting.Pairwise (· < ·) := by
      intro u hw
      first
      | exact hw
      | exact hw.sublist List.filter_sublist
      | dsimp only; split <;> exact hw) :
    Moves s (t.onUnit l f) :=
  h.step (.unit t l f fun u hu => ⟨(hf u).symm ▸ hu.1, (hf u).symm ▸ hu.2.1, hw u hu.2.2⟩)

/-- A change of a line unit that changes every station in its place, and no key table but in its order. -/
theorem Moves.onUnitStations (h : Moves s t) (l : Line) (f : LineUnit → LineUnit)
    (hf : ∀ u, ∃ g, (f u).stations = Table.mapAll u.stations g ∧
      ∀ a st, Table.InOrder st.keys → Table.InOrder (g a st).keys)
    (hw : ∀ u, (f u).waiting = u.waiting := by exact fun _ => rfl) : Moves s (t.onUnit l f) :=
  h.step (.unit t l f fun u hu => by
    obtain ⟨g, e, hg⟩ := hf u
    refine ⟨e ▸ Table.inOrder_mapAll hu.1 g, e ▸ ?_, (hw u).symm ▸ hu.2.2⟩
    exact Table.forall_mem_mapAll (p := fun (e : Nat × Station) => Table.InOrder e.2.keys)
      (q := fun (e : Nat × Station) => Table.InOrder e.2.keys) hu.2.1 hg)

/-- A change of a station that keeps its key table in order. -/
theorem Moves.onStation (h : Moves s t) (l : Line) (a : Nat) (f : Station → Station)
    (hf : ∀ st, Table.InOrder st.keys → Table.InOrder (f st).keys := by exact fun _ hk => hk) :
    Moves s (t.onStation l a f) :=
  h.step (.unit t l _ fun _ hu => ⟨Table.inOrder_adjust hu.1 a f,
    Table.forall_mem_adjust (p := fun (e : Nat × Station) => Table.InOrder e.2.keys) hu.2.1 fun st => hf st, hu.2.2⟩)

theorem Moves.onKey (h : Moves s t) (k : StationInput) (f : KeyRecord → KeyRecord) : Moves s (t.onKey k f) :=
  h.onStation k.line k.address _ fun _ hk => Table.inOrder_adjust hk _ _

/-! ## Claims -/

theorem Moves.resolve (h : Moves s t) (c tenths : Nat) : Moves s (t.resolve c tenths) :=
  h.step (.circuit t c _ fun x => .resolve x _ tenths)

theorem Moves.markDisplaced (h : Moves s t) (c : Nat) (o : Origin) : Moves s (t.markDisplaced c o) := by
  cases o
  · exact h.onBinding ..
  · exact h.onScene ..
  · exact h.step (.circuit t c _ fun x => .mark x true)
  · exact h

theorem Moves.markRefused (h : Moves s t) (o : Origin) : Moves s (t.markRefused o) := by
  cases o
  · exact h.onBinding ..
  · exact h.onScene ..
  · exact h
  · exact h

theorem Moves.judgeLive (h : Moves s t) (n : Nat) : Moves s (t.judgeLive n) :=
  .ite (fun _ => h) fun _ => h.onScene ..

theorem Moves.departed (h : Moves s t) (byOther : Bool) (o : Origin) : Moves s (t.departed byOther o) := by
  cases o
  · exact .ite (fun _ => h.onBinding ..) fun _ => h
  · exact h.judgeLive ..
  · exact h
  · exact h

theorem Moves.place (h : Moves s t) (c : Nat) (k : Contribution) : Moves s (t.place c k).1 := by
  unfold State.place
  split
  · exact h
  · rename_i x hx
    dsimp only
    have placed : ∀ claims v, insertClaim { k with dormant := dormantIn t.mode x.config k.tier } x.claims = (claims, v) →
        Moves s ((t.onCircuit c fun x => { x with claims := claims }).resolve c k.arrival) := fun claims v e => by
      have m := Move.claim t c x { k with dormant := dormantIn t.mode x.config k.tier } hx
      rw [e] at m
      exact (h.step m).resolve ..
    split
    · exact h.markRefused ..
    · rename_i claims v _ e
      split
      · exact ((placed _ _ e).markDisplaced ..).departed ..
      · exact placed _ _ e

theorem Moves.remove (h : Moves s t) (byOther : Bool) (o : Origin) (c : Nat) : Moves s (t.remove byOther o c) := by
  unfold State.remove
  split
  · exact h
  · exact ((h.step (.circuit t c _ fun x => .erase x _)).resolve ..).departed ..

theorem Moves.removeEverywhere (h : Moves s t) (o : Origin) : Moves s (t.removeEverywhere o) :=
  h.foldl _ fun _ c hu => hu.remove false o c

theorem Moves.redormWhere (h : Moves s t) (test : Nat → Bool) : Moves s (t.redormWhere test) :=
  h.step (.circuits t _ fun i x => by
    unfold State.redormCircuit
    dsimp only
    split
    · split
      · exact (CircuitStep.redorm x _).trans (.resolve ..)
      · exact .refl x
    · exact .refl x)

theorem Moves.redormAll (h : Moves s t) : Moves s t.redormAll := h.redormWhere _

theorem Moves.masterChange (h : Moves s t) (zone value tenths : Nat) (maker : Option Nat) :
    Moves s (t.masterChange zone value tenths maker) := by
  unfold State.masterChange
  split
  · exact h
  · exact .ite (fun _ => h) fun _ => ((h.step (.setZone t zone _)).foldl _ fun _ c hu => hu.resolve c tenths).step
      (.setBindings _ _)

/-! ## Scenes -/

theorem Moves.placeAll (h : Moves s t) (claims : List (Nat × Contribution)) : Moves s (t.placeAll claims).1 :=
  Moves.foldlFst (acc := (t, (⟨false, false⟩ : Tally))) h claims fun _ e hu => hu.place e.1 e.2

theorem Moves.judgeScene (h : Moves s t) (n : Nat) (refused : Bool) : Moves s (t.judgeScene n refused) := h.onScene ..

theorem Moves.recall (h : Moves s t) (n tier : Nat) (recaller : Recaller) : Moves s (t.recall n tier recaller) := by
  unfold State.recall
  split
  · exact h
  · exact (((h.onScene n _).placeAll _).judgeScene ..).judgeLive ..

theorem Moves.releaseScene (h : Moves s t) (n : Nat) : Moves s (t.releaseScene n) := by
  unfold State.releaseScene
  split
  · exact h
  · exact h.foldl _ fun _ e hu => hu.remove true _ e.1

theorem Moves.rewriteLive (h : Moves s t) (n : Nat) (sc : Scene) (new : SceneDef) :
    Moves s (t.rewriteLive n sc new) := by
  unfold State.rewriteLive
  refine .ite (fun _ => ?_) fun _ => ?_
  · exact (((h.onScene n _).placeAll _).foldl _ fun _ c hu => hu.remove true _ c).judgeScene ..
  · exact ((h.onScene n _).placeAll _).foldl _ fun _ c hu => hu.remove true _ c

/-! ## Bindings -/

theorem Moves.releaseLight (h : Moves s t) (b : Nat) : Moves s (t.releaseLight b) := by
  unfold State.releaseLight
  split
  · exact h
  · exact ((((h.removeEverywhere _).foldl _ fun _ n hu => hu.releaseScene n).withRepeats _).onKey ..).onBinding ..

theorem Moves.writeBinding (h : Moves s t) (b : Nat) (r : BindingRecord) : Moves s (t.writeBinding b r) :=
  (h.releaseLight b).step (.putBinding _ b _)

theorem Moves.retire (h : Moves s t) (b : Nat) : Moves s (t.retire b) := (h.releaseLight b).step (.dropBinding _ b)

theorem Moves.suspend (h : Moves s t) (b : Nat) : Moves s (t.suspend b) := (h.releaseLight b).onBinding ..

theorem Moves.resume (h : Moves s t) (b : Nat) : Moves s (t.resume b) := h.onBinding ..

/-! ## Modes -/

theorem CircuitStep.beginPending (test : CircuitConfig → Feed → Bool) (x : Circuit) :
    CircuitStep x (x.beginPending test) := by
  unfold Circuit.beginPending
  split
  · rename_i dest h
    split
    · exact .begin x (by simp_all) (.inr (by simp [h]))
    · exact .refl x
  · exact .refl x

theorem Moves.reportFeed (h : Moves s t) (required : Feed) : Moves s (t.reportFeed required) := by
  refine (h.plain (u := { t with requiredFeed := required }) rfl).step (.circuits _ _ fun _ x => ?_)
  split
  · exact .feedReport x _ _ ‹_›
  · exact .refl x

theorem Moves.reportLatchClear (h : Moves s t) : Moves s t.reportLatchClear :=
  (h.plain (u := { t with latchCopy := false }) rfl).step (.circuits _ _ fun _ x => .beginPending _ x)

theorem Moves.reportRackOnline (h : Moves s t) (rack : Nat) : Moves s (t.reportRackOnline rack) :=
  h.step (.circuits _ _ fun _ x => .beginPending _ x)

theorem Moves.stepExpiry (h : Moves s t) : Moves s t.stepExpiry :=
  (h.plain (u := { t with stepTimer := some 20 }) rfl).step (.circuits _ _ fun _ x => .step x)

theorem Moves.redormBeforeReport (h : Moves s t) : Moves s t.redormBeforeReport := by
  have used := h.plain (u := { t with freeUses := t.freeUses + 1 }) rfl
  unfold State.redormBeforeReport
  cases Config.stepInModeChange t.freeUses
  · exact used.redormAll
  · exact ((used.redormWhere _).stepExpiry).redormWhere _

theorem Moves.changeMode (h : Moves s t) (new : HouseMode) : Moves s (t.changeMode new) := by
  unfold State.changeMode
  refine .ite (fun _ => h) fun _ => ?_
  have released := (h.withMode new).foldl ((t.withMode new).leaving t.mode new) (f := fun s b => s.releaseLight b)
    fun _ b hu => hu.releaseLight b
  exact .ite (fun _ => .ite (fun _ => released.redormAll) fun _ => released)
    fun _ => (Moves.ite (fun _ => released.redormBeforeReport) fun _ => released).reportFeed _

theorem Moves.setLatch (h : Moves s t) : Moves s t.setLatch :=
  ((h.plain (u := { t with latch := true, latchCopy := true }) rfl).foldl _ fun _ c hu => hu.place c egressClaim).raise _

theorem Moves.clearLatch (h : Moves s t) : Moves s t.clearLatch := by
  have cleared := h.plain (u := { t with latch := false, freeUses := t.freeUses + 1 }) rfl
  unfold State.clearLatch
  cases Config.latchReportFirst t.freeUses
  · exact ((cleared.removeEverywhere _).reportLatchClear).raise _
  · exact ((cleared.reportLatchClear).removeEverywhere _).raise _

theorem Moves.panicChange (h : Moves s t) (asserted : Bool) : Moves s (t.panicChange asserted) :=
  .ite (fun _ => h) fun _ => h.plain rfl

theorem Moves.panicExpiry (h : Moves s t) : Moves s t.panicExpiry := by
  unfold State.panicExpiry
  split
  · exact h
  · have seen := h.plain (u := { t with panicTimer := none, panicFiltered := t.panicInput }) rfl
    exact .ite (fun _ => seen.setLatch) fun _ => seen.raise _

/-! ## Actions -/

theorem Moves.recordHolding (h : Moves s t) (b c : Nat) (key : Option StationInput) (v : Verdict) :
    Moves s (t.recordHolding b c key v) := by
  unfold State.recordHolding
  split
  · exact h.onKey ..
  · exact h.onKey ..
  · exact h

theorem Moves.judgeBinding (h : Moves s t) (b : Nat) (tally : Tally) : Moves s (t.judgeBinding b tally) :=
  .ite (fun _ => h.onBinding ..) fun _ => h

theorem Moves.firePlacing (h : Moves s t) (b : Nat) (area : Area) (claim : Contribution) :
    Moves s (t.firePlacing b area claim) :=
  Moves.judgeBinding (Moves.foldlFst (acc := (t, (⟨false, false⟩ : Tally))) h _ fun _ c hu =>
    (hu.place c claim).recordHolding ..) b _

theorem Moves.releaseTier (h : Moves s t) (b tier c : Nat) : Moves s (t.releaseTier b tier c) :=
  h.foldl _ fun _ o hu => hu.remove _ o c

theorem Moves.stepMaster (h : Moves s t) (zone : Nat) (upward : Bool) (step : Nat) :
    Moves s (t.stepMaster zone upward step) := by
  unfold State.stepMaster
  split
  · exact h
  · exact h.masterChange ..

theorem Moves.fireRepeat (h : Moves s t) (b zone : Nat) (upward : Bool) (step : Nat) (source : FiringSource) :
    Moves s (t.fireRepeat b zone upward step source) := by
  unfold State.fireRepeat
  split
  · exact .ite (fun _ => (h.stepMaster ..).withRepeats _) fun _ => (h.stepMaster ..).withRepeats _
  · exact h.stepMaster ..

theorem Moves.repeatExpiry (h : Moves s t) (b : Nat) : Moves s (t.repeatExpiry b) := by
  unfold State.repeatExpiry
  split
  · exact h
  · exact (h.stepMaster ..).withRepeats _

theorem Moves.applyPosition (h : Moves s t) (b position : Nat) (a : Action) :
    Moves s (t.applyPosition b position a) := by
  unfold State.applyPosition
  split
  · exact h.masterChange ..
  · exact h.firePlacing ..
  · exact h

theorem Moves.pickup (h : Moves s t) (b : Nat) (captured : Bool) (a : Action) (p : Option Nat) (q : Nat) :
    Moves s (t.pickup b captured a p q) := by
  unfold State.pickup
  refine .ite (fun _ => h.applyPosition ..) fun _ => ?_
  split
  · exact .ite (fun _ => (h.onBinding ..).applyPosition ..) fun _ => h
  · exact h

theorem Moves.fireMode (h : Moves s t) (mode : HouseMode) (source : FiringSource) :
    Moves s (t.fireMode mode source) := by
  unfold State.fireMode
  refine .ite (fun _ => h.raise ..) fun _ => .ite (fun _ => h) fun _ => ?_
  cases source
  · exact (h.changeMode mode).raise ..
  · exact h.changeMode mode

theorem Moves.perform (h : Moves s t) (b : Nat) (x : Binding) (source : FiringSource) (p : Option Nat) (q : Nat) :
    Moves s (t.perform b x source p q) := by
  unfold State.perform
  split
  · exact h.firePlacing ..
  · exact .ite (fun _ => h.removeEverywhere ..) fun _ => h.firePlacing ..
  · exact h.foldl _ fun _ c hu => hu.releaseTier b _ c
  · exact h.recall ..
  · exact h.releaseScene ..
  · exact h.masterChange ..
  · exact h.fireRepeat ..
  · exact h.fireRepeat ..
  · split
    · exact h.pickup ..
    · exact h.applyPosition ..
  · split
    · exact h.pickup ..
    · exact h.applyPosition ..
  · exact h.fireMode ..
  · exact (h.onBinding ..).raise ..

theorem Moves.fire (h : Moves s t) (b : Nat) (x : Binding) (source : FiringSource) (p q : Option Nat) :
    Moves s (t.fire b x source p q) := ((h.withOffered _).perform ..).withOffered _

theorem Moves.offer (h : Moves s t) (key : StationInput) (p q : Option Nat) (b : Nat) :
    Moves s (t.offer key p q b) := by
  unfold State.offer
  split
  · exact .ite (fun _ => h.fire ..) fun _ => h
  · exact h

theorem Moves.report (h : Moves s t) (key : StationInput) (g : Gesture) (p q : Option Nat) :
    Moves s (t.report key g p q) :=
  h.foldl _ fun _ b hu => hu.offer key p q b

end Sys2Proof.Machine
end

