-- ==== Sys2Proof/Laws/MovesLines.lean ====
section
/-! SUPPORT. The moves of the gestures, the groups, the station lines and the rack link. -/

namespace Sys2Proof.Machine

-- One theorem at a time: proofs that wait for each other hold a thread each, and the package is one text when checked.
set_option Elab.async false

variable {s t u : State}

/-! ## Gestures -/

/-- The key records of a kind are in order (R98). -/
theorem StationKind.keyRecords_inOrder (k : StationKind) : Table.InOrder k.keyRecords := by
  unfold Table.InOrder
  cases k <;> decide

theorem Moves.dropHoldings (h : Moves s t) (key : StationInput) : Moves s (t.dropHoldings key) := by
  unfold State.dropHoldings
  split
  · exact h
  · exact (h.foldl _ fun _ p hu => .ite (fun _ => hu.remove ..) fun _ => hu).onKey ..

theorem Moves.letGo (h : Moves s t) (key : StationInput) : Moves s (t.letGo key) := (h.dropHoldings key).withRepeats _

theorem Moves.firstPress (h : Moves s t) (key : StationInput) (stamp : Option Stamp) : Moves s (t.firstPress key stamp) :=
  (h.onKey ..).report ..

theorem Moves.secondPress (h : Moves s t) (key : StationInput) (stamp : Option Stamp) :
    Moves s (t.secondPress key stamp) :=
  ((h.onKey ..).report ..).report ..

theorem Moves.pressNow (h : Moves s t) (key : StationInput) : Moves s (t.pressNow key) := (h.onKey ..).report ..

theorem Moves.synthesizedUp (h : Moves s t) (key : StationInput) (was : KeyState) :
    Moves s (t.synthesizedUp key was) := by
  have up := (h.letGo key).onKey key .toUp
  cases was
  · exact up
  · exact up.report ..
  · exact (up.report ..).report ..
  · exact up
  · exact up

theorem Moves.keyDown (h : Moves s t) (key : StationInput) (r : KeyRecord) (stamp : Stamp) :
    Moves s (t.keyDown key r stamp) := by
  unfold State.keyDown
  split
  · exact h.firstPress ..
  · exact .ite (fun _ => h.secondPress ..) fun _ => (h.pressNow key).firstPress ..
  · exact (h.synthesizedUp ..).firstPress ..
  · exact (h.synthesizedUp ..).firstPress ..
  · exact h

theorem Moves.keyUp (h : Moves s t) (key : StationInput) (r : KeyRecord) (stamp : Stamp) :
    Moves s (t.keyUp key r stamp) := by
  unfold State.keyUp
  have up := (h.onKey key fun r => { r with holdTimer := none, stuckTimer := none }).letGo key
  split
  · exact up
  · exact up
  · exact up.onKey ..
  · exact ((up.onKey ..).report ..).report ..
  · exact .ite (fun _ => (up.onKey ..).report ..) fun _ =>
      .ite (fun _ => (((up.onKey ..).report ..).report ..).report ..) fun _ =>
      .ite (fun _ => (up.onKey ..).report ..) fun _ => ((up.onKey ..).report ..).report ..

theorem Moves.holdExpiry (h : Moves s t) (key : StationInput) : Moves s (t.holdExpiry key) := by
  unfold State.holdExpiry
  split
  · exact .ite (fun _ => (h.onKey ..).report ..) fun _ => h
  · exact h

theorem Moves.doubleExpiry (h : Moves s t) (key : StationInput) : Moves s (t.doubleExpiry key) := by
  unfold State.doubleExpiry
  split
  · exact .ite (fun _ => h.pressNow key) fun _ => h
  · exact h

theorem Moves.stuckExpiry (h : Moves s t) (key : StationInput) : Moves s (t.stuckExpiry key) := by
  unfold State.stuckExpiry
  split
  · exact .ite (fun _ => ((h.onKey ..).letGo key).raise _) fun _ => h
  · exact h

theorem Moves.contactEvent (h : Moves s t) (key : StationInput) (edge : EdgeMode) (closing : Bool) :
    Moves s (t.contactEvent key edge closing) := by
  unfold State.contactEvent
  exact .ite (fun _ => .ite (fun _ => h.onKey ..) fun _ => (h.onKey ..).report ..) fun _ =>
    .ite (fun _ => (h.withRepeats _).onKey ..) fun _ => ((h.letGo key).onKey ..).report ..

theorem Moves.faderMove (h : Moves s t) (key : StationInput) (r : KeyRecord) (position : Nat) :
    Moves s (t.faderMove key r position) := (h.report ..).onKey ..

theorem Moves.stationEvent (h : Moves s t) (l : Line) (a : Nat) (e : StationEvent) : Moves s (t.stationEvent l a e) := by
  unfold State.stationEvent
  dsimp only
  split
  · exact h
  · split
    · exact h.keyDown ..
    · exact h.keyUp ..
    · exact h.contactEvent ..
    · exact h.contactEvent ..
    · exact h.faderMove ..
    · exact h

theorem Moves.compareInput (h : Moves s t) (l : Line) (a : Nat) (reading : Nat × InputReading) :
    Moves s (t.compareInput l a reading) := by
  unfold State.compareInput
  dsimp only
  split
  · exact h
  · split
    · split
      · exact h.firstPress ..
      · exact (h.pressNow _).firstPress ..
      all_goals exact h
    · split
      · exact h.synthesizedUp ..
      · exact h.synthesizedUp ..
      · exact h.synthesizedUp ..
      all_goals exact h
    · exact .ite (fun _ => h) fun _ => h.contactEvent ..
    · exact .ite (fun _ => h) fun _ => h.faderMove ..
    · exact h

theorem Moves.compareSnapshot (h : Moves s t) (l : Line) (a : Nat) (inputs : List (Nat × InputReading)) :
    Moves s (t.compareSnapshot l a inputs) :=
  h.foldl _ fun _ x hu => hu.compareInput l a x

theorem Moves.clearCaptures (h : Moves s t) (l : Line) (a : Nat) : Moves s (t.clearCaptures l a) :=
  h.step (.setBindings _ _)

theorem Moves.gestureMissing (h : Moves s t) (l : Line) (a : Nat) : Moves s (t.gestureMissing l a) := by
  unfold State.gestureMissing
  exact .ite (fun _ => h) fun _ => (h.foldl _ fun _ k hu => (hu.onKey k _).letGo k).clearCaptures l a

theorem Moves.gestureReturn (h : Moves s t) (l : Line) (a : Nat) : Moves s (t.gestureReturn l a) :=
  h.foldl _ fun _ k hu => hu.onKey k _

theorem Moves.discardKeys (h : Moves s t) (l : Line) (a : Nat) : Moves s (t.discardKeys l a) :=
  ((h.foldl _ fun _ k hu => hu.letGo k).clearCaptures l a).onStation l a _ fun _ _ => List.Pairwise.nil

/-! ## Groups -/

theorem Moves.pruneWaiting (h : Moves s t) (group : Nat) (g : Group) (l : Line) : Moves s (t.pruneWaiting group g l) :=
  .ite (fun _ => h) fun _ => h.onUnit _ _ (by intro u; rfl)

/-- The groups that wait are those that waited and the one that came (R133). -/
@[simp] theorem mem_insertWaiting {group i : Nat} {waiting : List Nat} :
    i ∈ insertWaiting group waiting ↔ i = group ∨ i ∈ waiting := by
  induction waiting with
  | nil => simp [insertWaiting]
  | cons x rest ih =>
    rw [insertWaiting]
    split
    · simp_all
    · split
      · simp
      · simp only [List.mem_cons, ih]
        tauto

/-- A group that comes to wait takes its place in the order (R120). -/
theorem insertWaiting_pairwise {waiting : List Nat} (h : waiting.Pairwise (· < ·)) (group : Nat) :
    (insertWaiting group waiting).Pairwise (· < ·) := by
  induction waiting with
  | nil => simp [insertWaiting]
  | cons x rest ih =>
    rw [List.pairwise_cons] at h
    rw [insertWaiting]
    split
    · exact List.pairwise_cons.2 h
    · split
      · refine List.pairwise_cons.2 ⟨fun i hi => ?_, List.pairwise_cons.2 h⟩
        obtain rfl | hi := List.mem_cons.1 hi
        · assumption
        · have := h.1 i hi
          omega
      · refine List.pairwise_cons.2 ⟨fun i hi => ?_, ih h.2⟩
        obtain rfl | hi := mem_insertWaiting.1 hi
        · omega
        · exact h.1 i hi

theorem Moves.wait (h : Moves s t) (group : Nat) (l : Line) : Moves s (t.wait group l) :=
  h.onUnit _ _ (by intro u; rfl) fun _ hw => insertWaiting_pairwise hw group

theorem Moves.onDelivery (h : Moves s t) (group : Nat) (f : DeliveryEntry → DeliveryEntry) :
    Moves s (t.onDelivery group f) := by
  unfold State.onDelivery
  split
  · exact h
  · exact Moves.pruneWaiting (.pruneWaiting (.ite (fun _ => (h.onGroup ..).raise _) fun _ => h.onGroup ..) ..) ..

theorem Moves.offlineWhere (h : Moves s t) (test : Member → Bool) : Moves s (t.offlineWhere test) :=
  h.foldl _ fun _ g hu => hu.onDelivery g _

theorem Moves.settleQuery (h : Moves s t) (group : Nat) (m : Member) (how : QueryEnd) :
    Moves s (t.settleQuery group m how) :=
  Moves.onDelivery (.ite (fun _ => h.wait ..) fun _ => h) ..

theorem Moves.forgetQueries (h : Moves s t) (group : Nat) : Moves s (t.forgetQueries group) := by
  unfold State.forgetQueries
  exact (h.onUnit _ _ (by intro u; rfl)).onUnit _ _ (by intro u; rfl)

theorem Moves.deliver (h : Moves s t) (group : Nat) (banner : LampState) : Moves s (t.deliver group banner) := by
  unfold State.deliver
  split
  · exact h
  · have begun (g : Group) := (h.forgetQueries group).onGroup group fun _ => g
    have first (g : Group) : Moves s (if g.pendingOn .a then
        ((t.forgetQueries group).onGroup group fun _ => g).wait group .a
        else ((t.forgetQueries group).onGroup group fun _ => g).pruneWaiting group g .a) :=
      .ite (fun _ => (begun g).wait ..) fun _ => (begun g).pruneWaiting ..
    refine .ite (fun _ => ?_) fun _ => Moves.raise ?_ _
    all_goals exact .ite (fun _ => (first _).wait ..) fun _ => (first _).pruneWaiting ..

theorem Moves.setMembers (h : Moves s t) (group : Nat) (members : List Member) :
    Moves s (t.setMembers group members) := by
  unfold State.setMembers
  split
  · exact h
  · refine Moves.onUnitStations (.onUnitStations ((((h.forgetQueries group).onGroup ..).pruneWaiting ..).pruneWaiting ..) _ _
      ?_) _ _ ?_
    all_goals intro u; dsimp only; exact ⟨_, rfl, fun _ _ hk => by split <;> exact hk⟩

theorem Moves.leaveGroups (h : Moves s t) (m : Member) : Moves s (t.leaveGroups m) :=
  (h.offlineWhere _).step (.setGroups _ _)

theorem Moves.complete (h : Moves s t) (r : Reply) : Moves s (t.complete r) := by
  unfold State.complete
  split
  · exact h.placeAnswer ..
  · exact h

/-! ## Station lines -/

theorem Moves.deriveLamps (h : Moves s t) (l : Line) (a : Nat) : Moves s (t.deriveLamps l a) := h.onStation ..

theorem Moves.enterOnline (h : Moves s t) (l : Line) (a : Nat) : Moves s (t.enterOnline l a) := by
  have online := h.onStation l a (fun st => { st.forgetLamps with
      state := .online
      keys := if (t.keysOf l a).isEmpty then st.setup.kind.keyRecords else st.keys }) fun st hk => by
    dsimp only
    split
    · exact StationKind.keyRecords_inOrder _
    · exact hk
  exact Moves.raise (.ite (fun _ => online) fun _ => online.gestureReturn ..) _

theorem Moves.enterMissing (h : Moves s t) (l : Line) (a : Nat) : Moves s (t.enterMissing l a) :=
  (((h.onStation ..).gestureMissing l a).offlineWhere _).raise _

theorem Moves.enterMismatch (h : Moves s t) (l : Line) (a : Nat) : Moves s (t.enterMismatch l a) :=
  (((h.onStation ..).discardKeys l a).offlineWhere _).raise _

theorem Moves.stationMiss (h : Moves s t) (l : Line) (a : Nat) : Moves s (t.stationMiss l a) := by
  have reach := Moves.ite (p := (t.unit l).state = .split)
    (fun _ => h.onStation l a fun st => { st with reach := none }) fun _ => h
  unfold State.stationMiss
  dsimp only
  split
  · exact reach
  · exact .ite (fun _ => .ite (fun _ => (reach.onStation ..).enterMissing l a) fun _ => reach.onStation ..) fun _ => reach

theorem Moves.acceptEvents (h : Moves s t) (l : Line) (a : Nat) (es : List StationEvent) :
    Moves s (t.acceptEvents l a es) := by
  induction es generalizing t with
  | nil => exact h
  | cons e es ih =>
    exact .ite (fun _ => ih ((h.onStation ..).stationEvent ..)) fun _ => .ite (fun _ => ih h) fun _ => h.onStation ..

theorem Moves.noteAnswered (h : Moves s t) (l : Line) (c : StationCall) (side : LineEnd) :
    Moves s (t.noteAnswered l c side) :=
  h.onStation l c.address _ fun _ hk => by cases c.lampsSent <;> exact hk

theorem Moves.wrongKind (h : Moves s t) (l : Line) (a : Nat) (state : StationState) :
    Moves s (t.wrongKind l a state) := .ite (fun _ => h) fun _ => h.enterMismatch l a

theorem Moves.takeAnswer (h : Moves s t) (l : Line) (c : StationCall) (side : LineEnd) (f : AnswerFrame) :
    Moves s (t.takeAnswer l c side f) := by
  have noted := h.noteAnswered l c side
  unfold State.takeAnswer
  dsimp only
  split
  · exact noted
  · refine .ite (fun _ => noted.wrongKind ..) fun _ => ?_
    split
    · exact noted.onStation ..
    · exact noted.onStation ..
    · exact noted.onStation ..
    · exact (noted.onStation ..).enterOnline ..
    · have configured := Moves.ite (p := c.frame = .configure)
        (fun _ => noted.onStation l c.address fun st => { st with configurePending := false }) fun _ => noted
      have accepted := configured.acceptEvents l c.address f.events
      have overrun := Moves.ite (p := f.overrun = true)
        (fun _ => accepted.onStation l c.address fun st => { st with snapshotNeeded := true }) fun _ => accepted
      split
      · exact overrun.settleQuery ..
      · exact overrun

theorem Moves.takeSnapshot (h : Moves s t) (l : Line) (c : StationCall) (side : LineEnd) (f : SnapshotFrame) :
    Moves s (t.takeSnapshot l c side f) := by
  have noted := h.noteAnswered l c side
  unfold State.takeSnapshot
  dsimp only
  split
  · exact noted
  · exact .ite (fun _ => noted.wrongKind ..) fun _ =>
      .ite (fun _ => (noted.onStation ..).compareSnapshot ..) fun _ => noted

theorem Moves.missedCall (h : Moves s t) (l : Line) (c : StationCall) (how : QueryEnd) :
    Moves s (t.missedCall l c how) := by
  unfold State.missedCall
  dsimp only
  split
  · exact (h.settleQuery ..).stationMiss ..
  · exact h.stationMiss ..

theorem Moves.endCall (h : Moves s t) (l : Line) (c : StationCall) (how : SlotEnd) : Moves s (t.endCall l c how) := by
  have left := Moves.ite (p := c.fromProbeList = true)
    (fun _ => h.onUnit l (fun u => { u with probeList := u.probeList.erase c.address }) fun _ => rfl) fun _ => h
  unfold State.endCall
  refine .ite (fun _ => left) fun _ => ?_
  split
  · exact .ite (fun _ => left.missedCall ..) fun _ => left.takeAnswer ..
  · exact .ite (fun _ => left.takeSnapshot ..) fun _ => left.missedCall ..
  · exact left.missedCall ..
  · exact left.missedCall ..

theorem Moves.endSurveySlot (h : Moves s t) (l : Line) (a : Nat) (how : SlotEnd) :
    Moves s (t.endSurveySlot l a how) := by
  unfold State.endSurveySlot
  split
  · exact h
  · exact .ite (fun _ => h.onUnit _ _ (by intro u; rfl)) fun _ =>
      (h.onUnit _ _ (by intro u; dsimp only; split <;> rfl)).complete _

theorem Moves.endSlot (h : Moves s t) (l : Line) (x : Slot) (how : SlotEnd) : Moves s (t.endSlot l x how) := by
  have ended := h.onUnit l (fun u => { u with slot := none }) fun _ => rfl
  unfold State.endSlot
  dsimp only
  split
  · exact ended.endCall ..
  · exact ended.endSurveySlot ..
  · exact ended
  · exact ended

theorem Moves.answerHeard (h : Moves s t) (l : Line) (heard : List Heard) : Moves s (t.answerHeard l heard) := by
  unfold State.answerHeard
  split
  · exact h
  · split
    · exact h.endSlot ..
    · exact .ite (fun _ => h) fun _ => h.endSlot ..

theorem Moves.snapshotHeard (h : Moves s t) (l : Line) (heard : List Heard) : Moves s (t.snapshotHeard l heard) := by
  unfold State.snapshotHeard
  split
  · exact h
  · split
    · exact h.endSlot ..
    · exact .ite (fun _ => h) fun _ => h.endSlot ..

theorem Moves.windowExpiry (h : Moves s t) (l : Line) : Moves s (t.windowExpiry l) := by
  unfold State.windowExpiry
  split
  · exact h
  · split
    · exact .ite (fun _ => h.onUnit _ _ (by intro u; rfl)) fun _ => h.endSlot ..
    · exact h.endSlot ..

theorem Moves.loseLine (h : Moves s t) (l : Line) : Moves s (t.loseLine l) := by
  unfold State.loseLine
  exact (h.foldl _ fun _ a hu => hu.gestureMissing l a).offlineWhere _

theorem Moves.enterSplit (h : Moves s t) (l : Line) : Moves s (t.enterSplit l) :=
  (h.onUnitStations _ _ (by intro u; dsimp only; exact ⟨_, rfl, fun _ _ hk => hk⟩)).raise _

theorem Moves.heal (h : Moves s t) (l : Line) : Moves s (t.heal l) :=
  (h.onUnitStations _ _ (by intro u; dsimp only; exact ⟨_, rfl, fun _ _ hk => hk⟩)).raise _

theorem Moves.bringIntact (h : Moves s t) (l : Line) : Moves s (t.bringIntact l) :=
  ((h.onUnitStations _ _ (by intro u; dsimp only; exact ⟨_, rfl, fun _ _ hk => by split <;> exact hk⟩)).foldl _
    fun _ a hu => hu.gestureReturn l a).raise _

theorem Moves.foreignHeard (h : Moves s t) (l : Line) : Moves s (t.foreignHeard l) := by
  unfold State.foreignHeard
  dsimp only
  have lost : Moves s (((if (t.unit l).survey.isSome = true then
      (t.onUnit l fun u => { u.stop with state := .contested, survey := none }).complete { result := .lineBusy }
      else t.onUnit l fun u => { u.stop with state := .contested, survey := none }).loseLine l).raise .lines) :=
    Moves.raise (Moves.loseLine (.ite (fun _ => (h.onUnit _ _ (by intro u; rfl)).complete _) fun _ =>
      h.onUnit _ _ (by intro u; rfl)) l) _
  split
  · exact (h.onUnit _ _ (by intro u; rfl)).complete _
  · exact h
  · exact ((h.onUnit _ _ (by intro u; rfl)).raise _).complete _
  · exact h
  · exact h
  · exact lost
  · exact lost

theorem Moves.markedSent (h : Moves s t) (l : Line) (echo : Bool) : Moves s (t.markedSent l echo) := by
  have counted (f : LineUnit → Nat) := h.onUnit l (fun u => { u with continuity := f u }) fun _ => rfl
  unfold State.markedSent
  dsimp only
  split
  · exact h
  · refine .ite (fun _ => h) fun _ => ?_
    split
    · exact .ite (fun _ => counted _) fun _ => .ite (fun _ => h.enterSplit l) fun _ => counted _
    · exact .ite (fun _ => h) fun _ => .ite (fun _ => counted _) fun _ => .ite (fun _ => h.heal l) fun _ => counted _
    · exact h
    · exact h

theorem Moves.frameSent (h : Moves s t) (l : Line) : Moves s (t.frameSent l) := by
  unfold State.frameSent
  split
  · exact h
  · split
    · exact h
    · exact h.onUnit _ _ (by intro u; rfl)
    · split <;> exact h.onUnit _ _ (by intro u; rfl)

theorem Moves.beginSlot (h : Moves s t) (l : Line) (carries : SlotUse) (content : List (List Byte))
    (sides : LineEnd × Option LineEnd) : Moves s (t.beginSlot l carries content sides) := by
  unfold State.beginSlot
  exact h.onUnit _ _ (by intro u; rfl)

theorem Moves.beginCall (h : Moves s t) (l : Line) (a : Nat) (fromProbeList : Bool) :
    Moves s (t.beginCall l a fromProbeList) := by
  have derived := h.deriveLamps l a
  unfold State.beginCall
  dsimp only
  split
  · exact derived
  · split
    · exact derived.beginSlot ..
    · exact .ite (fun _ => derived.beginSlot ..) fun _ => .ite (fun _ => derived.beginSlot ..) fun _ =>
        .ite (fun _ => derived.beginSlot ..) fun _ => derived.beginSlot ..
    all_goals exact derived.beginSlot ..

theorem Moves.beginStationCall (h : Moves s t) (l : Line) : Moves s (t.beginStationCall l) := by
  unfold State.beginStationCall
  dsimp only
  split
  · exact (h.onUnit _ _ (by intro u; rfl)).beginCall ..
  · exact (h.onUnit _ _ (by intro u; rfl)).beginCall ..
  · exact .ite (fun _ => (h.onUnit _ _ (by intro u; rfl)).beginCall ..) fun _ => (h.onUnit _ _ (by intro u; rfl)).beginCall ..
  · exact h

theorem Moves.startSlot (h : Moves s t) (l : Line) : Moves s (t.startSlot l) := by
  unfold State.startSlot
  refine .ite (fun _ => h) fun _ => ?_
  split
  · exact h.beginSlot ..
  · refine .ite (fun _ => (h.onUnit _ _ (by intro u; rfl)).beginSlot ..) fun _ => ?_
    split
    · exact h.beginSlot ..
    · exact h.beginStationCall l

theorem Moves.probeExpiry (h : Moves s t) (l : Line) : Moves s (t.probeExpiry l) :=
  .ite (fun _ => h) fun _ => h.onUnit _ _ (by intro u; dsimp only; split <;> rfl)

theorem Moves.healExpiry (h : Moves s t) (l : Line) : Moves s (t.healExpiry l) :=
  .ite (fun _ => h) fun _ => h.onUnit _ _ (by intro u; dsimp only; split <;> rfl)

theorem Moves.listenExpiry (h : Moves s t) (l : Line) : Moves s (t.listenExpiry l) :=
  .ite (fun _ => h) fun _ => (h.bringIntact l).complete _

/-! ## The rack link -/

theorem Moves.serveRack (h : Moves s t) (rack : Option Nat) : Moves s (t.serveRack rack) := h.withRackSlot _

theorem Moves.beginRound (h : Moves s t) : Moves s t.beginRound := (h.serveRack _).withRoundTimer _

theorem Moves.endRackSlot (h : Moves s t) (rack : Nat) : Moves s (t.endRackSlot rack) := by
  unfold State.endRackSlot
  split
  · exact h.serveRack _
  · exact .ite (fun _ => h.beginRound) fun _ => h.serveRack _

theorem Moves.roundExpiry (h : Moves s t) : Moves s t.roundExpiry :=
  .ite (fun _ => h) fun _ => .ite (fun _ => h.withRoundTimer _) fun _ => h.beginRound

theorem Moves.levelFrameSent (h : Moves s t) : Moves s t.levelFrameSent := by
  unfold State.levelFrameSent
  split
  · split
    · exact (h.onRack ..).withRackSlot _
    · exact h
  · exact h

theorem Moves.takeReply (h : Moves s t) (rack : Nat) (f : RackReplyFrame) : Moves s (t.takeReply rack f) := by
  unfold State.takeReply
  split
  · exact h
  · rename_i r _
    have taken := h.onRack rack fun r =>
      { r with status := some f.status, faults := f.faults, missCount := 0, state := .online }
    have status := Moves.ite (p := r.status = some f.status) (fun _ => taken) fun _ => taken.raise .racks
    have faults := Moves.ite (p := r.faults = f.faults) (fun _ => status) fun _ => status.raise .faults
    exact .ite (fun _ => faults) fun _ => (faults.raise _).reportRackOnline _

theorem Moves.replyHeard (h : Moves s t) (chars : List Character) : Moves s (t.replyHeard chars) := by
  unfold State.replyHeard
  split
  · exact .ite (fun _ => (h.takeReply ..).endRackSlot _) fun _ => h
  · exact h

theorem Moves.missReply (h : Moves s t) (rack : Nat) : Moves s (t.missReply rack) := by
  unfold State.missReply
  split
  · exact h
  · exact .ite (fun _ => .ite (fun _ => (h.onRack ..).raise _) fun _ => h.onRack ..) fun _ => h

theorem Moves.replyWindowExpiry (h : Moves s t) : Moves s t.replyWindowExpiry := by
  unfold State.replyWindowExpiry
  split
  · exact h
  · exact Moves.endRackSlot (.ite (fun _ => h.missReply _) fun _ => h) _

theorem Moves.configureRack (h : Moves s t) (rack : Nat) : Moves s (t.configureRack rack) := (h.onRack ..).raise _

theorem Moves.unconfigureRack (h : Moves s t) (rack : Nat) : Moves s (t.unconfigureRack rack) :=
  Moves.raise (.ite (fun _ => ((h.onRack ..).withRackSlot _).raise _) fun _ => (h.onRack ..).withRackSlot _) _

end Sys2Proof.Machine
end

