-- ==== Sys2Proof/Laws/MovesCommands.lean ====
section
/-! SUPPORT. The moves of the requests, of a transfer's end and of every command. -/

namespace Sys2Proof.Machine

-- One theorem at a time: proofs that wait for each other hold a thread each, and the package is one text when checked.
set_option Elab.async false

variable {s t u : State}

/-! ## The work of a request -/

/-- The state a request's work leaves. -/
def Work.state : Work → State
  | .answered _ s => s
  | .inWork s => s
  | .ended s => s

theorem Moves.inOrder (h : Moves s t) {checks : List (Bool × Result)} {taken : Work} (k : Moves s taken.state) :
    Moves s (t.inOrder checks taken).state := by
  unfold State.inOrder
  split
  · exact h
  · exact k

theorem Moves.parsed {α : Type} (h : Moves s t) (p : Parsed α) {taken : α → Work} (k : ∀ v, Moves s (taken v).state) :
    Moves s (t.parsed p taken).state := by
  unfold State.parsed
  split
  · exact h
  · split
    · exact h
    · exact h
    · exact k _

/-! ### Circuits and zones -/

theorem Moves.afterConfigure (h : Moves s t) (id : Nat) (b : Bool) : Moves s (t.afterConfigure id b) := by
  unfold State.afterConfigure
  refine .ite (fun _ => h.step (.circuit _ _ _ fun x => ?_)) fun _ => h.step (.circuit _ _ _ fun x => .beginPending _ x)
  dsimp only
  split
  · rename_i hk
    unfold Transition.need
    split
    · exact .begin x hk.2.2 (.inl hk.1)
    · exact .pend x _ hk.1
  · exact .refl x

theorem Moves.newCircuit (h : Moves s t) (id : Nat) (c : CircuitConfig) : Moves s (t.newCircuit id c) := by
  have put := (h.step (.newCircuit t id c)).resolve id 0
  unfold State.newCircuit
  have placed := Moves.ite (p := (c.egress && t.latch) = true) (fun _ => put.place id egressClaim) fun _ => put
  exact .ite (fun _ => placed.afterConfigure ..) fun _ => placed

theorem Moves.changeCircuit (h : Moves s t) (id : Nat) {x : Circuit} (new : CircuitConfig)
    (hx : Table.at? t.circuits id = some x)
    (free : x.transition.phase.inTransfer = false ∨
      (x.config.kind = new.kind ∧ x.config.house = new.house ∧ x.config.stage = new.stage)) :
    Moves s (t.changeCircuit id x.config new) := by
  have stored : Moves s (t.onCircuit id fun x =>
      ({ x with config := new, transition := x.transition.reconfigured x.config new } : Circuit).redorm t.mode) := by
    have two := (h.step (.reconfigure t id x new hx free)).step (.circuit _ id (·.redorm t.mode) fun x => .redorm x _)
    convert two using 1
    simp only [State.onCircuit, State.withCircuits, Table.adjust, List.map_map]
    congr 1
    refine List.map_congr_left fun e _ => ?_
    dsimp
    split <;> simp_all
  unfold State.changeCircuit
  dsimp only
  have egress := Moves.ite (p := ((t.onCircuit id fun x =>
      ({ x with config := new, transition := x.transition.reconfigured x.config new } : Circuit).redorm t.mode).latch &&
      new.egress && !x.config.egress) = true) (fun _ => stored.place id egressClaim) fun _ =>
    Moves.ite (p := ((t.onCircuit id fun x =>
      ({ x with config := new, transition := x.transition.reconfigured x.config new } : Circuit).redorm t.mode).latch &&
      x.config.egress && !new.egress) = true) (fun _ => stored.remove false .egress id) fun _ => stored
  exact .ite (fun _ => (egress.resolve ..).afterConfigure ..) fun _ => egress.resolve ..

theorem Moves.dropCircuit (h : Moves s t) (id : Nat) : Moves s (t.dropCircuit id) :=
  (h.step (.dropCircuit t id)).foldl _ fun _ o hu => hu.departed true o

theorem Moves.configureCircuit (h : Moves s t) (body : List Byte) :
    Moves s (Sys2Proof.Machine.configureCircuit body t).state := by
  unfold Sys2Proof.Machine.configureCircuit
  refine h.parsed _ fun v => ?_
  obtain ⟨id, c⟩ := v
  dsimp only
  unfold State.inOrder
  split
  · exact h
  · rename_i hc
    show Moves s (match Table.at? t.circuits id with
      | none => t.newCircuit id c
      | some x => t.changeCircuit id x.config c)
    split
    · exact h.newCircuit id c
    · rename_i x hx
      refine h.changeCircuit id c hx ?_
      by_cases ht : x.transition.phase.inTransfer = false
      · exact .inl ht
      · right
        rw [List.find?_eq_none] at hc
        have := hc ((Table.at? t.circuits id).any fun x => x.transition.phase.inTransfer &&
          (x.config.kind != c.kind || x.config.house != c.house || x.config.stage != c.stage), .notNow) (by simp)
        simp only [hx, Option.any_some] at this
        simp_all

theorem Moves.configureZone (h : Moves s t) (body : List Byte) :
    Moves s (Sys2Proof.Machine.configureZone body t).state := by
  unfold Sys2Proof.Machine.configureZone
  refine h.parsed _ fun v => ?_
  dsimp only
  unfold State.configureZone
  split
  · exact h.step (.putZone t _ _)
  · exact h.inOrder (taken := .done _) (h.step (.dropZone t _))

theorem Moves.setHostLevel (h : Moves s t) (body : List Byte) :
    Moves s (Sys2Proof.Machine.setHostLevel body t).state := by
  unfold Sys2Proof.Machine.setHostLevel
  split
  · rename_i ih il tier lh ll fh fl
    refine h.inOrder ?_
    unfold State.placeHost
    have placed := h.place (be16 ih il) (hostClaim tier.toNat (min 1000 (be16 lh ll)) (min 6000 (be16 fh fl)))
    dsimp only
    split
    · rename_i heq; rw [heq] at placed; exact placed
    · rename_i heq; rw [heq] at placed; exact placed.step (.circuit _ _ _ fun x => .mark x false)
  · exact h

theorem Moves.releaseHostLevel (h : Moves s t) (body : List Byte) :
    Moves s (Sys2Proof.Machine.releaseHostLevel body t).state := by
  unfold Sys2Proof.Machine.releaseHostLevel
  split
  · dsimp only
    split
    · exact h
    · split
      · exact h
      · split
        · exact (h.remove ..).step (.circuit _ _ _ fun x => .mark x false)
        · exact h.step (.circuit _ _ _ fun x => .mark x false)
  · exact h

/-! ### Bindings and scenes -/

theorem Moves.readNotified (h : Moves s t) (body : List Byte) :
    Moves s (Sys2Proof.Machine.readNotified body t).state := by
  unfold Sys2Proof.Machine.readNotified
  split
  · exact h.foldl (f := fun s b => s.onBinding b fun x => { x with notifyPending := false }) _
      fun _ b hu => hu.onBinding b _
  · exact h

theorem Moves.fireFromHost (h : Moves s t) (id : Nat) (position : Option Nat) :
    Moves s (t.fireFromHost id position).state := by
  unfold State.fireFromHost
  split
  · exact h
  · split
    · exact h
    · split
      · exact h
      · exact h.inOrder (h.fire ..)

theorem Moves.beginSave (h : Moves s t) : Moves s t.beginSave := h.step (.beginSave t)

theorem Moves.retireHouse (h : Moves s t) : Moves s t.retireHouse := h.foldl _ fun _ b hu => hu.retire b

theorem Moves.writeScene (h : Moves s t) (body : List Byte) :
    Moves s (Sys2Proof.Machine.writeScene body t).state := by
  unfold Sys2Proof.Machine.writeScene
  refine h.parsed _ fun v => ?_
  obtain ⟨n, d⟩ := v
  dsimp only
  refine h.inOrder ?_
  show Moves s (match Table.at? t.scenes n with
    | some x => if t.live n then t.rewriteLive n x d else t.withScenes (Table.put t.scenes n (.define d))
    | none => t.withScenes (Table.put t.scenes n (.define d)))
  split
  · exact .ite (fun _ => h.rewriteLive ..) fun _ => h.step (.putScene ..)
  · exact h.step (.putScene ..)

/-! ### Stations and lines -/

theorem Moves.configureStation (h : Moves s t) (l : Line) (a : Nat) (setup : StationSetup) :
    Moves s (t.configureStation l a setup) := by
  unfold State.configureStation
  split
  · exact h.step (.unit t l _ fun _ hu => ⟨Table.inOrder_put hu.1 a _,
      Table.forall_mem_put (p := fun (e : Nat × Station) => Table.InOrder e.2.keys) hu.2.1 List.Pairwise.nil, hu.2.2⟩)
  · exact .ite (fun _ => h.onStation ..) fun _ =>
      (((h.discardKeys l a).onStation ..).offlineWhere _).onUnit _ _ (by intro u; rfl)

theorem Moves.removeStation (h : Moves s t) (l : Line) (a : Nat) : Moves s (t.removeStation l a) :=
  ((h.discardKeys l a).leaveGroups ⟨l, a⟩).step (.unit ((t.discardKeys l a).leaveGroups ⟨l, a⟩) l
    (fun u => { (u.voidSlot a) with
      stations := Table.remove u.stations a, probeList := u.probeList.filter (· != a) })
    fun _ hu => ⟨Table.inOrder_remove hu.1 a, Table.forall_mem_remove hu.2.1 a, hu.2.2⟩)

theorem Moves.turnOff (h : Moves s t) (l : Line) : Moves s (t.turnOff l) := by
  unfold State.turnOff
  have off := h.onUnit l (fun u => { u.stop with state := .off }) (by intro u; rfl)
  exact .ite (fun _ => h) fun _ => Moves.raise (.ite (fun _ => off.loseLine l) fun _ => off) _

theorem Moves.turnOn (h : Moves s t) (l : Line) : Moves s (t.turnOn l).state := by
  unfold State.turnOn
  split
  · exact h.bringIntact l
  all_goals exact h

theorem Moves.beginRestart (h : Moves s t) (l : Line) : Moves s (t.beginRestart l) := by
  have off := h.onUnit l LineUnit.stop (by intro u; rfl)
  unfold State.beginRestart
  exact Moves.onUnit (.ite (fun _ => off.loseLine l) fun _ => off) _ _ (by intro u; rfl)

/-! ### The image -/

theorem Moves.beginReset (h : Moves s t) (cause : ResetCause) : Moves s (t.beginReset cause) := by
  have silent := (h.onUnit .a (fun u => { u with slot := none }) (by intro u; rfl)).onUnit .b
    (fun u => { u with slot := none }) (by intro u; rfl)
  exact (silent.step (.dropSave _)).plain rfl

theorem Moves.startUp (h : Moves s t) (cause : ResetCause) : Moves s (t.startUp cause) :=
  ((h.step (.load t cause)).step (.circuits _ _ fun _ x => .resolve x _ _)).beginRound

theorem Moves.restart (h : Moves s t) : Moves s t.restart := (h.beginReset .request).startUp .request

/-! ### Every request -/

/-- A request's work is a chain of moves. -/
def Moving (work : State → Work) : Prop := ∀ s t, Moves s t → Moves s (work t).state

theorem moving_configureCircuit (body : List Byte) : Moving (configureCircuit body) := fun _ _ h => h.configureCircuit body

theorem moving_unconfigureCircuit (body : List Byte) : Moving (unconfigureCircuit body) := fun s t h => by
  unfold unconfigureCircuit
  split
  · exact h.inOrder (h.dropCircuit _)
  · exact h

theorem moving_readCircuit (body : List Byte) : Moving (readCircuit body) := fun s t h => by
  unfold readCircuit
  split
  · dsimp only
    split
    · exact h
    · split <;> exact h
  · exact h

theorem moving_setHostLevel (body : List Byte) : Moving (setHostLevel body) := fun _ _ h => h.setHostLevel body

theorem moving_releaseHostLevel (body : List Byte) : Moving (releaseHostLevel body) := fun _ _ h => h.releaseHostLevel body

theorem moving_configureZone (body : List Byte) : Moving (configureZone body) := fun _ _ h => h.configureZone body

theorem moving_setMaster (body : List Byte) : Moving (setMaster body) := fun s t h => by
  unfold setMaster
  split
  · exact h.inOrder (h.masterChange ..)
  · exact h

theorem moving_readZone (body : List Byte) : Moving (readZone body) := fun s t h => by
  unfold readZone
  split
  · split
    · exact h
    · split <;> exact h
  · exact h

theorem moving_writeBinding (body : List Byte) : Moving (writeBinding body) := fun s t h => by
  unfold writeBinding
  exact h.parsed _ fun v => h.inOrder (h.writeBinding ..)

theorem moving_readBinding (body : List Byte) : Moving (readBinding body) := fun s t h => by
  unfold readBinding
  split
  · dsimp only
    split
    · exact h
    · split <;> exact h
  · exact h

theorem moving_retireBinding (body : List Byte) : Moving (retireBinding body) := fun s t h => by
  unfold retireBinding
  split
  · exact h.inOrder (h.retire _)
  · exact h

theorem moving_suspendBinding (body : List Byte) : Moving (suspendBinding body) := fun s t h => by
  unfold suspendBinding
  split
  · exact h.inOrder (.ite (fun _ => h) fun _ => h.suspend _)
  · exact h

theorem moving_resumeBinding (body : List Byte) : Moving (resumeBinding body) := fun s t h => by
  unfold resumeBinding
  split
  · exact h.inOrder (h.resume _)
  · exact h

theorem moving_fireBinding (body : List Byte) : Moving (fireBinding body) := fun s t h => by
  unfold fireBinding
  split
  · exact h.fireFromHost ..
  · exact h.fireFromHost ..
  · exact h

theorem moving_readNotified (body : List Byte) : Moving (readNotified body) := fun _ _ h => h.readNotified body

theorem moving_setProtectSize (body : List Byte) : Moving (setProtectSize body) := fun s t h => by
  unfold setProtectSize
  exact h.parsed _ fun v => h.inOrder (h.plain rfl)

theorem moving_lockHouse (body : List Byte) : Moving (lockHouse body) := fun s t h => by
  unfold lockHouse
  split
  · exact h.inOrder (h.withHouseLock _).beginSave
  · exact h

theorem moving_eraseHouse (body : List Byte) : Moving (eraseHouse body) := fun s t h => by
  unfold eraseHouse
  split
  · exact h.inOrder (h.retireHouse.withHouseLock _).beginSave
  · exact h

theorem moving_writeScene (body : List Byte) : Moving (writeScene body) := fun _ _ h => h.writeScene body

theorem moving_readScene (body : List Byte) : Moving (readScene body) := fun s t h => by
  unfold readScene
  split
  · split
    · exact h
    · split <;> exact h
  · exact h

theorem moving_deleteScene (body : List Byte) : Moving (deleteScene body) := fun s t h => by
  unfold deleteScene
  split
  · exact h.inOrder ((h.releaseScene _).step (.dropScene ..))
  · exact h

theorem moving_recallScene (body : List Byte) : Moving (recallScene body) := fun s t h => by
  unfold recallScene
  split
  · exact h.inOrder (h.recall ..)
  · exact h

theorem moving_releaseScene (body : List Byte) : Moving (releaseScene body) := fun s t h => by
  unfold releaseScene
  split
  · exact h.inOrder (h.releaseScene _)
  · exact h

theorem moving_configureStation (body : List Byte) : Moving (configureStation body) := fun s t h => by
  unfold configureStation
  exact h.parsed _ fun v => h.configureStation ..

theorem moving_removeStation (body : List Byte) : Moving (removeStation body) := fun s t h => by
  unfold removeStation
  split
  · split
    · exact h
    · exact h.inOrder (h.removeStation ..)
  · exact h

theorem moving_readStation (body : List Byte) : Moving (readStation body) := fun s t h => by
  unfold readStation
  split
  · split
    · exact h
    · split
      · exact h
      · split <;> exact h
  · exact h

theorem moving_configureGroup (body : List Byte) : Moving (configureGroup body) := fun s t h => by
  unfold configureGroup
  exact h.parsed _ fun v => h.inOrder (h.setMembers ..)

theorem moving_sendGroupLamp (body : List Byte) : Moving (sendGroupLamp body) := fun s t h => by
  unfold sendGroupLamp
  split
  · split
    · exact h
    · exact h.inOrder (h.deliver ..)
  · exact h

theorem moving_readGroupResult (body : List Byte) : Moving (readGroupResult body) := fun s t h => by
  unfold readGroupResult
  split
  · split <;> exact h
  · exact h

theorem moving_survey (body : List Byte) : Moving (survey body) := fun s t h => by
  unfold survey
  split
  · split
    · exact h
    · rename_i l _
      exact h.inOrder (taken := .inWork _)
        (h.onUnit l (fun u => { u with survey := some ⟨1, [], false, false⟩ }) (by intro u; rfl))
  · exact h

theorem moving_lineControl (body : List Byte) : Moving (lineControl body) := fun s t h => by
  unfold lineControl
  split
  · split
    · refine h.inOrder ?_
      split
      · exact h.turnOn _
      · exact h.turnOff _
    · exact h
  · exact h

theorem moving_selectEnd (body : List Byte) : Moving (selectEnd body) := fun s t h => by
  unfold selectEnd
  split
  · split
    · split
      · rename_i l e _ _ _ _
        exact h.onUnit l (fun u => { u with active := e, continuity := 0 }) (by intro u; rfl)
      all_goals exact h
    · exact h
  · exact h

theorem moving_lineRestart (body : List Byte) : Moving (lineRestart body) := fun s t h => by
  unfold lineRestart
  split
  · split
    · exact h
    · exact h.inOrder (taken := .inWork _) (h.beginRestart _)
  · exact h

theorem moving_readLine (body : List Byte) : Moving (readLine body) := fun s t h => by
  unfold readLine
  split
  · split
    · exact h
    · rename_i l _
      exact h.onUnit l (fun u => { u with takenOver := false }) (by intro u; rfl)
  · exact h

theorem moving_setMode (body : List Byte) : Moving (setMode body) := fun s t h => by
  unfold setMode
  split
  · split
    · exact h
    · exact h.changeMode _
  · exact h

theorem moving_readMode (body : List Byte) : Moving (readMode body) := fun s t h => by
  unfold readMode
  split <;> exact h

theorem moving_clearEgress (body : List Byte) : Moving (clearEgress body) := fun s t h => by
  unfold clearEgress
  split
  · exact h.inOrder (.ite (fun _ => h.clearLatch) fun _ => h)
  · exact h

theorem moving_configureRack (body : List Byte) : Moving (configureRack body) := fun s t h => by
  unfold configureRack
  refine h.parsed _ fun v => ?_
  dsimp only
  split
  · exact .ite (fun _ => h) fun _ => h.configureRack _
  · exact h.inOrder (h.unconfigureRack _)

theorem moving_readRack (body : List Byte) : Moving (readRack body) := fun s t h => by
  unfold readRack
  split
  · split <;> exact h
  · exact h

theorem moving_setTimings (body : List Byte) : Moving (setTimings body) := fun s t h => by
  unfold setTimings
  refine h.parsed _ fun v => ?_
  obtain ⟨settings, p, q⟩ := v
  have ends := (h.onUnit .a (fun u => { u with preferred := p }) (by intro u; rfl)).onUnit .b
    (fun u => { u with preferred := q }) (by intro u; rfl)
  exact ends.plain rfl

theorem moving_saveImage (body : List Byte) : Moving (saveImage body) := fun _ _ h => h.inOrder h.beginSave

theorem moving_restart (body : List Byte) : Moving (restart body) := fun _ _ h =>
  h.inOrder (taken := .ended _) h.restart

theorem moving_identify (body : List Byte) : Moving (identify body) := fun _ _ h => h.inOrder (taken := .read _ _) h

theorem moving_readAttention (body : List Byte) : Moving (readAttention body) := fun _ _ h =>
  h.inOrder (taken := .read _ _) (h.plain rfl)

theorem moving_seeInstall {work : State → Work} (k : Moving work) (install : Bool) :
    Moving fun s => work (s.seeInstall install) := fun s _ h => k s _ (h.seeInstall install)

/-! ## Transfers -/

theorem Moves.takeRequest (h : Moves s t) {work : State → Work} (k : Moving work) (code tag : Byte) (body : List Byte) :
    Moves s (t.takeRequest code tag body work) := by
  unfold State.takeRequest
  refine .ite (fun _ => h) fun _ => ?_
  dsimp only
  split
  · refine .ite (fun _ => (h.shiftZeros _).placeAnswer ..) fun _ => ?_
    have worked := k s _ ((h.shiftZeros (3 + body.length)).withHostSlot (.working ⟨code, tag, body⟩))
    split
    · rename_i heq; rw [heq] at worked; exact worked.placeAnswer ..
    · rename_i heq; rw [heq] at worked; exact worked
    · rename_i heq; rw [heq] at worked; exact worked
  · exact (h.shiftZeros (3 + body.length)).plain (u := { t.shiftZeros (3 + body.length) with collision := true }) rfl

theorem Moves.takeMalformed (h : Moves s t) (n : Nat) (tag : Byte) : Moves s (t.takeMalformed n tag) := by
  unfold State.takeMalformed
  refine .ite (fun _ => h) fun _ => ?_
  dsimp only
  split
  · exact (h.shiftZeros _).placeAnswer ..
  · exact (h.shiftZeros n).plain (u := { t.shiftZeros n with collision := true }) rfl

theorem Moves.fetched (h : Moves s t) (n : Nat) : Moves s (t.fetched n) := .ite (fun _ => h) fun _ => h.plain rfl

theorem moving_requestOf {install : Bool} {code : Nat} {work : List Byte → State → Work}
    (h : requestOf install code = some work) (body : List Byte) : Moving (work body) := by
  unfold requestOf at h
  dsimp only at h
  split at h <;> first
    | (cases h; done)
    | (cases h
       first
       | exact moving_identify body
       | exact moving_readAttention body
       | exact moving_configureCircuit body
       | exact moving_unconfigureCircuit body
       | exact moving_readCircuit body
       | exact moving_setHostLevel body
       | exact moving_releaseHostLevel body
       | exact moving_configureZone body
       | exact moving_setMaster body
       | exact moving_readZone body
       | exact moving_seeInstall (moving_writeBinding body) install
       | exact moving_readBinding body
       | exact moving_seeInstall (moving_retireBinding body) install
       | exact moving_seeInstall (moving_suspendBinding body) install
       | exact moving_seeInstall (moving_resumeBinding body) install
       | exact moving_fireBinding body
       | exact moving_readNotified body
       | exact moving_seeInstall (moving_setProtectSize body) install
       | exact moving_seeInstall (moving_lockHouse body) install
       | exact moving_seeInstall (moving_eraseHouse body) install
       | exact moving_writeScene body
       | exact moving_readScene body
       | exact moving_deleteScene body
       | exact moving_recallScene body
       | exact moving_releaseScene body
       | exact moving_configureStation body
       | exact moving_removeStation body
       | exact moving_readStation body
       | exact moving_configureGroup body
       | exact moving_sendGroupLamp body
       | exact moving_readGroupResult body
       | exact moving_survey body
       | exact moving_lineControl body
       | exact moving_selectEnd body
       | exact moving_lineRestart body
       | exact moving_readLine body
       | exact moving_setMode body
       | exact moving_readMode body
       | exact moving_clearEgress body
       | exact moving_configureRack body
       | exact moving_readRack body
       | exact moving_setTimings body
       | exact moving_saveImage body
       | exact moving_restart body)

theorem Moves.transferEnd (h : Moves s t) (install : Bool) (bytes : List Byte) : Moves s (t.transferEnd install bytes) := by
  unfold State.transferEnd
  split
  · exact h
  · refine .ite (fun _ => h.fetched _) fun _ => ?_
    split
    · rename_i heq
      exact .ite (fun _ => h.takeRequest (moving_requestOf heq _) ..) fun _ => h.takeMalformed ..
    · exact h.takeMalformed ..

/-! ## Events -/

theorem Moves.whileRunning (h : Moves s t) {f : State → State} (k : Moves s (f t)) : Moves s (t.whileRunning f) :=
  .ite (fun _ => k) fun _ => h

theorem Moves.completeSave (h : Moves s t) : Moves s t.completeSave := by
  unfold State.completeSave
  split
  · exact h
  · exact (h.step (.endSave t _ ‹_›)).raise _

theorem Moves.endReset (h : Moves s t) : Moves s t.endReset := by
  unfold State.endReset
  split
  · exact h.startUp _
  · exact h

theorem Moves.panicLevel (h : Moves s t) (asserted : Bool) : Moves s (t.panicLevel asserted) :=
  .ite (fun _ => h.panicChange _) fun _ => h.plain rfl

theorem Moves.beginPinReset (h : Moves s t) : Moves s t.beginPinReset := by
  unfold State.beginPinReset
  split
  · exact h
  · exact h.beginReset _

theorem Moves.blockExpiry (h : Moves s t) (c : Nat) : Moves s (t.blockExpiry c) := by
  refine h.step (.circuit _ _ _ fun x => ?_)
  dsimp only
  split
  · exact .endBlock x _ _ ‹_›
  · exact .refl x

theorem Moves.tick (h : Moves s t) : Moves s t.tick := by
  unfold State.tick
  refine .ite (fun _ => ?_) fun _ => h
  have ticked (u : LineUnit) : ∃ g, u.tick.stations = Table.mapAll u.stations g ∧
      ∀ a st, Table.InOrder st.keys → Table.InOrder (g a st).keys :=
    ⟨fun _ st => st.tick, rfl, fun _ _ hk => Table.inOrder_mapAll (f := fun _ r => r.tick) hk⟩
  have lines := (h.onUnitStations .a LineUnit.tick ticked).onUnitStations .b LineUnit.tick ticked
  exact (lines.step (.circuits _ (fun _ c => c.tick) fun _ x => .tick x)).plain rfl

/-- Every command answers a next state, reached by a chain of moves. -/
theorem exec_moves (c : Instr) (s : State) : ∃ t, exec c s = .next t ∧ Moves s t := by
  have h : Moves s s := .refl s
  cases c
  case requestTransferMalformed install bytes => exact ⟨_, rfl, h.transferEnd install bytes⟩
  case fetch n => exact ⟨_, rfl, h.fetched n⟩
  case identify tag body => exact ⟨_, rfl, h.takeRequest (moving_identify body) ..⟩
  case readAttention tag body => exact ⟨_, rfl, h.takeRequest (moving_readAttention body) ..⟩
  case configureCircuit tag body => exact ⟨_, rfl, h.takeRequest (moving_configureCircuit body) ..⟩
  case unconfigureCircuit tag body => exact ⟨_, rfl, h.takeRequest (moving_unconfigureCircuit body) ..⟩
  case readCircuit tag body => exact ⟨_, rfl, h.takeRequest (moving_readCircuit body) ..⟩
  case setHostLevel tag body => exact ⟨_, rfl, h.takeRequest (moving_setHostLevel body) ..⟩
  case releaseHostLevel tag body => exact ⟨_, rfl, h.takeRequest (moving_releaseHostLevel body) ..⟩
  case configureZone tag body => exact ⟨_, rfl, h.takeRequest (moving_configureZone body) ..⟩
  case setMaster tag body => exact ⟨_, rfl, h.takeRequest (moving_setMaster body) ..⟩
  case readZone tag body => exact ⟨_, rfl, h.takeRequest (moving_readZone body) ..⟩
  case writeBinding i tag body => exact ⟨_, rfl, h.takeRequest (moving_seeInstall (moving_writeBinding body) i) ..⟩
  case readBinding tag body => exact ⟨_, rfl, h.takeRequest (moving_readBinding body) ..⟩
  case retireBinding i tag body => exact ⟨_, rfl, h.takeRequest (moving_seeInstall (moving_retireBinding body) i) ..⟩
  case suspendBinding i tag body => exact ⟨_, rfl, h.takeRequest (moving_seeInstall (moving_suspendBinding body) i) ..⟩
  case resumeBinding i tag body => exact ⟨_, rfl, h.takeRequest (moving_seeInstall (moving_resumeBinding body) i) ..⟩
  case fireBinding tag body => exact ⟨_, rfl, h.takeRequest (moving_fireBinding body) ..⟩
  case readNotified tag body => exact ⟨_, rfl, h.takeRequest (moving_readNotified body) ..⟩
  case setProtectSize i tag body => exact ⟨_, rfl, h.takeRequest (moving_seeInstall (moving_setProtectSize body) i) ..⟩
  case lockHouse i tag body => exact ⟨_, rfl, h.takeRequest (moving_seeInstall (moving_lockHouse body) i) ..⟩
  case eraseHouse i tag body => exact ⟨_, rfl, h.takeRequest (moving_seeInstall (moving_eraseHouse body) i) ..⟩
  case writeScene tag body => exact ⟨_, rfl, h.takeRequest (moving_writeScene body) ..⟩
  case readScene tag body => exact ⟨_, rfl, h.takeRequest (moving_readScene body) ..⟩
  case deleteScene tag body => exact ⟨_, rfl, h.takeRequest (moving_deleteScene body) ..⟩
  case recallScene tag body => exact ⟨_, rfl, h.takeRequest (moving_recallScene body) ..⟩
  case releaseScene tag body => exact ⟨_, rfl, h.takeRequest (moving_releaseScene body) ..⟩
  case configureStation tag body => exact ⟨_, rfl, h.takeRequest (moving_configureStation body) ..⟩
  case removeStation tag body => exact ⟨_, rfl, h.takeRequest (moving_removeStation body) ..⟩
  case readStation tag body => exact ⟨_, rfl, h.takeRequest (moving_readStation body) ..⟩
  case configureGroup tag body => exact ⟨_, rfl, h.takeRequest (moving_configureGroup body) ..⟩
  case sendGroupLamp tag body => exact ⟨_, rfl, h.takeRequest (moving_sendGroupLamp body) ..⟩
  case readGroupResult tag body => exact ⟨_, rfl, h.takeRequest (moving_readGroupResult body) ..⟩
  case survey tag body => exact ⟨_, rfl, h.takeRequest (moving_survey body) ..⟩
  case lineControl tag body => exact ⟨_, rfl, h.takeRequest (moving_lineControl body) ..⟩
  case selectEnd tag body => exact ⟨_, rfl, h.takeRequest (moving_selectEnd body) ..⟩
  case lineRestart tag body => exact ⟨_, rfl, h.takeRequest (moving_lineRestart body) ..⟩
  case restartListenExpiry l => exact ⟨_, rfl, h.whileRunning (h.listenExpiry l)⟩
  case readLine tag body => exact ⟨_, rfl, h.takeRequest (moving_readLine body) ..⟩
  case setMode tag body => exact ⟨_, rfl, h.takeRequest (moving_setMode body) ..⟩
  case readMode tag body => exact ⟨_, rfl, h.takeRequest (moving_readMode body) ..⟩
  case clearEgress tag body => exact ⟨_, rfl, h.takeRequest (moving_clearEgress body) ..⟩
  case configureRack tag body => exact ⟨_, rfl, h.takeRequest (moving_configureRack body) ..⟩
  case readRack tag body => exact ⟨_, rfl, h.takeRequest (moving_readRack body) ..⟩
  case setTimings tag body => exact ⟨_, rfl, h.takeRequest (moving_setTimings body) ..⟩
  case saveImage tag body => exact ⟨_, rfl, h.takeRequest (moving_saveImage body) ..⟩
  case saveComplete => exact ⟨_, rfl, h.whileRunning h.completeSave⟩
  case restart tag body => exact ⟨_, rfl, h.takeRequest (moving_restart body) ..⟩
  case powerReset => exact ⟨_, rfl, h.beginReset .power⟩
  case pinReset => exact ⟨_, rfl, h.beginPinReset⟩
  case startUp => exact ⟨_, rfl, h.endReset⟩
  case slotStart l => exact ⟨_, rfl, h.whileRunning (h.startSlot l)⟩
  case markedCharacterSent l echo => exact ⟨_, rfl, h.whileRunning (h.markedSent l echo)⟩
  case stationAnswer l heard => exact ⟨_, rfl, h.whileRunning (h.answerHeard l heard)⟩
  case snapshotAnswer l heard => exact ⟨_, rfl, h.whileRunning (h.snapshotHeard l heard)⟩
  case answerWindowExpiry l => exact ⟨_, rfl, h.whileRunning (h.windowExpiry l)⟩
  case foreignCharacter l => exact ⟨_, rfl, h.whileRunning (h.foreignHeard l)⟩
  case probeTimerExpiry l => exact ⟨_, rfl, h.whileRunning (h.probeExpiry l)⟩
  case healTimerExpiry l => exact ⟨_, rfl, h.whileRunning (h.healExpiry l)⟩
  case holdTimerExpiry k => exact ⟨_, rfl, h.whileRunning (h.holdExpiry k)⟩
  case doubleTimerExpiry k => exact ⟨_, rfl, h.whileRunning (h.doubleExpiry k)⟩
  case stuckTimerExpiry k => exact ⟨_, rfl, h.whileRunning (h.stuckExpiry k)⟩
  case repeatTimerExpiry b => exact ⟨_, rfl, h.whileRunning (h.repeatExpiry b)⟩
  case stepTimerExpiry => exact ⟨_, rfl, h.whileRunning h.stepExpiry⟩
  case blockTimerExpiry c => exact ⟨_, rfl, h.whileRunning (h.blockExpiry c)⟩
  case panicInputChange p => exact ⟨_, rfl, h.panicLevel p⟩
  case panicFilterExpiry => exact ⟨_, rfl, h.whileRunning h.panicExpiry⟩
  case roundTimerExpiry => exact ⟨_, rfl, h.whileRunning h.roundExpiry⟩
  case levelFrameSent => exact ⟨_, rfl, h.whileRunning h.levelFrameSent⟩
  case rackReply chars => exact ⟨_, rfl, h.whileRunning (h.replyHeard chars)⟩
  case replyWindowExpiry => exact ⟨_, rfl, h.whileRunning h.replyWindowExpiry⟩
  case stationFrameSent l => exact ⟨_, rfl, h.whileRunning (h.frameSent l)⟩

end Sys2Proof.Machine
end

