-- ==== Sys2Proof/Laws/PerInstr.lean ====
section
/-! SUPPORT. The families of statements made once for each command. -/

namespace Sys2Proof.Laws.WellFormedDecides

/-- What the manual lets come to the part: a request body of at most 250 bytes (R161); a malformed request transfer that
holds a byte and does not begin with the Fetch code (R160); copies of an answer, each with a character, one from each end at
most (R114, R126); expiries of a station input, a binding or a circuit in the ranges of section 1.5; a reply with a
character (R153). -/
def Admissible (i : Instr) : Prop :=
  (∀ body, i.body? = some body → body.length ≤ 250) ∧
  (∀ install bytes, i = .requestTransferMalformed install bytes → ∃ code rest, bytes = code :: rest ∧ code ≠ 0xA5) ∧
  (∀ line heard, i = .stationAnswer line heard ∨ i = .snapshotAnswer line heard →
    heard ≠ [] ∧ (heard.map (·.side)).Nodup ∧ ∀ h ∈ heard, h.chars ≠ []) ∧
  (∀ key, i = .holdTimerExpiry key ∨ i = .doubleTimerExpiry key ∨ i = .stuckTimerExpiry key →
    1 ≤ key.address ∧ key.address ≤ 60 ∧ 1 ≤ key.input ∧ key.input ≤ 16) ∧
  (∀ b, i = .repeatTimerExpiry b → 1 ≤ b ∧ b ≤ 1024) ∧
  (∀ c, i = .blockTimerExpiry c → 1 ≤ c ∧ c ≤ 256) ∧
  (∀ chars, i = .rackReply chars → chars ≠ [])

/-- The Boolean check of a command says exactly that the command can come to the part. -/
def Statement (i : Instr) : Prop := i.wellFormed = true ↔ Admissible i

theorem bodyWellFormed_iff (body : List Byte) : bodyWellFormed body = true ↔ body.length ≤ 250 :=
  decide_eq_true_iff

theorem transferWellFormed_iff (bytes : List Byte) :
    transferWellFormed bytes = true ↔ ∃ code rest, bytes = code :: rest ∧ code ≠ 0xA5 := by
  cases bytes <;> simp [transferWellFormed]

theorem heardWellFormed_iff (heard : List Heard) : heardWellFormed heard = true ↔
    heard ≠ [] ∧ (heard.map (·.side)).Nodup ∧ ∀ h ∈ heard, h.chars ≠ [] := by
  simp [heardWellFormed, and_assoc]

theorem key_wellFormed_iff (k : StationInput) :
    k.wellFormed = true ↔ 1 ≤ k.address ∧ k.address ≤ 60 ∧ 1 ≤ k.input ∧ k.input ≤ 16 := by
  simp [StationInput.wellFormed, and_assoc]

/-- A request can come to the part when its body fits its frame. -/
theorem of_body {i : Instr} {body : List Byte} (hw : i.wellFormed = bodyWellFormed body) (hb : i.body? = some body) :
    Statement i := by
  have none_of {x : Option (List Byte)} (h : x = none) (hx : x = some body) : False := by simp [h] at hx
  refine ⟨fun h => ⟨?_, ?_, ?_, ?_, ?_, ?_, ?_⟩, fun h => ?_⟩
  · rintro b hb'
    rw [hb] at hb'; cases hb'
    exact (bodyWellFormed_iff body).1 (hw ▸ h)
  · rintro _ _ rfl; exact (none_of rfl hb).elim
  · rintro _ _ (rfl | rfl) <;> exact (none_of rfl hb).elim
  · rintro _ (rfl | rfl | rfl) <;> exact (none_of rfl hb).elim
  · rintro _ rfl; exact (none_of rfl hb).elim
  · rintro _ rfl; exact (none_of rfl hb).elim
  · rintro _ rfl; exact (none_of rfl hb).elim
  · exact hw ▸ (bodyWellFormed_iff body).2 (h.1 body hb)

/-- The events that carry nothing to check. -/
def bare : Instr → Bool
  | .fetch _ | .restartListenExpiry _ | .saveComplete | .powerReset | .pinReset | .startUp | .slotStart _
  | .markedCharacterSent _ _ | .answerWindowExpiry _ | .foreignCharacter _ | .probeTimerExpiry _
  | .healTimerExpiry _ | .stepTimerExpiry | .panicInputChange _ | .panicFilterExpiry | .roundTimerExpiry
  | .levelFrameSent | .replyWindowExpiry | .stationFrameSent _ => true
  | _ => false

/-- An event that carries nothing to check can always come to the part. -/
theorem of_event {i : Instr} (hw : i.wellFormed = true) (hb : i.body? = none) (h : bare i = true) : Statement i := by
  have off {j : Instr} (hj : bare j = false) (e : i = j) : False := by rw [e, hj] at h; cases h
  refine ⟨fun _ => ⟨?_, ?_, ?_, ?_, ?_, ?_, ?_⟩, fun _ => hw⟩
  · rintro b hb'; rw [hb] at hb'; cases hb'
  · intro _ _ e; exact (off rfl e).elim
  · rintro _ _ (e | e) <;> exact (off rfl e).elim
  · rintro _ (e | e | e) <;> exact (off rfl e).elim
  · intro _ e; exact (off rfl e).elim
  · intro _ e; exact (off rfl e).elim
  · intro _ e; exact (off rfl e).elim

theorem requestTransferMalformed (install : Bool) (bytes : List Byte) : Statement (.requestTransferMalformed install bytes) := by
  simp [Statement, Admissible, Instr.wellFormed, Instr.body?, transferWellFormed_iff]

theorem fetch (clocked : Nat) : Statement (.fetch clocked) :=
  of_event rfl rfl rfl

theorem identify (tag : Byte) (body : List Byte) : Statement (.identify tag body) :=
  of_body rfl rfl

theorem readAttention (tag : Byte) (body : List Byte) : Statement (.readAttention tag body) :=
  of_body rfl rfl

theorem configureCircuit (tag : Byte) (body : List Byte) : Statement (.configureCircuit tag body) :=
  of_body rfl rfl

theorem unconfigureCircuit (tag : Byte) (body : List Byte) : Statement (.unconfigureCircuit tag body) :=
  of_body rfl rfl

theorem readCircuit (tag : Byte) (body : List Byte) : Statement (.readCircuit tag body) :=
  of_body rfl rfl

theorem setHostLevel (tag : Byte) (body : List Byte) : Statement (.setHostLevel tag body) :=
  of_body rfl rfl

theorem releaseHostLevel (tag : Byte) (body : List Byte) : Statement (.releaseHostLevel tag body) :=
  of_body rfl rfl

theorem configureZone (tag : Byte) (body : List Byte) : Statement (.configureZone tag body) :=
  of_body rfl rfl

theorem setMaster (tag : Byte) (body : List Byte) : Statement (.setMaster tag body) :=
  of_body rfl rfl

theorem readZone (tag : Byte) (body : List Byte) : Statement (.readZone tag body) :=
  of_body rfl rfl

theorem writeBinding (install : Bool) (tag : Byte) (body : List Byte) : Statement (.writeBinding install tag body) :=
  of_body rfl rfl

theorem readBinding (tag : Byte) (body : List Byte) : Statement (.readBinding tag body) :=
  of_body rfl rfl

theorem retireBinding (install : Bool) (tag : Byte) (body : List Byte) : Statement (.retireBinding install tag body) :=
  of_body rfl rfl

theorem suspendBinding (install : Bool) (tag : Byte) (body : List Byte) : Statement (.suspendBinding install tag body) :=
  of_body rfl rfl

theorem resumeBinding (install : Bool) (tag : Byte) (body : List Byte) : Statement (.resumeBinding install tag body) :=
  of_body rfl rfl

theorem fireBinding (tag : Byte) (body : List Byte) : Statement (.fireBinding tag body) :=
  of_body rfl rfl

theorem readNotified (tag : Byte) (body : List Byte) : Statement (.readNotified tag body) :=
  of_body rfl rfl

theorem setProtectSize (install : Bool) (tag : Byte) (body : List Byte) : Statement (.setProtectSize install tag body) :=
  of_body rfl rfl

theorem lockHouse (install : Bool) (tag : Byte) (body : List Byte) : Statement (.lockHouse install tag body) :=
  of_body rfl rfl

theorem eraseHouse (install : Bool) (tag : Byte) (body : List Byte) : Statement (.eraseHouse install tag body) :=
  of_body rfl rfl

theorem writeScene (tag : Byte) (body : List Byte) : Statement (.writeScene tag body) :=
  of_body rfl rfl

theorem readScene (tag : Byte) (body : List Byte) : Statement (.readScene tag body) :=
  of_body rfl rfl

theorem deleteScene (tag : Byte) (body : List Byte) : Statement (.deleteScene tag body) :=
  of_body rfl rfl

theorem recallScene (tag : Byte) (body : List Byte) : Statement (.recallScene tag body) :=
  of_body rfl rfl

theorem releaseScene (tag : Byte) (body : List Byte) : Statement (.releaseScene tag body) :=
  of_body rfl rfl

theorem configureStation (tag : Byte) (body : List Byte) : Statement (.configureStation tag body) :=
  of_body rfl rfl

theorem removeStation (tag : Byte) (body : List Byte) : Statement (.removeStation tag body) :=
  of_body rfl rfl

theorem readStation (tag : Byte) (body : List Byte) : Statement (.readStation tag body) :=
  of_body rfl rfl

theorem configureGroup (tag : Byte) (body : List Byte) : Statement (.configureGroup tag body) :=
  of_body rfl rfl

theorem sendGroupLamp (tag : Byte) (body : List Byte) : Statement (.sendGroupLamp tag body) :=
  of_body rfl rfl

theorem readGroupResult (tag : Byte) (body : List Byte) : Statement (.readGroupResult tag body) :=
  of_body rfl rfl

theorem survey (tag : Byte) (body : List Byte) : Statement (.survey tag body) :=
  of_body rfl rfl

theorem lineControl (tag : Byte) (body : List Byte) : Statement (.lineControl tag body) :=
  of_body rfl rfl

theorem selectEnd (tag : Byte) (body : List Byte) : Statement (.selectEnd tag body) :=
  of_body rfl rfl

theorem lineRestart (tag : Byte) (body : List Byte) : Statement (.lineRestart tag body) :=
  of_body rfl rfl

theorem restartListenExpiry (line : Line) : Statement (.restartListenExpiry line) :=
  of_event rfl rfl rfl

theorem readLine (tag : Byte) (body : List Byte) : Statement (.readLine tag body) :=
  of_body rfl rfl

theorem setMode (tag : Byte) (body : List Byte) : Statement (.setMode tag body) :=
  of_body rfl rfl

theorem readMode (tag : Byte) (body : List Byte) : Statement (.readMode tag body) :=
  of_body rfl rfl

theorem clearEgress (tag : Byte) (body : List Byte) : Statement (.clearEgress tag body) :=
  of_body rfl rfl

theorem configureRack (tag : Byte) (body : List Byte) : Statement (.configureRack tag body) :=
  of_body rfl rfl

theorem readRack (tag : Byte) (body : List Byte) : Statement (.readRack tag body) :=
  of_body rfl rfl

theorem setTimings (tag : Byte) (body : List Byte) : Statement (.setTimings tag body) :=
  of_body rfl rfl

theorem saveImage (tag : Byte) (body : List Byte) : Statement (.saveImage tag body) :=
  of_body rfl rfl

theorem saveComplete : Statement .saveComplete :=
  of_event rfl rfl rfl

theorem restart (tag : Byte) (body : List Byte) : Statement (.restart tag body) :=
  of_body rfl rfl

theorem powerReset : Statement .powerReset :=
  of_event rfl rfl rfl

theorem pinReset : Statement .pinReset :=
  of_event rfl rfl rfl

theorem startUp : Statement .startUp :=
  of_event rfl rfl rfl

theorem slotStart (line : Line) : Statement (.slotStart line) :=
  of_event rfl rfl rfl

theorem markedCharacterSent (line : Line) (echo : Bool) : Statement (.markedCharacterSent line echo) :=
  of_event rfl rfl rfl

theorem stationAnswer (line : Line) (heard : List Heard) : Statement (.stationAnswer line heard) := by
  simp [Statement, Admissible, Instr.wellFormed, Instr.body?, heardWellFormed_iff]

theorem snapshotAnswer (line : Line) (heard : List Heard) : Statement (.snapshotAnswer line heard) := by
  simp [Statement, Admissible, Instr.wellFormed, Instr.body?, heardWellFormed_iff]

theorem answerWindowExpiry (line : Line) : Statement (.answerWindowExpiry line) :=
  of_event rfl rfl rfl

theorem foreignCharacter (line : Line) : Statement (.foreignCharacter line) :=
  of_event rfl rfl rfl

theorem probeTimerExpiry (line : Line) : Statement (.probeTimerExpiry line) :=
  of_event rfl rfl rfl

theorem healTimerExpiry (line : Line) : Statement (.healTimerExpiry line) :=
  of_event rfl rfl rfl

theorem holdTimerExpiry (key : StationInput) : Statement (.holdTimerExpiry key) := by
  simp [Statement, Admissible, Instr.wellFormed, Instr.body?, key_wellFormed_iff]

theorem doubleTimerExpiry (key : StationInput) : Statement (.doubleTimerExpiry key) := by
  simp [Statement, Admissible, Instr.wellFormed, Instr.body?, key_wellFormed_iff]

theorem stuckTimerExpiry (key : StationInput) : Statement (.stuckTimerExpiry key) := by
  simp [Statement, Admissible, Instr.wellFormed, Instr.body?, key_wellFormed_iff]

theorem repeatTimerExpiry (binding : Nat) : Statement (.repeatTimerExpiry binding) := by
  simp [Statement, Admissible, Instr.wellFormed, Instr.body?]

theorem stepTimerExpiry : Statement .stepTimerExpiry :=
  of_event rfl rfl rfl

theorem blockTimerExpiry (circuit : Nat) : Statement (.blockTimerExpiry circuit) := by
  simp [Statement, Admissible, Instr.wellFormed, Instr.body?]

theorem panicInputChange (asserted : Bool) : Statement (.panicInputChange asserted) :=
  of_event rfl rfl rfl

theorem panicFilterExpiry : Statement .panicFilterExpiry :=
  of_event rfl rfl rfl

theorem roundTimerExpiry : Statement .roundTimerExpiry :=
  of_event rfl rfl rfl

theorem levelFrameSent : Statement .levelFrameSent :=
  of_event rfl rfl rfl

theorem rackReply (chars : List Character) : Statement (.rackReply chars) := by
  simp [Statement, Admissible, Instr.wellFormed, Instr.body?]

theorem replyWindowExpiry : Statement .replyWindowExpiry :=
  of_event rfl rfl rfl

theorem stationFrameSent (line : Line) : Statement (.stationFrameSent line) :=
  of_event rfl rfl rfl

end Sys2Proof.Laws.WellFormedDecides
end

