-- ==== Sys2Proof/Laws/Resolver.lean ====
section
/-! SUPPORT. What resolution, placement and removal can do on a circuit, once for each of their outcomes (R6 to R13). -/

namespace Sys2Proof.Machine

theorem State.resolve_at? (s : State) (c tenths i : Nat) :
    Table.at? (s.resolve c tenths).circuits i =
      (Table.at? s.circuits i).map fun x => if i = c then x.resolve (s.masterOf x.config) tenths else x := by
  by_cases h : i = c <;> simp [State.resolve, State.onCircuit, Table.at?_adjust, h]

/-! ## A placement in a list -/

theorem insertClaim_of_held {k : Contribution} {claims : List Contribution} (h : ∃ x ∈ claims, x.origin = k.origin) :
    insertClaim k claims = (claims.eraseP (fun x => x.origin == k.origin) ++ [k], .replaced) := by
  simp [insertClaim, h]

theorem insertClaim_of_room {k : Contribution} {claims : List Contribution} (h : ∀ x ∈ claims, x.origin ≠ k.origin)
    (hl : claims.length < 8) : insertClaim k claims = (claims ++ [k], .appended none) := by
  have h' : ¬ ∃ x ∈ claims, x.origin = k.origin := fun ⟨x, hx, e⟩ => h x hx e
  have hl' : claims.length < Config.listLimit := hl
  simp [insertClaim, h', hl']

theorem insertClaim_of_full {k : Contribution} {claims : List Contribution} {low : Nat}
    (h : ∀ x ∈ claims, x.origin ≠ k.origin) (hl : 8 ≤ claims.length) (hlow : lowestTier claims = some low) :
    insertClaim k claims =
      if low ≤ k.tier then
        (claims.eraseP (fun x => x.tier == low) ++ [k], .appended (claims.find? fun x => x.tier == low))
      else (claims, .refused) := by
  have h' : ¬ ∃ x ∈ claims, x.origin = k.origin := fun ⟨x, hx, e⟩ => h x hx e
  have hl' : ¬ claims.length < Config.listLimit := Nat.not_lt.2 hl
  simp [insertClaim, h', hl', hlow]

/-! ## A placement on a circuit -/

theorem State.place_of_unconfigured {s : State} {c : Nat} (h : Table.at? s.circuits c = none) (k : Contribution) :
    s.place c k = (s, .unconfigured) := by simp [State.place, h]

/-- The state with a list on a circuit, resolved. -/
def State.withClaims (s : State) (c : Nat) (claims : List Contribution) (tenths : Nat) : State :=
  (s.onCircuit c fun x => { x with claims := claims }).resolve c tenths

theorem State.place_of_refused {s : State} {c : Nat} {x : Circuit} {k : Contribution} {l : List Contribution}
    (h : Table.at? s.circuits c = some x)
    (hi : insertClaim { k with dormant := dormantIn s.mode x.config k.tier } x.claims = (l, .refused)) :
    s.place c k = (s.markRefused k.origin, .refused) := by simp [State.place, h, hi]

theorem State.place_of_replaced {s : State} {c : Nat} {x : Circuit} {k : Contribution} {l : List Contribution}
    (h : Table.at? s.circuits c = some x)
    (hi : insertClaim { k with dormant := dormantIn s.mode x.config k.tier } x.claims = (l, .replaced)) :
    s.place c k = (s.withClaims c l k.arrival, .replaced) := by simp [State.place, h, hi, State.withClaims]

theorem State.place_of_appended {s : State} {c : Nat} {x : Circuit} {k : Contribution} {l : List Contribution}
    (h : Table.at? s.circuits c = some x)
    (hi : insertClaim { k with dormant := dormantIn s.mode x.config k.tier } x.claims = (l, .appended none)) :
    s.place c k = (s.withClaims c l k.arrival, .appended none) := by simp [State.place, h, hi, State.withClaims]

theorem State.place_of_displaced {s : State} {c : Nat} {x : Circuit} {k victim : Contribution} {l : List Contribution}
    (h : Table.at? s.circuits c = some x)
    (hi : insertClaim { k with dormant := dormantIn s.mode x.config k.tier } x.claims = (l, .appended (some victim))) :
    s.place c k =
      (((s.withClaims c l k.arrival).markDisplaced c victim.origin).departed true victim.origin, .appended (some victim)) := by
  simp [State.place, h, hi, State.withClaims]

/-! ## The records of circuits and zones, configured or not -/

@[simp] theorem State.circuitRecord_of_configured {s : State} {c : Nat} {x : Circuit}
    (h : Table.at? s.circuits c = some x) : s.circuitRecord c = x.record := by simp [State.circuitRecord, h]

@[simp] theorem State.circuitRecord_of_unconfigured {s : State} {c : Nat} (h : Table.at? s.circuits c = none) :
    s.circuitRecord c = .unconfigured := by simp [State.circuitRecord, h]

@[simp] theorem State.circuitRecord_configured (s : State) (c : Nat) :
    (s.circuitRecord c).configured = (Table.at? s.circuits c).isSome := by
  cases h : Table.at? s.circuits c <;> simp [State.circuitRecord, h] <;> rfl

@[simp] theorem State.zoneRecord_of_configured {s : State} {z : Nat} {x : Zone} (h : Table.at? s.zones z = some x) :
    s.zoneRecord z = x := by simp [State.zoneRecord, h]

@[simp] theorem State.zoneRecord_of_unconfigured {s : State} {z : Nat} (h : Table.at? s.zones z = none) :
    s.zoneRecord z = .unconfigured := by simp [State.zoneRecord, h]

/-! ## A removal -/

theorem State.remove_of_unconfigured {s : State} {c : Nat} (h : Table.at? s.circuits c = none) (byOther : Bool) (o : Origin) :
    s.remove byOther o c = s := by simp [State.remove, h]

theorem State.remove_of_absent {s : State} {c : Nat} {x : Circuit} (h : Table.at? s.circuits c = some x) {o : Origin}
    (ho : ∀ k ∈ x.claims, k.origin ≠ o) (byOther : Bool) : s.remove byOther o c = s := by
  have hf : x.claims.find? (fun k => k.origin == o) = none := by simpa using ho
  simp [State.remove, h, hf]

theorem State.remove_of_held {s : State} {c : Nat} {x : Circuit} {k : Contribution} (h : Table.at? s.circuits c = some x)
    {o : Origin} (hf : x.claims.find? (fun k => k.origin == o) = some k) (byOther : Bool) :
    s.remove byOther o c =
      ((s.onCircuit c fun x => { x with claims := x.claims.eraseP fun k => k.origin == o }).resolve c k.release).departed
        byOther o := by
  simp [State.remove, h, hf]

/-! ## Dormancy in a mode change -/

theorem State.redormWhere_at? (s : State) (test : Nat → Bool) (i : Nat) :
    Table.at? (s.redormWhere test).circuits i =
      (Table.at? s.circuits i).map fun x => if test i then s.redormCircuit x else x := by
  simp [State.redormWhere]

/-- One step of a circuit at an expiry of the step timer. -/
def Circuit.stepped (x : Circuit) : Circuit := { x with transition := x.transition.step x.config }

theorem State.stepExpiry_at? (s : State) (i : Nat) :
    Table.at? s.stepExpiry.circuits i = (Table.at? s.circuits i).map Circuit.stepped := by
  simp [State.stepExpiry]; rfl

/-- What step 3 of a mode change that reports a new required feed can do: every AUDIENCE circuit is handed over, with no
expiry of the step timer, or with one after the circuits up to some identifier (R142). -/
theorem State.redormBeforeReport_cases (s : State) :
    (∀ i, Table.at? s.redormBeforeReport.circuits i = (Table.at? s.circuits i).map s.redormCircuit) ∨
    ∃ c, ∀ i, Table.at? s.redormBeforeReport.circuits i = (Table.at? s.circuits i).map fun x =>
      if i ≤ c then (s.redormCircuit x).stepped else s.redormCircuit x.stepped := by
  unfold State.redormBeforeReport
  cases Config.stepInModeChange s.freeUses with
  | none => exact .inl fun i => by simp [State.redormAll, State.redormWhere_at?]; rfl
  | some c =>
    refine .inr ⟨c, fun i => ?_⟩
    simp only [State.redormWhere_at?, State.stepExpiry_at?, Option.map_map]
    congr 1
    funext x
    by_cases h : i ≤ c
    · simp [h, Nat.not_lt.2 h]; rfl
    · simp [h, Nat.lt_of_not_le h]; rfl

/-- It touches nothing but circuits, the step timer and the count of free choices. -/
theorem State.redormBeforeReport_frame (s : State) :
    s.redormBeforeReport = { s with
      circuits := s.redormBeforeReport.circuits, stepTimer := s.redormBeforeReport.stepTimer,
      freeUses := s.freeUses + 1 } := by
  unfold State.redormBeforeReport
  cases Config.stepInModeChange s.freeUses <;> rfl

end Sys2Proof.Machine
end

