-- ==== Sys2Proof/Tests/Slice0.lean ====
section
/-! SUPPORT. Tests of the model: the checks of WellFormed on ill-formed commands, the worked values of the manual, one small
step of the commands, and for every obligation with hypotheses a witness that meets them. Expected values come from the
manual's tables and examples, named at each test. -/

namespace Sys2Proof.Tests

open Sys2Proof.Machine

set_option Elab.async false
set_option maxRecDepth 8000

/-! ## Ill-formed commands are refused by WellFormed -/

theorem test_wellFormed_long_body : (Instr.identify 0 (List.replicate 251 0)).wellFormed = false := by decide +kernel
theorem test_wellFormed_longest_body : (Instr.identify 0 (List.replicate 250 0)).wellFormed = true := by decide +kernel
theorem test_wellFormed_transfer :
    (Instr.requestTransferMalformed true []).wellFormed = false ∧
    (Instr.requestTransferMalformed true [0xA5]).wellFormed = false ∧
    (Instr.requestTransferMalformed true [0x02]).wellFormed = true := by decide
theorem test_wellFormed_heard :
    (Instr.stationAnswer .a []).wellFormed = false ∧
    (Instr.stationAnswer .a [⟨.a, []⟩]).wellFormed = false ∧
    (Instr.snapshotAnswer .a [⟨.a, [⟨0, true⟩]⟩, ⟨.a, [⟨1, true⟩]⟩]).wellFormed = false ∧
    (Instr.snapshotAnswer .a [⟨.a, [⟨0, true⟩]⟩, ⟨.b, [⟨1, true⟩]⟩]).wellFormed = true := by decide
theorem test_wellFormed_key :
    (Instr.holdTimerExpiry ⟨.a, 0, 1⟩).wellFormed = false ∧ (Instr.doubleTimerExpiry ⟨.a, 61, 1⟩).wellFormed = false ∧
    (Instr.stuckTimerExpiry ⟨.b, 60, 17⟩).wellFormed = false ∧ (Instr.stuckTimerExpiry ⟨.b, 60, 16⟩).wellFormed = true := by
  decide
theorem test_wellFormed_binding :
    (Instr.repeatTimerExpiry 0).wellFormed = false ∧ (Instr.repeatTimerExpiry 1025).wellFormed = false ∧
    (Instr.repeatTimerExpiry 1024).wellFormed = true := by decide
theorem test_wellFormed_circuit :
    (Instr.blockTimerExpiry 0).wellFormed = false ∧ (Instr.blockTimerExpiry 257).wellFormed = false ∧
    (Instr.blockTimerExpiry 256).wellFormed = true := by decide
theorem test_wellFormed_reply : (Instr.rackReply []).wellFormed = false := by decide

/-! ## Worked values of the manual -/

/-- R26, the first row of its table. -/
theorem test_fade_600_to_107 : (List.range 5).map (fun k => fadeLevel 600 107 (k + 1) 5) = [502, 403, 305, 206, 107] := by
  decide

/-- R26, the third row of its table. -/
theorem test_fade_406_to_400 : (List.range 10).map (fun k => fadeLevel 406 400 (k + 1) 10) =
    [406, 405, 405, 404, 403, 403, 402, 402, 401, 400] := by decide

/-- A configuration on rack 1 and, for TRANSFER, rack 2, with no trim. -/
def wired (kind : CircuitKind) (channel : Nat) : CircuitConfig :=
  { kind := kind, house := ⟨1, channel⟩, stage := if kind = .transfer then some ⟨2, channel⟩ else none, zone := none,
    minTrim := 0, maxTrim := 1000, threshold := 500, rest := 0, downslope := 5, block := 200, upslope := 5,
    audience := false, egress := false }

/-- Transition fields at a drive level in a phase, on HOUSE. -/
def moving (phase : CircuitPhase) (level : Nat) : Transition :=
  { Transition.fresh .transfer .house with phase := phase, level := level, blockTimer := if phase = .block then some 200 else none }

/-- R28, the values for a minimum of 150 and a maximum of 900. -/
theorem test_trim_150_900 : [0, 1, 500, 1000].map (fun d =>
    outputLevel { wired .dimmed 1 with minTrim := 150, maxTrim := 900 } (moving .steady d)) = [0, 150, 525, 900] := by decide

/-- R29: the switch turns on at its threshold. -/
theorem test_switch_500 : [0, 499, 500, 1000].map (fun d =>
    outputLevel (wired .switched 1) (moving .steady d)) = [0, 0, 1000, 1000] := by decide

/-- A contribution of level 500, with arrival fade 10 and release fade 20. -/
def claimOf (o : Origin) (tier : Nat) : Contribution := ⟨o, tier, 500, 10, 20, none, none, false⟩

/-- Contributions of bindings 1, 2, ... at the tiers given, oldest first. -/
def claimsAt (tiers : List Nat) : List Contribution :=
  (tiers.zip (List.range tiers.length)).map fun e => claimOf (.binding (e.2 + 1)) e.1

/-- The origin a newcomer displaces from a list, none where it is refused or needs no room. -/
def displaced (tiers : List Nat) (tier : Nat) : Option Origin :=
  match (insertClaim (claimOf .host tier) (claimsAt tiers)).2 with
  | .appended v => v.map (·.origin)
  | _ => none

/-- R8, the rows of its table. -/
theorem test_full_lists :
    displaced [0, 1, 0, 2, 1, 0, 2, 1] 0 = some (.binding 1) ∧ displaced [0, 1, 0, 2, 1, 0, 2, 1] 2 = some (.binding 1) ∧
    displaced [1, 1, 2, 1, 2, 2, 1, 1] 0 = none ∧ displaced [1, 1, 2, 1, 2, 2, 1, 1] 1 = some (.binding 1) ∧
    displaced [2, 2, 2, 2, 2, 2, 2, 2] 1 = none ∧ displaced [2, 2, 2, 2, 2, 2, 2, 2] 3 = some (.binding 1) := by decide

/-- Section 12.5: circuit 41 at level 600 is sent as 0x02, 0x92, 0x58. -/
theorem test_scene_entry : decodeEntries [0x02, 0x92, 0x58] = some [(41, 600)] := by decide

/-- Section 12.4: the lengths of the bodies of the twelve actions, in the order of their codes. -/
theorem test_binding_body_lengths :
    ([.level (.circuit 1) 5 0 0 false, .toggle (.zone 1) 5 0 0, .release (.circuit 1) 0, .scene 1 0, .sceneOff 1, .master 1 5,
      .raise 1 1, .lower 1 1, .followMaster 1, .followLevel (.zone 1) 1 0, .mode .work, .notify] : List Action).map
      (fun a => (encodeBinding 1 ⟨⟨.a, 1, 1⟩, .down, ⟨true, false, false, false, false, false⟩, a, none, false⟩).length) =
    [18, 17, 13, 13, 12, 14, 13, 13, 12, 15, 12, 12] := by decide

/-- R99: stamps return to 0 after 65535. -/
theorem test_stamp_wraps : withinWindow { KeyRecord.fresh .key with lastUpStamp := some 65500 } (some 300) 400 = true ∧
    withinWindow { KeyRecord.fresh .key with lastUpStamp := some 65500 } (some 365) 400 = false := by decide

/-- R177: the check of a Continuity frame. -/
theorem test_continuity_check : continuityFrame = [0x00, 0x06, 0xFA] := by decide

/-- Section 12.6: an Answer of a KEYPAD with one DOWN of key 4, number 3, stamp 0x0102, and no acknowledgement. -/
theorem test_answer_frame : decodeAnswer (([0x81, 0x10, 0xFF, 0x30, 0x04, 0x01, 0x02, 0x39] : List Byte).map fun b => ⟨b, true⟩) =
    some ⟨0, false, .none, [⟨3, 4, .down, 0x0102⟩]⟩ := by decide

/-- Section 12.7 and R153: a HOT reply of rack 2 with channel 1 faulted; with a wrong check it is discarded. -/
theorem test_reply_frame :
    decodeReply (([2, 1, 0, 0, 0, 1, 0xFC] : List Byte).map fun b => ⟨b, true⟩) = some ⟨2, .hot, 1⟩ ∧
    decodeReply (([2, 1, 0, 0, 0, 1, 0xFD] : List Byte).map fun b => ⟨b, true⟩) = none := by decide

/-- Section 12.7: a Level frame has 70 characters, and 12.8: their sum is 0. -/
theorem test_level_frame : (LevelFrame.bytes 3 ⟨List.replicate 32 1000, 5⟩).length = 70 ∧
    byteSum (LevelFrame.bytes 3 ⟨List.replicate 32 1000, 5⟩) = 0 := by decide +kernel

/-! ## A small house -/

/-- A configured circuit with a list of claims. -/
def holding (c : CircuitConfig) (claims : List Contribution) : Circuit := { Circuit.atStart .house c with claims := claims }

/-- A transition in a phase with a step count and a step total. -/
def fadingAt (phase : CircuitPhase) (count total : Nat) : Transition :=
  { moving phase 400 with origin := 400, fadeEnd := 0, stepCount := count, stepTotal := total }

/-- A set of modes with WORK alone. -/
def workOnly : ModeSet := ⟨true, false, false, false, false, false⟩

/-- A binding on an input of station 5 of line A. -/
def bound (input : Nat) (gesture : Gesture) (action : Action) : Binding :=
  .fresh ⟨⟨.a, 5, input⟩, gesture, workOnly, action, none, false⟩

/-- A station in a state with one key record. -/
def station (setup : StationSetup) (state : StationState) (misses : Nat) : Station :=
  { Station.fresh setup with state := state, missCount := misses, keys := [(1, .fresh .key)] }

/-- A house of six circuits: a full list that takes any tier, one that takes no tier 0, a HOST claim, a TRANSFER circuit in
BLOCK, an EGRESS circuit and one at the end of DOWNSLOPE; two zones, bindings of every kind of use, two scenes, stations 5 to
8 on line A, and racks 1 and 2 ONLINE. -/
def house : State := { State.reset with
  circuits := [(1, holding (wired .dimmed 1) (claimsAt [0, 1, 0, 2, 1, 0, 2, 1])),
    (2, holding (wired .dimmed 2) (claimsAt [1, 1, 2, 1, 2, 2, 1, 1])),
    (3, holding { wired .dimmed 3 with zone := some 1 } [claimOf .host 1, claimOf (.scene 1) 0]),
    (4, { holding (wired .transfer 4) [] with transition := moving .block 0 }),
    (5, holding { wired .dimmed 5 with egress := true } []),
    (6, { holding (wired .transfer 6) [] with transition := fadingAt .downslope 24 25 }),
    (7, holding (wired .transfer 7) [])]
  zones := [(1, ⟨800, 10⟩), (2, ⟨1000, 0⟩)]
  bindings := [(1, bound 1 .press (.level (.circuit 1) 500 0 10 false)), (2, bound 2 .down (.raise 1 40)),
    (3, bound 3 .press .notify), (4, bound 4 .move (.followMaster 1)),
    (5, bound 5 .down (.level (.circuit 3) 700 1 5 true)),
    (200, { bound 6 .press (.mode .prepare) with record.suspended := true, notifyPending := true })]
  scenes := [(1, { Scene.define ⟨[(3, 600)], 10, 20⟩ with liveTier := some 0, recaller := some .host }),
    (2, .define ⟨[(5, 300), (7, 400)], 0, 0⟩)]
  lineA := { LineUnit.fresh .a true [(5, station .keypad .online 0), (6, station .fader .joining 2),
      (7, station .keypad .expected 0), (8, station .keypad .mismatch 0)] with nextPolled := 6 }
  groups := [(1, ⟨[⟨.a, 5⟩, ⟨.b, 9⟩], .off, 7, none⟩), (2, ⟨[⟨.a, 7⟩], .off, 7, none⟩), (3, .fresh []),
    (4, ⟨[⟨.a, 5⟩], .on, 0, some [⟨⟨.a, 5⟩, .pending, 0⟩]⟩)]
  racks := [(1, ⟨.online, 0, some .ready, 0, none⟩), (2, ⟨.online, 2, some .ready, 1, none⟩), (3, .blank)]
  repeats := [⟨2, 1, true, 40, ⟨.a, 5, 2⟩, 100⟩] }

/-- The state a command leads to. -/
def after (c : Instr) (s : State) : State :=
  match exec c s with
  | .next t => t
  | _ => s

/-- The result of the answer that waits, with its note and its body. -/
def answerOf (s : State) : Option (Result × Bool × List Byte) :=
  match s.hostSlot with
  | .answerReady a => some (a.result, a.clamped, a.body)
  | _ => none

theorem house_takes : house.TakesRequests := ⟨rfl, rfl⟩

theorem house_lists : house.ListsSound := by
  have h : ∀ e ∈ house.circuits, e.2.claims.length ≤ 8 ∧ (e.2.claims.map (·.origin)).Nodup := by decide +kernel
  exact h

theorem house_tables : house.TablesInOrder := by
  have tables : (Table.ids house.circuits).Pairwise (· < ·) ∧ (Table.ids house.zones).Pairwise (· < ·) ∧
      (Table.ids house.bindings).Pairwise (· < ·) ∧ (Table.ids house.scenes).Pairwise (· < ·) ∧
      (Table.ids house.groups).Pairwise (· < ·) ∧ (Table.ids house.racks).Pairwise (· < ·) := by decide +kernel
  have lines : ∀ u ∈ [house.lineA, house.lineB], (Table.ids u.stations).Pairwise (· < ·) ∧
      (∀ e ∈ u.stations, (Table.ids e.2.keys).Pairwise (· < ·)) ∧ u.waiting.Pairwise (· < ·) := by decide +kernel
  obtain ⟨circuits, zones, bindings, scenes, groups, racks⟩ := tables
  exact ⟨circuits, zones, bindings, scenes, lines _ (by simp), lines _ (by simp), groups, racks, nofun, nofun⟩

theorem house_blocks : house.BlockTimersSound := by
  have h : ∀ e ∈ house.circuits, (e.2.transition.phase = .block ↔ e.2.transition.blockTimer.isSome = true) := by
    decide +kernel
  exact h

/-! ## One step of the commands -/

/-- R16, section 10.10: a level above 1000 is taken as 1000 and CLAMPED is set. -/
theorem test_setHostLevel_clamps :
    let t := after (.setHostLevel 9 [0, 7, 1, 0x04, 0xB0, 0, 0]) house
    answerOf t = some (.ok, true, []) ∧ ((Table.at? t.circuits 7).map fun x => x.claims.map (·.level)) = some [1000] := by
  decide +kernel

/-- R8, R16: a HOST claim of tier 0 on a list without tier 0 is answered FULL. -/
theorem test_setHostLevel_full : answerOf (after (.setHostLevel 9 [0, 2, 0, 0, 100, 0, 0]) house) = some (.full, false, []) := by
  decide +kernel

theorem test_releaseHostLevel :
    ((Table.at? (after (.releaseHostLevel 9 [0, 3]) house).circuits 3).map fun x => x.claims.map (·.origin)) =
      some [.scene 1] := by decide +kernel

/-- R15: floor(500 × 225 / 1000) would be 112; here the zone master goes to 600 and the winning level 500 gives 300. -/
theorem test_setMaster_scales :
    ((Table.at? (after (.setMaster 9 [1, 0x02, 0x58]) house).circuits 3).map fun x => x.resolved.target) = some 300 := by
  decide +kernel

theorem test_configureCircuit_noSuch_zone :
    answerOf (after (.configureCircuit 1 [0, 9, 0, 1, 9, 0, 0, 3, 0, 0, 3, 0xE8, 0, 0, 0, 0, 0, 5, 0, 200, 0, 5, 0]) house) =
      some (.noSuch, false, []) := by decide +kernel

theorem test_configureCircuit :
    let t := after (.configureCircuit 1 [0, 9, 0, 1, 9, 0, 0, 2, 0, 0, 3, 0xE8, 0, 0, 0, 0, 0, 5, 0, 200, 0, 5, 3]) house
    answerOf t = some (.ok, false, []) ∧
      ((Table.at? t.circuits 9).map fun x => (x.config.zone, x.config.audience, x.config.egress)) =
        some (some 2, true, true) := by decide +kernel

theorem test_unconfigureCircuit_inUse : answerOf (after (.unconfigureCircuit 1 [0, 5]) house) = some (.inUse, false, []) := by
  decide +kernel

theorem test_configureZone :
    Table.at? (after (.configureZone 1 [3, 1, 0, 20]) house).zones 3 = some ⟨1000, 20⟩ := by decide +kernel

theorem test_readZone : answerOf (after (.readZone 1 [1]) house) = some (.ok, false, [0x03, 0x20, 0, 10, 0, 3]) := by
  decide +kernel

/-- Section 12.4: a NOTIFY binding with modes WORK and PREPARE on PRESS of A5.7. -/
theorem test_writeBinding :
    ((Table.at? (after (.writeBinding false 1 [0x01, 0x2C, 0, 5, 7, 2, 3, 11, 0xFF, 4, 0, 0]) house).bindings 300).map (·.record)) =
      some ⟨⟨.a, 5, 7⟩, .press, ⟨true, true, false, false, false, false⟩, .notify, none, false⟩ := by decide +kernel

theorem test_writeBinding_duplicate :
    answerOf (after (.writeBinding false 1 [0x01, 0x2C, 0, 5, 3, 2, 1, 11, 0xFF, 4, 0, 0]) house) = some (.duplicate, false, []) := by
  decide +kernel

theorem test_readBinding_marks : answerOf (after (.readBinding 1 [0, 200]) house) =
    some (.ok, false, [2, 1, 0, 200, 0, 5, 6, 2, 1, 10, 0xFF, 3, 0, 1, 0, 0, 4]) := by decide +kernel

theorem test_retireBinding : Table.at? (after (.retireBinding false 1 [0, 1]) house).bindings 1 = none ∧
    ((Table.at? (after (.retireBinding false 1 [0, 1]) house).circuits 1).map fun x => x.claims.length) = some 7 := by
  decide +kernel

theorem test_suspend_and_resume :
    ((Table.at? (after (.suspendBinding false 1 [0, 1]) house).bindings 1).map fun b => b.record.suspended) = some true ∧
    ((Table.at? (after (.resumeBinding false 1 [0, 200]) house).bindings 200).map fun b => b.record.suspended) = some false := by
  decide +kernel

theorem test_fireBinding_raise : (Table.at? (after (.fireBinding 1 [0, 2]) house).zones 1).map (·.master) = some 840 := by
  decide +kernel

theorem test_readNotified : answerOf (after (.readNotified 1 []) house) = some (.ok, false, [0, 200, 0, 0]) := by decide +kernel

theorem test_setProtectSize : (after (.setProtectSize true 1 [0, 128]) house).protectSize = 128 ∧
    answerOf (after (.setProtectSize true 1 [0, 100]) house) = some (.outOfRange, false, []) := by decide +kernel

theorem test_lockHouse : (after (.lockHouse true 1 []) house).houseLock = true ∧
    answerOf (after (.lockHouse false 1 []) house) = some (.notInstaller, false, []) := by decide +kernel

theorem test_eraseHouse : (Table.ids (after (.eraseHouse true 1 []) { house with protectSize := 64 }).bindings) = [200] := by
  decide +kernel

theorem test_writeScene : ((Table.at? (after (.writeScene 1 [9, 0, 10, 0, 20, 1, 0, 0x52, 0x58]) house).scenes 9).map (·.definition)) =
    some ⟨[(5, 600)], 10, 20⟩ := by decide +kernel

theorem test_recallScene : answerOf (after (.recallScene 1 [2, 1]) house) = some (.ok, false, [2, 1, 0, 0]) := by decide +kernel

theorem test_releaseScene :
    ((Table.at? (after (.releaseScene 1 [1]) house).scenes 1).map fun x => (x.liveTier, x.recaller)) = some (none, none) := by
  decide +kernel

theorem test_deleteScene : Table.at? (after (.deleteScene 1 [1]) house).scenes 1 = none := by decide +kernel

theorem test_readScene : answerOf (after (.readScene 1 [1]) house) =
    some (.ok, false, [1, 0, 10, 0, 20, 1, 0, 0x32, 0x58, 1, 0, 2, 0, 0, 0, 0, 3]) := by decide +kernel

theorem test_configureStation : ((after (.configureStation 1 [1, 60, 0]) house).station? .b 60).map (·.state) = some .expected := by
  decide +kernel

theorem test_removeStation : (after (.removeStation 1 [0, 5]) house).station? .a 5 = none ∧
    ((Table.at? (after (.removeStation 1 [0, 5]) house).groups 1).map (·.members)) = some [⟨.b, 9⟩] := by decide +kernel

theorem test_configureGroup : ((Table.at? (after (.configureGroup 1 [3, 0, 5, 1, 9]) house).groups 3).map (·.members)) =
    some [⟨.a, 5⟩, ⟨.b, 9⟩] ∧ answerOf (after (.configureGroup 1 [4]) house) = some (.notNow, false, []) := by decide +kernel

/-- R133: an ONLINE member is PENDING and the other OFFLINE; the number after 7 is 0. -/
theorem test_sendGroupLamp :
    let t := after (.sendGroupLamp 1 [1, 2]) house
    Table.at? t.groups 1 = some ⟨[⟨.a, 5⟩, ⟨.b, 9⟩], .flash, 0, some [⟨⟨.a, 5⟩, .pending, 0⟩, ⟨⟨.b, 9⟩, .offline, 0⟩]⟩ ∧
      t.lineA.waiting = [1] ∧ t.lineB.waiting = [] := by decide +kernel

theorem test_readGroupResult : answerOf (after (.readGroupResult 1 [4]) house) = some (.ok, false, [0, 5, 1, 0, 0]) ∧
    answerOf (after (.readGroupResult 1 [2]) house) = some (.ok, false, [0, 7, 0, 7, 0xFF]) := by decide +kernel

theorem test_survey : (after (.survey 1 [0]) house).hostSlot = .working ⟨0x46, 1, [0]⟩ := by decide +kernel

theorem test_lineControl : (after (.lineControl 1 [0, 0]) house).lineA.state = .off := by decide +kernel

theorem test_selectEnd : (after (.selectEnd 1 [1, 1]) house).lineB.active = .b := by decide +kernel

theorem test_lineRestart : (after (.lineRestart 1 [1]) house).lineB.listen = some 200 := by decide +kernel

theorem test_setMode : (after (.setMode 1 [3]) house).mode = .interval ∧
    answerOf (after (.setMode 1 [6]) house) = some (.badRequest, false, []) := by decide +kernel

theorem test_readMode : answerOf (after (.readMode 1 []) house) = some (.ok, false, [0, 0, 0, 0, 0, 0]) := by decide +kernel

theorem test_clearEgress : answerOf (after (.clearEgress 1 []) { house with panicFiltered := true }) = some (.active, false, []) := by
  decide +kernel

theorem test_configureRack : ((Table.at? (after (.configureRack 1 [3, 1]) house).racks 3).map (·.state)) = some .waiting := by
  decide +kernel

theorem test_setTimings : ((after (.setTimings 1 [0x02, 0x58, 1, 0x90, 0, 120, 0, 30, 2, 1, 0]) house).settings) =
    ⟨600, 400, 120, 30, .performance⟩ := by decide +kernel

theorem test_saveImage_and_complete : (after (.saveImage 1 []) house).saving.isSome = true ∧
    (after .saveComplete (after (.saveImage 1 []) house)).image.isSome = true := by decide +kernel

theorem test_restart : (after (.restart 1 []) house).resetCause = .request ∧ (after (.restart 1 []) house).circuits = [] := by
  decide +kernel

theorem test_resets : (after .powerReset house).power = .inReset .power ∧ (after .pinReset house).power = .inReset .pin ∧
    (after .startUp (after .pinReset house)).resetCause = .pin := by decide +kernel

theorem test_malformed_and_fetch :
    let t := after (.requestTransferMalformed false [0x01, 7]) house
    t.hostSlot = .answerReady ⟨7, .badRequest, false, []⟩ ∧ (after (.fetch 6) t).sdo = [0x50, 7, 1, 0, 0, 0] ∧
      (after (.fetch 6) t).hostSlot = .idle := by decide +kernel

theorem test_readAttention : answerOf (after (.readAttention 1 []) State.reset) = some (.ok, false, [2, 0]) := by decide +kernel

theorem test_identify_bad : answerOf (after (.identify 1 [0]) house) = some (.badRequest, false, []) := by decide +kernel

/-- R120: the lowest of the polled set at or above the next polled address, 6, is called. -/
theorem test_slotStart :
    let t := after (.slotStart .a) house
    (t.lineA.slot.map fun x => x.sending.length) = some 1 ∧ t.lineA.nextPolled = 7 ∧ t.lineA.turn = .probe := by decide +kernel

theorem test_echo : (after (.markedCharacterSent .a false) (after (.slotStart .a) house)).lineA.continuity = 1 := by decide +kernel

theorem test_foreign : (after (.foreignCharacter .b) house).lineB.state = .contested := by decide +kernel

theorem test_listen_quiet : (after (.restartListenExpiry .b) (after (.lineRestart 1 [1]) house)).lineB.state = .intact := by
  decide +kernel

theorem test_probe_and_heal : (after (.probeTimerExpiry .a) house).lineA.probeList = [7, 8] ∧
    (after (.healTimerExpiry .a) house).lineA.continuityAsked = false := by decide +kernel

theorem test_step_timer : ((Table.at? (after .stepTimerExpiry house).circuits 6).map fun x =>
    (x.transition.phase, x.transition.relay, x.transition.blockTimer)) = some (.block, some .stage, some 200) := by decide +kernel

theorem test_block_timer : ((Table.at? (after (.blockTimerExpiry 4) house).circuits 4).map fun x =>
    (x.transition.feed, x.transition.phase, x.transition.pendingTransfer)) = some (.stage, .block, none) := by decide +kernel

theorem test_panic : (after (.panicInputChange true) house).panicTimer = some 50 ∧
    ((Table.at? (after .panicFilterExpiry (after (.panicInputChange true) house)).circuits 5).map fun x => x.resolved.target) =
      some 1000 := by decide +kernel

theorem test_round : (after .roundTimerExpiry house).rackSlot.map (·.rack) = some 1 ∧
    ((after .levelFrameSent (after .roundTimerExpiry house)).rackSlot.bind (·.window)) = some 10 := by decide +kernel

theorem test_repeat : (Table.at? (after (.repeatTimerExpiry 2) house).zones 1).map (·.master) = some 840 := by decide +kernel

/-- The house while a call to a station of line A awaits its answer. -/
def calling (address : Nat) (frame : CallFrame) : State := { house with
  lineA := { house.lineA with
    slot := some ⟨.call ⟨address, frame, none, none, false, false⟩, [], .a, [], none, some 3⟩ } }

/-- The characters of a frame, each framed correctly. -/
def chars (bytes : List Byte) : List Character := (withCheck bytes).map fun b => ⟨b, true⟩

/-- Station 6, a FADER, while its Configure awaits its answer and it has no key records. -/
def joining : State := (calling 6 .configure).onStation .a 6 fun st => { st with keys := [] }

/-- R98: the inputs of a FADER and their classes. -/
theorem test_first_keys :
    ((after (.stationAnswer .a [⟨.a, chars [0x81, 0x01, 0xFF]⟩]) joining).station? .a 6).map
      (fun st => st.keys.map fun e => (e.1, e.2.inputClass)) =
    some [(1, .fader), (2, .fader), (3, .fader), (4, .fader), (5, .key), (6, .key), (7, .key), (8, .key)] := by
  decide +kernel

/-- R121: an EXPECTED station that answers with its kind is JOINING, a JOINING one ONLINE, and another kind is a MISMATCH. -/
theorem test_stationAnswer :
    ((after (.stationAnswer .a [⟨.a, chars [0x81, 0x00, 0xFF]⟩]) (calling 7 .call)).station? .a 7).map (·.state) = some .joining ∧
    ((after (.stationAnswer .a [⟨.a, chars [0x81, 0x01, 0xFF]⟩]) (calling 6 .configure)).station? .a 6).map (·.state) =
      some .online ∧
    ((after (.stationAnswer .a [⟨.a, chars [0x81, 0x02, 0xFF]⟩]) (calling 5 .call)).station? .a 5).map (·.state) =
      some .mismatch := by decide +kernel

/-- R121, R122: the third miss of a polled station makes it MISSING. -/
theorem test_answerWindowExpiry :
    ((after (.answerWindowExpiry .a) (calling 6 .configure)).station? .a 6).map (fun st => (st.state, st.missCount)) =
      some (.missing, 3) := by decide +kernel

/-- R124, R112: accepted-through takes the snapshot sequence, and a key found down is pressed. -/
theorem test_snapshotAnswer :
    let t := after (.snapshotAnswer .a [⟨.a, chars [0x82, 0, 9, 0, 1]⟩]) (calling 5 .snapshotCall)
    (t.station? .a 5).map (·.accepted) = some 9 ∧ (t.key? ⟨.a, 5, 1⟩).map (·.state) = some .down := by decide +kernel

theorem test_stationFrameSent :
    ((after (.stationFrameSent .a) (after (.slotStart .a) house)).lineA.slot.bind (·.window)) = some 3 := by decide +kernel

/-- The house with the key record of input 1 of A5 as given. -/
def keyed (r : KeyRecord) : State := house.onKey ⟨.a, 5, 1⟩ fun _ => r

/-- R102, R104, R105. -/
theorem test_key_timers :
    ((after (.holdTimerExpiry ⟨.a, 5, 1⟩) (keyed { KeyRecord.fresh .key with state := .down, holdTimer := some 1 })).key?
      ⟨.a, 5, 1⟩).map (·.state) = some .held ∧
    ((after (.doubleTimerExpiry ⟨.a, 5, 1⟩) (keyed { KeyRecord.fresh .key with state := .waitSecond, doubleTimer := some 1 })).key?
      ⟨.a, 5, 1⟩).map (·.state) = some .up ∧
    (after (.stuckTimerExpiry ⟨.a, 5, 1⟩) (keyed { KeyRecord.fresh .key with state := .down, stuckTimer := some 1 })).notices.stuck =
      true := by decide +kernel

/-- The house while rack 2 may reply. -/
def listeningTo (rack : Nat) : State :=
  { house with rackSlot := some ⟨rack, ⟨List.replicate 32 0, 0⟩, some 10, false⟩ }

/-- R153 to R155: a reply clears the miss count, and the third miss of an ONLINE rack makes it LOST. -/
theorem test_rack_reply_and_miss :
    (Table.at? (after (.rackReply (chars [2, 2, 0, 0, 0, 0])) (listeningTo 2)).racks 2) =
      some ⟨.online, 0, some .breaker, 0, none⟩ ∧
    (Table.at? (after .replyWindowExpiry (listeningTo 2)).racks 2).map (·.state) = some .lost := by decide +kernel

/-! ## Witnesses: states and operands that meet the hypotheses of the obligations -/

/-- The house while a save runs. -/
def savingHouse : State := { house with saving := some .blank }

/-- The house with a protect size of 64, locked or not. -/
def lockable (lock : Bool) : State := { house with protectSize := 64, houseLock := lock }

/-- The house with a list of claims on circuit 1. -/
def crowded (o : Origin) : State :=
  house.onCircuit 1 fun x => { x with claims := claimOf o 0 :: claimsAt [1, 1, 1, 1, 1, 1, 1] }

/-- Bodies of ConfigureCircuit: circuit 9 DIMMED in zone 2 with both flags, circuit 9 TRANSFER, and circuit 7 as it is. -/
def dimmedBody : List Byte := [0, 9, 0, 1, 9, 0, 0, 2, 0, 0, 3, 0xE8, 0, 0, 0, 0, 0, 5, 0, 200, 0, 5, 0]
def transferBody (id channel : Byte) : List Byte :=
  [0, id, 2, 1, channel, 2, channel, 0, 0, 0, 3, 0xE8, 0, 0, 0, 0, 0, 5, 0, 200, 0, 5, 0]

/-- The house with one binding, on input 7 of A5. -/
def acting (b : Nat) (g : Gesture) (a : Action) : State := { house with bindings := [(b, bound 7 g a)] }

/-- What the statements on firings ask of the state before them. -/
theorem acting_meets (b : Nat) (g : Gesture) (a : Action) : (acting b g a).offered = none ∧ (acting b g a).ListsSound ∧
    (acting b g a).TablesInOrder ∧ Table.at? (acting b g a).bindings b = some (bound 7 g a) :=
  ⟨rfl, house_lists, ⟨house_tables.1, house_tables.2.1, List.pairwise_singleton .., house_tables.2.2.2⟩, if_pos rfl⟩

theorem house_feeds : house.FeedsSound := by
  have h : ∀ e ∈ house.circuits, (e.2.config.kind = .transfer → e.2.transition.relay.isSome = true) ∧
      (e.2.config.kind ≠ .transfer → e.2.transition.feed = .house ∧ e.2.transition.pendingTransfer = none ∧
        e.2.transition.relay = none ∧ e.2.transition.phase.inTransfer = false) := by decide +kernel
  exact h

theorem witness_StepTakesTheFrontOrAMillisecond :
    (house.withPending [.saveComplete, .fetch 1]).pending = .saveComplete :: [.fetch 1] ∧ house.pending = [] ∧
    house.power = .running ∧ (after .pinReset house).pending = [] ∧ (after .pinReset house).power ≠ .running := by
  decide +kernel

theorem witness_WhenRequestsAreNotTaken : house.TakesRequests ∧
    ((after .pinReset house).power ≠ .running ∧ actsInReset (.fetch 3) = false) ∧
    ((after (.survey 1 [0]) house).power = .running ∧ (after (.survey 1 [0]) house).hostSlot ≠ .idle ∧
      requestParts (.identify 2 []) = some (2, []) ∧ (0x03 : Byte) ≠ 0xA5) ∧
    (requestOf false (0x03 : Byte).toNat).isNone = true ∧ 250 < (251 : Byte).toNat ∧
    ([] : List Byte).length ≠ (1 : Byte).toNat ∧
    (∀ n ∈ [0, 1, 2, 3, 4, 7], n ≤ 250 ∧ (List.replicate (n + 1) (0 : Byte)).length ≠ n) := ⟨house_takes, by decide +kernel⟩

theorem witness_FetchDeliversTheAnswer :
    let t := after (.setMode 9 [3]) house
    t.power = .running ∧ t.hostSlot = .answerReady ⟨9, .ok, false, []⟩ ∧ 5 ≤ 5 ∧ 0 < 4 ∧ 4 < 5 ∧ house.hostSlot = .idle := by
  decide +kernel

theorem witness_IdentifyAnswers : house.TakesRequests ∧ ([] : List Byte).length ≤ 250 ∧ ([0] : List Byte) ≠ [] :=
  ⟨house_takes, by decide⟩

theorem witness_ReadAttentionTakesTheSet : house.TakesRequests ∧ (List.replicate 250 (0 : Byte)).length ≤ 250 ∧
    List.replicate 250 (0 : Byte) ≠ [] := ⟨house_takes, by decide +kernel⟩

theorem witness_ResetsBeginAndEnd : house.TakesRequests ∧ house.power ≠ .inReset .power ∧
    (after .powerReset house).power = .inReset .power ∧ ([0] : List Byte) ≠ [] := ⟨house_takes, by decide +kernel⟩

theorem witness_StartUpLoadsAndClears :
    let stored := after .saveComplete (after (.saveImage 1 []) house)
    (after .pinReset stored).power = .inReset .pin ∧ (after .pinReset stored).image.isSome = true := by decide +kernel

theorem witness_ResetStateIsAfterPowerReset :
    let s := after .powerReset State.reset
    s.power = .inReset .power ∧ s.image = none ∧ s.panicInput = false := by decide +kernel

theorem witness_WinningTierAndRawValue :
    winningTier [] = none ∧ winningTier [{ claimOf .host 1 with dormant := true }] = none ∧
    winningTier (claimsAt [0, 0]) = some 0 ∧ winningTier (claimsAt [0, 1]) = some 1 ∧ winningTier (claimsAt [2, 1]) = some 2 ∧
    winningTier (claimsAt [3]) = some 3 := by decide

theorem witness_ResolutionComputesTheTarget :
    winningTier (holding (wired .dimmed 1) (claimsAt [3])).claims = some 3 ∧
    winningTier (holding (wired .dimmed 1) []).claims ≠ some 3 ∧ rawValue 1000 [] ≤ 1000 ∧ (1000 : Nat) ≤ 1000 := by decide

/-- A list cut at its first claim. -/
theorem claimsAt_cut (t : Nat) (ts : List Nat) :
    ∃ newer, claimsAt (t :: ts) = [] ++ claimOf (.binding 1) t :: newer := by
  refine ⟨(claimsAt (t :: ts)).tail, ?_⟩
  simp [claimsAt, List.range_succ_eq_map]

theorem witness_PlacementRule :
    (Table.at? house.circuits 1).isSome = true ∧
    (∃ newer, claimsAt [0, 1, 0, 2, 1, 0, 2, 1] = [] ++ claimOf (.binding 1) 0 :: newer) ∧
    (∀ y ∈ claimsAt [0, 1, 0, 2, 1, 0, 2, 1], y.origin ≠ .host ∧ (claimOf (.binding 1) 0).tier ≤ y.tier) ∧
    ((∀ y ∈ claimsAt [0, 0, 0, 0, 0, 0, 0], y.origin ≠ .host) ∧ (claimsAt [0, 0, 0, 0, 0, 0, 0]).length < 8) ∧
    (∃ newer, claimsAt [1, 1, 2, 1, 2, 2, 1, 1] = [] ++ claimOf (.binding 1) 1 :: newer) ∧
    (∀ y ∈ claimsAt [1, 1, 2, 1, 2, 2, 1, 1], 1 ≤ y.tier) ∧ 0 < (claimOf (.binding 1) 1).tier := by
  refine ⟨by decide +kernel, claimsAt_cut .., by decide, by decide, claimsAt_cut .., ?_⟩
  decide

theorem witness_DisplacementMarksTheOwner :
    (house.place 1 (claimOf .host 0)).2 = .appended (some (claimOf (.binding 1) 0)) ∧
    ((crowded (.scene 1)).place 1 (claimOf (.binding 9) 1)).2 = .appended (some (claimOf (.scene 1) 0)) ∧
    ((crowded .host).place 1 (claimOf (.binding 9) 1)).2 = .appended (some (claimOf .host 0)) ∧
    (house.place 2 (claimOf (.binding 9) 0)).2 = .refused ∧ (house.place 2 (claimOf (.scene 2) 0)).2 = .refused ∧
    (house.place 1 (claimOf (.binding 1) 0)).2 = .replaced ∧ (house.place 7 (claimOf .host 0)).2 = .appended none ∧
    (house.place 99 (claimOf .host 0)).2 = .unconfigured := by decide +kernel

theorem witness_RemovalResolvesWithTheReleaseFade :
    ((Table.at? house.circuits 7).map (·.claims)) = some [] ∧
    ((Table.at? house.circuits 1).map (·.claims)) = some ([] ++ claimOf (.binding 1) 0 :: (claimsAt [0, 1, 0, 2, 1, 0, 2, 1]).tail) := by
  decide +kernel

/-- A state with a request in front, on which the invariants are met. -/
theorem witness_ListsStayWithinTheirLimits : (house.withPending [.setHostLevel 1 [0, 1, 2, 0, 5, 0, 0]]).ListsSound ∧
    ∃ t, step (house.withPending [.setHostLevel 1 [0, 1, 2, 0, 5, 0, 0]]) = .next t := ⟨house_lists, _, rfl⟩

theorem witness_TablesStayInOrder : house.TablesInOrder ∧ ∃ t, step house = .next t := ⟨house_tables, _, rfl⟩

theorem witness_TransfersStaySound : (house.withPending [.blockTimerExpiry 4]).BlockTimersSound ∧
    (house.withPending [.blockTimerExpiry 4]).TablesInOrder ∧ (house.withPending [.blockTimerExpiry 4]).FeedsSound ∧
    ∃ t, step (house.withPending [.blockTimerExpiry 4]) = .next t := ⟨house_blocks, house_tables, house_feeds, _, rfl⟩

theorem witness_FadeAndOutputArithmetic :
    (0 < 5 ∧ 5 ≤ 5 ∧ 107 ≤ 600 ∧ 0 < 1 ∧ 0 ≤ 1 ∧ 400 ≤ 406) ∧
    (wired .switched 1).kind = .switched ∧ (wired .dimmed 1).kind ≠ .switched ∧ (moving .steady 0).egressFlag = false ∧
    (moving .steady 0).level = 0 ∧ 0 < (moving .steady 1).level ∧ { moving .steady 1000 with egressFlag := true }.egressFlag = true ∧
    (wired .dimmed 1).minTrim < (wired .dimmed 1).maxTrim ∧ (wired .dimmed 1).maxTrim ≤ 1000 ∧
    (moving .steady 1000).level ≤ 1000 := by decide

theorem witness_HandoverByPhase :
    ((moving .steady 400).phase = .steady ∧ 400 = (moving .steady 400).level) ∧
    ((moving .fading 400).phase = .fading ∧ 401 ≠ (moving .fading 400).level) ∧ (moving .downslope 400).phase = .downslope ∧
    (moving .block 0).phase = .block ∧ (moving .upslope 400).phase = .upslope := by decide

theorem witness_StepTimerTakesOneStep : house.power = .running ∧ Table.at? house.circuits 99 = none ∧
    ((Table.at? house.circuits 4).map (·.transition.phase)) = some .block ∧
    ((Table.at? house.circuits 6).map fun x => (x.transition.phase, x.transition.stepCount, x.transition.stepTotal)) =
      some (.downslope, 24, 25) ∧
    (fadingAt .fading 23 25).stepCount + 1 < (fadingAt .fading 23 25).stepTotal ∧
    (fadingAt .upslope 24 25).stepTotal ≤ (fadingAt .upslope 24 25).stepCount + 1 := by decide +kernel

theorem witness_BlockTimerEndsTheBlock : house.power = .running ∧ Table.at? house.circuits 99 = none ∧
    ((Table.at? house.circuits 4).map (·.transition.phase)) = some .block ∧
    ((Table.at? house.circuits 7).map (·.transition.phase)) = some .steady ∧
    house.requiredFeed ≠ (moving .block 0).feed.other ∧ house.latchCopy = false ∧
    ((Table.at? house.racks 1).map (·.state)) = some .online ∧
    { house with requiredFeed := .stage }.requiredFeed = (moving .block 0).feed.other := by decide +kernel

/-- The checks of R2 that a configuration for a circuit of the house passes. -/
def fitsHouse (id : Nat) (c : CircuitConfig) : Prop :=
  (∀ z, c.zone = some z → z = 2) ∧ c.stage ≠ some c.house ∧
  ∀ e ∈ house.circuits, e.1 ≠ id → ∀ ch ∈ [c.house] ++ c.stage.toList, e.2.config.house ≠ ch ∧ e.2.config.stage ≠ some ch

theorem witness_ConfigureNewCircuit : house.TakesRequests ∧ house.saving = none ∧
    (∃ c, decodeCircuit dimmedBody = .ok (9, c) ∧ fitsHouse 9 c ∧ c.kind = .dimmed) ∧
    (∃ c, decodeCircuit (transferBody 9 9) = .ok (9, c) ∧ fitsHouse 9 c ∧ c.kind = .transfer ∧
      house.feedOnline c .stage = true ∧ { house with racks := [] }.feedOnline c .stage = false) ∧
    Table.at? house.circuits 9 = none ∧ (Table.at? house.zones 2).isSome = true ∧ house.requiredFeed = .house ∧
    { house with requiredFeed := .stage }.requiredFeed = .stage ∧ house.latchCopy = false := by
  refine ⟨house_takes, rfl, ⟨_, rfl, ⟨?_, ?_⟩, rfl⟩, ⟨_, rfl, ⟨?_, ?_⟩, rfl, ?_⟩, ?_⟩
  · rintro _ ⟨⟩; rfl
  · decide +kernel
  · exact nofun
  all_goals decide +kernel

theorem witness_ReconfigureKeepsTheClaims : house.TakesRequests ∧ house.saving = none ∧ house.TablesInOrder ∧
    (∃ c x, decodeCircuit (transferBody 7 7) = .ok (7, c) ∧ Table.at? house.circuits 7 = some x ∧ fitsHouse 7 c ∧
      (c.kind = .transfer ∧ x.config.kind = .transfer) ∧ x.transition.phase.inTransfer = false ∧
      house.latch = false ∧ x.transition.phase.mayTransfer = true) ∧
    (∃ c x, decodeCircuit (transferBody 5 5) = .ok (5, c) ∧ Table.at? house.circuits 5 = some x ∧ fitsHouse 5 c ∧
      (c.kind = .transfer ∧ x.config.kind ≠ .transfer) ∧ x.transition.phase.inTransfer = false ∧
      c.egress = false ∧ x.config.egress = true) ∧
    { house with latch := true, requiredFeed := .stage }.TakesRequests := by
  refine ⟨house_takes, rfl, house_tables, ⟨_, _, rfl, rfl, ⟨nofun, ?_⟩, ?_⟩, ⟨_, _, rfl, rfl, ⟨nofun, ?_⟩, ?_⟩, house_takes⟩
  all_goals decide +kernel

theorem witness_ConfigureCircuitChecks : savingHouse.TakesRequests ∧ savingHouse.saving.isSome = true ∧
    decodeCircuit [] = .malformed ∧ decodeCircuit (transferBody 0 7) = .outOfRange ∧
    (∃ c, decodeCircuit (dimmedBody.set 7 3) = .ok (9, c) ∧ c.zone = some 3 ∧ Table.at? house.zones 3 = none) ∧
    (∃ c, decodeCircuit (transferBody 9 7) = .ok (9, c) ∧ c.zone = none ∧ ∃ e ∈ house.circuits, e.1 ≠ 9 ∧ e.2.config.house = c.house) ∧
    ∃ c x, decodeCircuit (transferBody 4 9) = .ok (4, c) ∧ Table.at? house.circuits 4 = some x ∧ c.zone = none ∧
      x.transition.phase = .block ∧ c.house ≠ x.config.house := by
  refine ⟨house_takes, rfl, rfl, rfl, ⟨_, rfl, ?_⟩, ⟨_, rfl, ?_⟩, ⟨_, _, rfl, rfl, ?_⟩⟩
  all_goals decide +kernel

theorem witness_UnconfigureCircuitChecksAndDrops : house.TakesRequests ∧ savingHouse.saving.isSome = true ∧
    (1 : Byte).toNat * 256 + (1 : Byte).toNat = 257 ∧ Table.at? house.circuits 256 = none ∧
    (∃ e ∈ house.scenes, ∃ x ∈ e.2.definition.entries, x.1 = 5) ∧
    ((Table.at? house.circuits 4).map (·.transition.phase.inTransfer)) = some true ∧
    ((Table.at? house.circuits 2).map (·.transition.phase.inTransfer)) = some false ∧
    (∀ e ∈ house.bindings, e.2.record.action.area? ≠ some (.circuit 2)) ∧
    (∀ e ∈ house.scenes, ∀ x ∈ e.2.definition.entries, x.1 ≠ 2 ∧ x.1 ≠ 4) := ⟨house_takes, by decide +kernel⟩

theorem witness_ReadCircuitAndReadZoneReport : house.TakesRequests ∧
    ((Table.at? house.circuits 1).map (·.claims.length)) = some 8 ∧ Table.at? house.circuits 256 = none ∧
    Table.at? house.zones 32 = none ∧ (Table.at? house.zones 1).isSome = true ∧ (house.members 1).length ≤ 123 :=
  ⟨house_takes, by decide +kernel⟩

theorem witness_HostLevelRequests : house.TakesRequests ∧ Table.at? house.circuits 256 = none ∧
    (Table.at? house.circuits 2).isSome = true ∧
    (house.place 2 ⟨.host, 0, 1000, 6000, 6000, none, none, false⟩).2 = .refused ∧
    (house.place 7 ⟨.host, 2, 0, 0, 0, none, none, false⟩).2 ≠ .refused ∧
    ((Table.at? house.circuits 7).map (·.claims)) = some [] ∧
    ((Table.at? house.circuits 3).map (·.claims)) = some ([] ++ claimOf .host 1 :: [claimOf (.scene 1) 0]) :=
  ⟨house_takes, by decide +kernel⟩

theorem witness_ZoneRequests : house.TakesRequests ∧ Table.InOrder house.circuits ∧ savingHouse.saving.isSome = true ∧
    1 < (2 : Byte).toNat ∧ (1 ≤ 32 ∧ (0 : Byte).toNat * 256 + (100 : Byte).toNat ≤ 100) ∧
    (∃ e ∈ house.circuits, e.2.config.zone = some 1) ∧ Table.at? house.zones 32 = none ∧
    ((Table.at? house.zones 2).isSome = true ∧ (∀ e ∈ house.circuits, e.2.config.zone ≠ some 2 ∧ e.2.config.zone ≠ some 32) ∧
      ∀ e ∈ house.bindings, e.2.record.action.area? ≠ some (.zone 2) ∧ e.2.record.action.area? ≠ some (.zone 32)) ∧
    Table.at? house.zones 1 = some ⟨800, 10⟩ ∧ min 1000 800 = 800 ∧ min 1000 1001 ≠ 800 :=
  ⟨house_takes, house_tables.1, by decide +kernel⟩

theorem witness_BindingBodiesRoundTrip :
    let r : BindingRecord := ⟨⟨.b, 60, 16⟩, .down, workOnly, .level (.circuit 256) 1000 2 6000 true, some .follow, false⟩
    1 ≤ 1024 ∧ 1024 ≤ 1024 ∧ 1 ≤ r.source.address ∧ r.source.address ≤ 60 ∧ 1 ≤ r.source.input ∧ r.source.input ≤ 16 ∧
    r.modes.has .work = true ∧ r.action.allows r.gesture = true ∧ r.action.allowsLamp r.lamp = true ∧
    r.action.inRange = true ∧ r.suspended = false := by decide

/-- The body of a WriteBinding of a NOTIFY binding on PRESS of an input of A5. -/
def notifyBody (id input : Byte) : List Byte := [0, id, 0, 5, input, 2, 1, 11, 0xFF, 4, 0, 0]

/-- The records of the bindings of the house but for one. -/
def otherRecords (id : Nat) : List BindingRecord := (house.bindings.filter fun e => e.1 != id).map fun e => e.2.record

theorem witness_WriteBindingChecksAndStores : savingHouse.TakesRequests ∧ house.ListsSound ∧ house.TablesInOrder ∧
    decodeBinding [] = .malformed ∧ decodeBinding (notifyBody 0 7) = .outOfRange ∧
    (∃ r, decodeBinding (notifyBody 64 7) = .ok (64, r) ∧ house.targetExists r.action = true) ∧
    (∃ r, decodeBinding [0, 99, 0, 5, 7, 2, 1, 3, 0xFF, 2, 0, 9, 0] = .ok (99, r) ∧ house.targetExists r.action = false) ∧
    (∃ r, decodeBinding (notifyBody 99 3) = .ok (99, r) ∧ (otherRecords 99).any r.agrees = true) ∧
    (∃ r, decodeBinding (notifyBody 3 3) = .ok (3, r) ∧ (otherRecords 3).any r.agrees = false) ∧
    savingHouse.saving.isSome = true ∧ 64 ≤ (lockable true).protectSize ∧ (Table.at? house.bindings 3).isSome = true ∧
    4 ≤ (([10, 11, 12, 13].map fun n => (bound 7 .press (.sceneOff n)).record).filter fun q =>
      q.source == ⟨.a, 5, 7⟩ && q.gesture == .press).length := by
  refine ⟨house_takes, house_lists, house_tables, rfl, rfl, ⟨_, rfl, ?_⟩, ⟨_, rfl, ?_⟩, ⟨_, rfl, ?_⟩, ⟨_, rfl, ?_⟩, ?_⟩
  all_goals decide +kernel

theorem witness_LifecycleRequestsOfABinding : house.TakesRequests ∧ house.ListsSound ∧ house.TablesInOrder ∧
    house.saving = none ∧ savingHouse.saving.isSome = true ∧
    (4 : Byte).toNat * 256 + (1 : Byte).toNat = 1025 ∧ (64 ≤ (lockable true).protectSize ∧ (lockable true).houseLock = true) ∧
    (64 ≤ (lockable false).protectSize ∧ (lockable false).houseLock = false) ∧ ¬ 1024 ≤ house.protectSize ∧
    Table.at? house.bindings 1024 = none ∧ ((Table.at? house.bindings 200).map (·.record.suspended)) = some true ∧
    ((Table.at? house.bindings 1).map (·.record.suspended)) = some false :=
  ⟨house_takes, house_lists, house_tables, by decide +kernel⟩

theorem witness_FireBindingFromTheHost : house.TakesRequests ∧ house.offered = none ∧ 64 ≤ (lockable true).protectSize ∧
    Table.at? house.bindings 1024 = none ∧ (Table.at? house.bindings 4).map (·.record.action) = some (.followMaster 1) ∧
    (Table.at? house.bindings 4).map (·.record.gesture) = some .move ∧
    (Table.at? house.bindings 3).map (·.record.action) = some .notify ∧
    (Table.at? house.bindings 2).map (·.record.action) = some (.raise 1 40) ∧
    (Table.at? house.bindings 5).map (·.record.action) = some (.level (.circuit 3) 700 1 5 true) ∧
    (Table.at? house.bindings 200).map (fun b => (b.record.gesture, b.record.suspended)) = some (.press, true) ∧
    workOnly.has house.mode = true ∧ workOnly.has .night = false ∧ (Table.at? house.zones 1).isSome = true ∧
    ([0] : List Byte).length ≠ 2 ∧ ([0] : List Byte).length ≠ 4 := ⟨house_takes, by decide +kernel⟩

theorem witness_ReadBindingAndReadNotified : house.TakesRequests ∧ Table.InOrder house.bindings ∧
    Table.at? house.bindings 1024 = none ∧ (Table.at? (lockable true).bindings 1).isSome = true ∧
    (1 ≤ (lockable true).protectSize ∧ (lockable true).houseLock = true) ∧ house.protectSize < 1 :=
  ⟨house_takes, house_tables.2.2.1, by decide +kernel⟩

theorem witness_HouseLockGuardsTheHousePartition :
    let c : Instr := .requestTransferMalformed true (0x20 :: 1 :: 12 :: notifyBody 64 7)
    (lockable true).houseLock = true ∧ (∀ i tag body, c ≠ .eraseHouse i tag body) ∧ (∀ tag body, c ≠ .restart tag body) ∧
    c ≠ .startUp ∧ (∀ i rest, c ≠ .requestTransferMalformed i (0x29 :: rest) ∧ c ≠ .requestTransferMalformed i (0x62 :: rest)) ∧
    ∃ t, exec c (lockable true) = .next t := by
  refine ⟨rfl, nofun, nofun, nofun, fun i rest => ⟨?_, ?_⟩, _, rfl⟩ <;> (intro h; injection h with _ h; injection h with h; revert h; decide)

theorem witness_HousePartitionAndSaveRequests : house.TakesRequests ∧ savingHouse.TakesRequests ∧ house.saving = none ∧
    savingHouse.saving = some .blank ∧ house.ListsSound ∧ house.TablesInOrder ∧ 1 ≤ (lockable false).protectSize ∧
    (Table.at? (lockable false).bindings 1).isSome = true :=
  ⟨house_takes, house_takes, rfl, rfl, house_lists, house_tables, by decide +kernel⟩

theorem witness_WriteSceneAndDeleteScene : house.TakesRequests ∧ house.ListsSound ∧ house.TablesInOrder ∧
    decodeScene [] = .malformed ∧ decodeScene [97, 0, 0, 0, 0, 1, 0, 0x10, 0] = .outOfRange ∧
    (∃ d, decodeScene [96, 0, 0, 0, 0, 1, 0x06, 0x30, 0] = .ok (96, d) ∧ ∃ e ∈ d.entries, Table.at? house.circuits e.1 = none) ∧
    (∃ d, decodeScene [2, 0, 0, 0, 0, 1, 0, 0x50, 0] = .ok (2, d) ∧ (∀ e ∈ d.entries, (Table.at? house.circuits e.1).isSome = true) ∧
      house.holds (.scene 2) = 0) ∧
    (∃ d, decodeScene [1, 0, 0, 0, 0, 1, 0, 0x50, 0] = .ok (1, d) ∧ 0 < house.holds (.scene 1) ∧
      house.poolInUse - 1 + d.entries.length ≤ 2048 ∧ ∀ e ∈ d.entries, e ∉ [(3, 600)]) ∧
    savingHouse.saving.isSome = true ∧ 2048 < 2048 - 1 + 2 ∧ Table.at? house.scenes 96 = none ∧
    (Table.at? house.scenes 1).isSome = true ∧ (∀ e ∈ house.bindings, e.2.record.action.sceneTarget? ≠ some 1) ∧
    (Action.scene 1 2).sceneTarget? = some 1 := by
  refine ⟨house_takes, house_lists, house_tables, rfl, rfl, ⟨_, rfl, ?_⟩, ⟨_, rfl, ?_⟩, ⟨_, rfl, ?_⟩, ?_⟩
  all_goals decide +kernel

/-- R85: a pool of 2048 entries is full when 32 scenes of 64 entries are defined, and FULL meets a further entry. -/
theorem witness_WriteScene_full :
    let full : State := { house with
      scenes := (identifiers 32).map fun n => (n, .define ⟨(identifiers 64).map fun c => (c, 0), 0, 0⟩) }
    full.poolInUse = 2048 ∧ 2048 < full.poolInUse - 64 + 65 := by decide +kernel

theorem witness_RecallReleaseAndReadScene : house.TakesRequests ∧ house.ListsSound ∧ Table.InOrder house.circuits ∧
    Table.at? house.scenes 96 = none ∧ 2 < (3 : Byte).toNat ∧
    Table.at? house.scenes 2 = some (.define ⟨[(5, 300), (7, 400)], 0, 0⟩) ∧
    ([5, 7].Pairwise (· < ·)) ∧ house.holds (.scene 2) = 0 ∧
    ((Table.at? house.circuits 5).map (·.claims)) = some [] ∧ ((Table.at? house.circuits 7).map (·.claims)) = some [] ∧
    0 < house.holds (.scene 1) ∧ (∀ e ∈ house.circuits, (∃ k ∈ e.2.claims, k.origin = .scene 1) → e.1 ∈ [3]) :=
  ⟨house_takes, house_lists, house_tables.1, by decide +kernel⟩

theorem witness_StationRequests : house.TakesRequests ∧ house.ListsSound ∧ house.TablesInOrder ∧ decodeStation [] = .malformed ∧
    decodeStation [0, 61, 0] = .outOfRange ∧ decodeStation [1, 60, 0] = .ok (.b, 60, .keypad) ∧
    decodeStation [0, 5, 0] = .ok (.a, 5, .keypad) ∧ decodeStation [0, 5, 1] = .ok (.a, 5, .fader) ∧
    house.station? .b 60 = none ∧ savingHouse.saving.isSome = true ∧ house.saving = none ∧
    ((house.station? .a 5).map fun st => (st.setup, st.state, st.keys.length)) = some (.keypad, .online, 1) ∧
    (Station.fresh .keypad).lamps.length ≤ 12 := ⟨house_takes, house_lists, house_tables, rfl, rfl, rfl, rfl, rfl, by decide +kernel⟩

theorem witness_GroupRequests : house.TakesRequests ∧ decodeGroup [] = .malformed ∧
    decodeGroup [16] = .outOfRange ∧ decodeGroup [4] = .ok (4, []) ∧ decodeGroup [3, 0, 5] = .ok (3, [⟨.a, 5⟩]) ∧
    savingHouse.saving.isSome = true ∧ ((Table.at? house.groups 4).map (·.hasPending)) = some true ∧
    ((Table.at? house.groups 3).map fun g => (g.members, g.delivery)) = some ([], none) ∧ 2 < (3 : Byte).toNat ∧
    ((Table.at? house.groups 1).map (·.members)) = some [⟨.a, 5⟩, ⟨.b, 9⟩] ∧
    ((house.station? .a 5).map (·.state)) = some .online ∧ house.station? .b 9 = none ∧ house.lineA.state = .intact ∧
    ((house.station? .a 7).map (·.state)) = some .expected ∧ (15 : Byte).toNat ≤ 15 ∧ 15 < (16 : Byte).toNat :=
  ⟨house_takes, rfl, rfl, rfl, rfl, by decide +kernel⟩

/-- The house with line A in a state, a slot and a listen. -/
def lined (state : LineState) (slot : Option Slot) (listen : Option Nat) : State :=
  { house with lineA := { house.lineA with state := state, slot := slot, listen := listen } }

/-- The same while a LineRestart is in work. -/
def restarting (state : LineState) : State :=
  { lined state none (some 200) with hostSlot := .working ⟨0x49, 1, [0]⟩ }

/-- A slot that sends one frame. -/
def sending (carries : SlotUse) (frames : List (List Byte)) (other : Option LineEnd) : Slot :=
  ⟨carries, [[0, 6, 0xFA]], .a, frames, other, none⟩

/-- A line in the answer window of a Survey's slot to an address. -/
def surveying (a : Nat) (state : LineState) (other : Option LineEnd) : State :=
  { house with
    lineA := { house.lineA with
      state := state, survey := some ⟨a, [(5, 0)], true, true⟩
      slot := some ⟨.survey a, [[0, 6, 0xFA]], .a, [], other, some 3⟩ }
    hostSlot := .working ⟨0x46, 1, [0]⟩ }

theorem witness_LineRequests : house.TakesRequests ∧ Table.InOrder ((lined .off none none).unit .a).stations ∧
    (∀ state, (lined state none none).TakesRequests ∧ ((lined state none none).unit .a).state = state) ∧
    (∀ a state other, (surveying a state other).power = .running ∧ ((surveying a state other).unit .a).state = state ∧
      ∃ x v, ((surveying a state other).unit .a).slot = some x ∧ ((surveying a state other).unit .a).survey = some v ∧
        x.window = some 3 ∧ x.carries = .survey a ∧ x.otherSide = other) ∧
    (house.unit .a).state = .intact ∧ house.saving = none ∧ savingHouse.saving.isSome = true ∧ (1 : Byte).toNat ≤ 1 ∧
    (59 < 60 ∧ ¬ 60 < 60) ∧ decodeAnswer (chars [0x81, 0x00, 0xFF]) = some ⟨0, false, .none, []⟩ ∧ decodeAnswer [] = none :=
  ⟨house_takes, house_tables.2.2.2.2.1.1, fun _ => ⟨house_takes, rfl⟩, fun _ _ _ => ⟨rfl, rfl, _, _, rfl, rfl, rfl, rfl, rfl⟩, by decide +kernel⟩

theorem witness_ForeignCharactersAndTheRestartListen :
    Table.InOrder ((restarting .contested).unit .a).stations ∧
    house.power = .running ∧ (house.unit .a).listen = none ∧ (house.unit .a).state = .intact ∧ (house.unit .a).survey = none ∧
    ((lined .off none none).unit .a).state = .off ∧ ((lined .contested none none).unit .a).listen = none ∧
    ((after (.survey 1 [0]) house).hostSlot = .working ⟨0x46, 1, [0]⟩ ∧ (after (.survey 1 [0]) house).lineA.survey.isSome = true) ∧
    (((restarting .contested).unit .a).listen = some 200 ∧ (restarting .contested).hostSlot = .working ⟨0x49, 1, [0]⟩) ∧
    (((restarting .split).unit .a).state ≠ .off ∧ ((restarting .split).unit .a).state ≠ .contested) :=
  ⟨house_tables.2.2.2.2.1.1, by decide +kernel⟩

theorem witness_EchoesSplitAndHeal :
    let broadcast : Slot := sending .continuity [[0, 6, 0xFA]] none
    let call : Slot := sending (.survey 5) [[5]] none
    house.power = .running ∧ (house.unit .a).slot = none ∧ call.sending ≠ [] ∧ { call with sending := [] }.sending = [] ∧
    ((lined .intact (some call) none).unit .a).slot = some call ∧ ((lined .intact (some call) none).unit .a).state = .intact ∧
    (1 < 2 ∧ 2 ≤ 2) ∧ ((lined .split (some call) none).unit .a).state = .split ∧ call.carries ≠ .continuity ∧
    ((lined .split (some broadcast) none).unit .a).slot = some broadcast ∧ broadcast.carries = .continuity ∧
    (house.unit .a).probeTimer = some 1000 ∧ (house.unit .a).survey = none ∧ (house.unit .a).healTimer = none ∧
    ({ house.lineA with healTimer := some 2000 }).healTimer = some 2000 ∧
    ((after (.lineRestart 1 [0]) house).unit .a).probeTimer = none := by decide +kernel

theorem witness_SlotsAreChosenInOrder : Table.InOrder (house.unit .a).stations ∧
    ({ house.unit .a with waiting := [1, 4] } : LineUnit).TablesInOrder ∧
    let survey := after (.survey 1 [0]) house
    let asked : LineUnit := { house.lineA with continuityAsked := true }
    let groups := after (.sendGroupLamp 1 [1, 2]) house
    let both := after (.probeTimerExpiry .a) house
    (house.power = .running ∧ (house.unit .a).slot = none ∧ (house.unit .a).listen = none ∧ (house.unit .a).state = .intact) ∧
    (survey.unit .a).survey = some ⟨1, [], false, false⟩ ∧ (asked.survey = none ∧ asked.continuityAsked = true) ∧
    ((groups.unit .a).waiting = 1 :: [] ∧ (groups.unit .a).continuityAsked = false ∧ (Table.at? groups.groups 1).isSome = true) ∧
    ((State.reset.unit .a).waiting = [] ∧ (State.reset.unit .a).stations = [] ∧ (State.reset.unit .a).probeList = []) ∧
    ((house.unit .a).nextPoll = some 6 ∧ (house.unit .a).nextProbe = none ∧ (house.station? .a 6).isSome = true) ∧
    ((both.unit .a).nextPoll = some 6 ∧ (both.unit .a).nextProbe = some 7 ∧ (both.unit .a).turn = .polled) ∧
    ({ house.lineA with turn := .probe }).turn = .probe ∧
    (sending (.survey 5) [[5], [6]] none).sending = [5] :: [6] :: [] ∧
    (sending (.groupLamp 1) [[65]] (some .b)).otherSide = some .b ∧ (sending (.groupLamp 1) [[65]] none).otherSide = none ∧
    (lined .off none none).lineA.state = .off :=
  ⟨house_tables.2.2.2.2.1.1, ⟨house_tables.2.2.2.2.1.1, house_tables.2.2.2.2.1.2.1, by decide⟩, by decide +kernel⟩

/-- The house while a call that queries group 4, or one whose record is gone, awaits its answer. -/
def querying (voided : Bool) : State := { house with
  lineA := { house.lineA with
    slot := some ⟨.call ⟨5, .call, none, some 4, false, voided⟩, [], .a, [], some .b, some 3⟩ } }

theorem witness_StationCallsEnd :
    ((calling 5 .call).ListsSound ∧ (calling 5 .call).TablesInOrder) ∧
    ((calling 7 .call).power = .running ∧ ((calling 7 .call).unit .a).slot.bind (·.window) = some 3 ∧
      ((calling 7 .call).station? .a 7).map (·.state) = some .expected) ∧
    ((calling 6 .configure).station? .a 6).map (fun st => (st.state, st.missCount)) = some (.joining, 2) ∧
    ((calling 5 .call).station? .a 5).map (fun st => (st.state, st.missCount)) = some (.online, 0) ∧
    ((calling 8 .call).station? .a 8).map (·.state) = some .mismatch ∧
    ((querying true).lineA.slot.isSome = true ∧ (querying false).lineA.slot.bind (·.otherSide) = some .b) ∧
    decodeAnswer (chars [0x81, 0x00, 0xFF]) = some ⟨0, false, .none, []⟩ ∧
    decodeAnswer (chars [0x81, 0x03, 0xFF]) = some ⟨3, false, .none, []⟩ ∧ stationKindOfNat 3 ≠ some .keypad ∧
    decodeAnswer [] = none ∧ decodeSnapshot [⟨0, false⟩] = none ∧
    decodeSnapshot (chars [0x82, 0, 9, 0, 0]) = some ⟨.keypad, 9, readingsOf 1 12 0⟩ ∧
    (joining.station? .a 6).map (fun st => (st.state, st.keys)) = some (.joining, []) ∧
    ((calling 6 .configure).station? .a 6).map (·.keys.length) = some 1 ∧
    ((calling 6 .snapshotCall).station? .a 6).map (·.setup.kind) = some .fader :=
  ⟨⟨house_lists, house_tables⟩, by decide +kernel⟩

theorem witness_SetModeAndReadMode : house.TakesRequests ∧ house.ListsSound ∧ house.TablesInOrder ∧
    let performing : State := { house with mode := .performance, requiredFeed := .stage }
    5 < (6 : Byte).toNat ∧ (HouseMode.prepare ≠ house.mode ∧ house.requiredFeed = house.mode.requires) ∧
    (((Table.at? house.bindings 1).map (·.record.modes)) = some workOnly ∧
      workOnly.has .work = true ∧ workOnly.has .prepare = false) ∧
    (HouseMode.work ≠ performing.mode ∧ performing.requiredFeed = performing.mode.requires ∧ performing.mode = .performance) ∧
    ({ house with bindings := [] }.leaving .work .interval = [] ∧ HouseMode.interval.requires ≠ house.mode.requires) ∧
    ((Table.at? house.circuits 7).map fun x => (x.config.kind, x.transition.phase, x.transition.feed)) =
      some (.transfer, .steady, .house) ∧
    ((Table.at? house.circuits 6).map fun x => (x.transition.phase, x.transition.feed)) = some (.downslope, .house) ∧
    (house.latchCopy = false ∧ house.feedOnline (wired .transfer 7) .stage = true) ∧
    house.feedOnline { wired .transfer 7 with stage := some ⟨3, 7⟩ } .stage = false :=
  ⟨house_takes, house_lists, house_tables, by decide +kernel⟩

theorem witness_PanicAndTheEgressLatch : house.TakesRequests ∧ house.ListsSound ∧ house.TablesInOrder ∧
    { house with latch := true }.TakesRequests ∧
    let timed : State := { house with panicInput := true, panicTimer := some 50 }
    let cleared : Circuit := holding { wired .transfer 5 with egress := true } [{ claimOf .egress 3 with release := 0 }]
    (after .pinReset house).power ≠ .running ∧ house.power = .running ∧ house.panicTimer = none ∧
    (timed.panicTimer = some 50 ∧ timed.panicInput = true ∧ timed.latch = false) ∧ { timed with panicInput := false }.panicInput = false ∧
    { timed with latch := true }.latch = true ∧
    (((Table.at? house.circuits 5).map fun x => (x.config.egress, x.claims)) = some (true, [])) ∧
    (((Table.at? house.circuits 1).map (·.config.egress)) = some false) ∧
    (house.panicFiltered = false ∧ house.latch = false) ∧ { house with panicFiltered := true }.panicFiltered = true ∧
    cleared.claims = [] ++ { claimOf .egress 3 with release := 0 } :: [] ∧ ({ claimOf .egress 3 with release := 0 }).release = 0 :=
  ⟨house_takes, house_lists, house_tables, house_takes, by decide +kernel⟩

theorem witness_RackRequestsAndSettings : house.TakesRequests ∧ decodeSettings [] = .malformed ∧
    decodeSettings [0x01, 0x2B, 1, 0x90, 0, 120, 0, 30, 0, 0, 0] = .outOfRange ∧
    decodeSettings [0x01, 0x2C, 1, 0x90, 0, 120, 0, 30, 0, 1, 0] = .ok (⟨300, 400, 120, 30, .work⟩, .b, .a) ∧
    savingHouse.saving.isSome = true ∧ house.saving = none ∧
    1 < (2 : Byte).toNat ∧ 8 < (9 : Byte).toNat ∧ (Table.at? house.racks 3).map (·.state) = some .absent ∧
    (Table.at? house.racks 2).map (fun r => (r.state, r.faults, r.last)) = some (.online, 1, none) ∧
    (List.replicate 32 (0 : Nat)).length = 32 := ⟨house_takes, rfl, rfl, rfl, by decide +kernel⟩

theorem witness_RackLinkSlots : Table.InOrder house.racks ∧
    let sent : State := { listeningTo 2 with rackSlot := (listeningTo 2).rackSlot.map fun x => { x with window := none } }
    let void : State := { listeningTo 2 with rackSlot := (listeningTo 2).rackSlot.map fun x => { x with voided := true } }
    house.power = .running ∧ house.roundTimer.isSome = true ∧ house.rackSlot = none ∧
    { house with roundTimer := none }.roundTimer = none ∧ (listeningTo 2).rackSlot.isSome = true ∧
    (sent.rackSlot.map fun x => (x.rack, x.window)) = some (2, none) ∧
    ((listeningTo 2).rackSlot.map fun x => (x.rack, x.window, x.voided)) = some (2, some 10, false) ∧
    (void.rackSlot.map fun x => (x.window, x.voided)) = some (some 10, true) ∧
    (Table.at? house.racks 2).map (fun r => (r.state, r.missCount)) = some (.online, 2) ∧
    (Table.at? house.racks 1).map (fun r => (r.state, r.missCount)) = some (.online, 0) ∧
    ((Table.at? (after (.configureRack 1 [3, 1]) house).racks 3).map (·.state)) = some .waiting ∧
    (decodeReply (chars [1, 0, 0, 0, 0, 0])).map (·.rack) = some 1 ∧ (decodeReply (chars [2, 0, 0, 0, 0, 0])).map (·.rack) = some 2 ∧
    (decodeReply []).isNone = true := ⟨house_tables.2.2.2.2.2.2.2.1, by decide +kernel⟩

theorem witness_LevelFrameCarriesTheOutputs : Table.InOrder house.circuits ∧
    1 ≤ 32 ∧ 32 ≤ 32 ∧ ((house.circuits.map (·.2.config.house)).Nodup ∧
      (house.circuits.filterMap (·.2.config.stage)).Nodup ∧
      ∀ e ∈ house.circuits, e.2.config.stage ≠ some e.2.config.house ∧ ∀ f ∈ house.circuits, f.2.config.stage ≠ some e.2.config.house) ∧
    (wired .dimmed 1).channelOf .house = some ⟨1, 1⟩ ∧ (wired .transfer 4).channelOf (Feed.other .house) = some ⟨2, 4⟩ ∧
    ∀ e ∈ house.circuits, e.2.config.house ≠ ⟨8, 32⟩ ∧ e.2.config.stage ≠ some ⟨8, 32⟩ := ⟨house_tables.1, by decide +kernel⟩

theorem witness_KeyTimersAndRepeats :
    let key : StationInput := ⟨.a, 6, 1⟩
    let with_ (r : KeyRecord) : State := house.onKey key fun _ => r
    (∀ e ∈ house.bindings, e.2.record.source ≠ key) ∧ house.power = .running ∧
    (with_ { KeyRecord.fresh .key with state := .down, holdTimer := some 1, stuckTimer := some 1 }).key? key =
      some { KeyRecord.fresh .key with state := .down, holdTimer := some 1, stuckTimer := some 1 } ∧
    (with_ { KeyRecord.fresh .key with state := .waitSecond, doubleTimer := some 1 }).key? key =
      some { KeyRecord.fresh .key with state := .waitSecond, doubleTimer := some 1 } ∧
    (with_ { KeyRecord.fresh .key with state := .held, stuckTimer := some 1 }).key? key =
      some { KeyRecord.fresh .key with state := .held, stuckTimer := some 1 } ∧
    house.key? key = some (.fresh .key) ∧ house.key? ⟨.a, 60, 1⟩ = none ∧ (∀ p ∈ house.repeats, p.binding ≠ 3) ∧
    house.repeats = [] ++ ⟨2, 1, true, 40, ⟨.a, 5, 2⟩, 100⟩ :: [] ∧ (Table.at? house.zones 1).isSome = true := by
  decide +kernel

theorem witness_KeyPressesAreClassified :
    let key : StationInput := ⟨.a, 6, 1⟩
    let with_ (state : KeyState) (plain : Bool) : State := house.onKey key fun r =>
      { r with state := state, plainRelease := plain, lastUpStamp := some 65500, downStamp := some 65500 }
    (∀ e ∈ house.bindings, e.2.record.source ≠ key) ∧ (∀ p ∈ house.repeats, p.key ≠ key) ∧
    (house.key? key).map (fun r => (r.inputClass, r.state, r.holdings)) = some (.key, .up, []) ∧
    ((with_ .waitSecond false).key? key).map (fun r => (r.state, r.lastUpStamp)) = some (.waitSecond, some 65500) ∧
    ((364 : Stamp) - 65500).toNat ≤ house.settings.doubleWindow ∧ ¬ ((365 : Stamp) - 65500).toNat ≤ house.settings.doubleWindow ∧
    ((with_ .down true).key? key).map (fun r => (r.state, r.plainRelease)) = some (.down, true) ∧
    ((with_ .down false).key? key).map (fun r => (r.plainRelease, r.downStamp)) = some (false, some 65500) ∧
    house.settings.hold ≤ ((564 : Stamp) - 65500).toNat ∧ ¬ house.settings.hold ≤ ((563 : Stamp) - 65500).toNat ∧
    ((with_ .held false).key? key).map (·.state) = some .held ∧ ((with_ .stuck false).key? key).map (·.state) = some .stuck ∧
    house.hasDouble key = false ∧ (acting 1 .double .notify).hasDouble ⟨.a, 5, 7⟩ = true := by decide +kernel

theorem witness_EventsAreAcceptedOnceInOrder :
    ((house.station? .a 5).map fun st => (st.keys.length, st.accepted)) = some (1, 0) ∧
    (1 + 16 - (0 + 1) % 16) % 16 = 0 ∧ (0 + 16 - (0 + 1) % 16) % 16 = 15 ∧ (11 + 16 - (0 + 1) % 16) % 16 = 10 ∧
    (10 + 16 - (0 + 1) % 16) % 16 = 9 ∧ (2 + 16 - (0 + 1) % 16) % 16 = 1 ∧
    ([⟨1, 1, .down, 5⟩, ⟨2, 1, .up, 9⟩] : List StationEvent).map (·.sequence) = [(0 + 1 + 0) % 16, (0 + 1 + 1) % 16] := by
  decide +kernel

theorem witness_FiringsThatPlaceAndRelease : (∀ b g a, (acting b g a).offered = none ∧ (acting b g a).ListsSound ∧
      (acting b g a).TablesInOrder ∧ Table.at? (acting b g a).bindings b = some (bound 7 g a)) ∧
    (bound 7 .down (.level (.circuit 3) 700 1 5 true)).record.action = .level (.circuit 3) 700 1 5 true ∧
    house.reached (.zone 1) = [3] ∧ (house.key? ⟨.a, 5, 1⟩).isSome = true ∧ Table.at? house.circuits 99 = none ∧
    (house.place 2 ⟨.binding 99, 0, 5, 0, 0, none, none, false⟩).2 = .refused ∧
    (house.place 1 ⟨.binding 99, 2, 5, 0, 0, none, none, false⟩).2 ≠ .refused ∧
    0 < house.holds (.binding 1) ∧ house.holds (.binding 99) = 0 ∧
    ((Table.at? house.circuits 1).map fun y => (y.claims.filter fun k => k.tier == 2).length) = some 2 :=
  ⟨acting_meets, by decide +kernel⟩

theorem witness_FiringsOfScenesMastersAndModes : (∀ b g a, (acting b g a).offered = none ∧ (acting b g a).ListsSound ∧
      (acting b g a).TablesInOrder ∧ Table.at? (acting b g a).bindings b = some (bound 7 g a)) ∧ house.TakesRequests ∧
    (Table.at? house.scenes 1).map (fun y => y.definition.entries.map Prod.fst) = some [3] ∧ 0 < house.holds (.scene 1) ∧
    (∀ e ∈ house.circuits, (∃ k ∈ e.2.claims, k.origin = .scene 1) → e.1 ∈ [3]) ∧
    (Table.at? house.zones 1).map (·.master) = some 800 ∧ min 1000 (800 + 40) ≠ 800 ∧
    (house.repeats.map (·.binding)) = [2] ∧ (acting 3 .press .notify).repeats = house.repeats ∧
    house.mode ≠ .performance ∧ HouseMode.night ≠ house.mode ∧ { house with mode := .performance }.mode = .performance :=
  ⟨acting_meets, house_takes, by decide +kernel⟩

theorem witness_GesturesOfferTheirBindings : Table.InOrder house.bindings ∧
    house.indexList ⟨.a, 5, 1⟩ .press = [1] ∧ house.indexList ⟨.a, 5, 1⟩ .hold = [] ∧
    ((Table.at? house.bindings 1).map fun x => (x.record.suspended, x.record.modes.has house.mode)) = some (false, true) ∧
    house.indexList ⟨.a, 5, 6⟩ .press = [200] ∧ ((Table.at? house.bindings 200).map (·.record.suspended)) = some true ∧
    (acting 1 .double .notify).hasDouble ⟨.a, 5, 7⟩ = true := ⟨house_tables.2.2.1, by decide +kernel⟩

theorem witness_FadersCaptureAndFollow : (∀ b g a, (acting b g a).offered = none ∧ (acting b g a).ListsSound ∧
      (acting b g a).TablesInOrder ∧ Table.at? (acting b g a).bindings b = some (bound 7 g a)) ∧
    (bound 7 .move (.followMaster 1)).captured = false ∧ { bound 7 .move (.followMaster 1) with captured := true }.captured = true ∧
    (Table.at? house.zones 1).map (·.master) = some 800 ∧ (700 < 800 ∧ 800 < 900) ∧
    ((Table.at? house.circuits 1).map fun y => y.claims.find? fun k => k.origin == .binding 1) =
      some (some (claimOf (.binding 1) 0)) ∧
    ((Table.at? house.circuits 7).map fun y => (y.claims, y.resolved.raw)) = some ([], 0) ∧
    Table.at? house.circuits 99 = none ∧
    ((house.onKey ⟨.a, 5, 1⟩ fun _ => .fresh .fader).key? ⟨.a, 5, 1⟩).map (·.inputClass) = some .fader :=
  ⟨acting_meets, by decide +kernel⟩

theorem witness_ContactsAndSnapshots :
    let setup : StationSetup := .contact [.rise, .fall, .both, .both, .both, .both, .both, .both] .ms10
    (house.station? .a 5).isSome = true ∧ ((house.station? .a 5).bind fun st => Table.at? st.keys 2) = none ∧
    (∀ state ∈ [KeyState.up, .down, .held, .waitSecond, .stuck],
      ((keyed { KeyRecord.fresh .key with state := state }).key? ⟨.a, 5, 1⟩).map (·.state) = some state) ∧
    ((keyed (.fresh .contact)).key? ⟨.a, 5, 1⟩).map (·.inputClass) = some .contact ∧
    (match setup with | .contact edges _ => edges[1 - 1]? | _ => none) = some .rise ∧
    ((keyed { KeyRecord.fresh .fader with position := some 1000 }).key? ⟨.a, 5, 1⟩).map (·.position) = some (some (min 1000 1200)) ∧
    (decodeSnapshot (chars [0x82, 2, 9, 5])).map (fun f => f.inputs.length) = some 8 := by decide +kernel

theorem witness_LampsFollowAndAreSent : house.TablesInOrder ∧
    let linked (link : LampLink) (a : Action) : State := { house with
      bindings := [(1, { bound 7 .press a with record.lamp := some link })] }
    (Table.at? (linked .follow (.level (.circuit 1) 500 0 10 false)).bindings 1).map (fun x =>
      (x.record.source, x.record.suspended, x.record.lamp)) = some (⟨.a, 5, 7⟩, false, some .follow) ∧
    0 < house.holds (.binding 1) ∧ (linked .scene (.scene 1 0)).bindings.length = 1 ∧
    (linked .mode (.mode .work)).mode = .work ∧
    (house.power = .running ∧ (house.unit .a).slot = none ∧ (house.unit .a).listen = none ∧ (house.unit .a).state = .intact ∧
      (house.unit .a).survey = none ∧ (house.unit .a).continuityAsked = false ∧ (house.unit .a).waiting = []) ∧
    ((house.unit .a).nextPoll = some 6 ∧ (house.unit .a).nextProbe = none ∧
      ((house.station? .a 6).map (·.state)) = some .joining) ∧
    ({ house.lineA with nextPolled := 5 }).nextPoll = some 5 ∧
    ((house.station? .a 5).map fun st => (st.state, st.configurePending, st.snapshotNeeded)) = some (.online, false, false) ∧
    ({ house.lineA with stations := [(7, station .keypad .expected 0)], probeList := [7] }).nextProbe = some 7 :=
  ⟨house_tables, by decide +kernel⟩

theorem witness_GroupQueriesSettle : Table.InOrder house.groups ∧
    ((Table.at? house.groups 4).map (·.delivery)) = some (some [⟨⟨.a, 5⟩, .pending, 0⟩]) ∧
    ((Table.at? house.groups 4).map (·.lastNumber)) = some 0 ∧ (1 : Nat) ≠ 0 ∧ 3 ≤ 2 + 1 ∧
    ((Table.at? house.groups 3).map (·.delivery)) = some none := ⟨house_tables.2.2.2.2.2.2.1, by decide +kernel⟩

theorem witness_HoldingsEndWithTheirKey : house.ListsSound ∧ house.TablesInOrder ∧
    let key : StationInput := ⟨.a, 5, 1⟩
    let held := after (.fireBinding 1 [0, 5]) house
    let record : KeyRecord := { KeyRecord.fresh .key with state := .down, holdings := [(5, 3)] }
    ((keyed record).key? key).map (fun r => (r.state, r.holdings)) = some (.down, [(5, 3)]) ∧
    ((Table.at? held.circuits 3).map fun x => x.claims.map fun k => (k.origin, k.heldBy)) =
      some [(.host, none), (.scene 1, none), (.binding 5, none)] ∧
    ((house.station? .a 5).map (·.keys.length)) = some 1 ∧ (Station.fresh .keypad).keys.length = 0 :=
  ⟨house_lists, house_tables, by decide +kernel⟩

end Sys2Proof.Tests
end

section
/-! SUPPORT. A law kept by every move is kept by every step; the contribution lists and the tables keep theirs. -/

namespace Sys2Proof.Machine

/-! ## Laws kept by every move -/

theorem Moves.keeps {P : State → Prop} (hm : ∀ {s t}, Move s t → P s → P t) {s t : State} (h : Moves s t)
    (hs : P s) : P t := by
  induction h with
  | refl => exact hs
  | step _ m ih => exact hm m ih

/-- A law that every move keeps and that does not look at the queue is kept by every step. -/
theorem step_keeps {P : State → Prop} (hm : ∀ {s t}, Move s t → P s → P t)
    (hq : ∀ {s} (q : List Instr), P s → P (s.withPending q)) {s t : State} (hs : P s) (h : step s = .next t) : P t := by
  unfold step at h
  split at h
  · cases h
    exact (Moves.tick (.refl s)).keeps hm hs
  · rename_i c rest _
    obtain ⟨u, he, moves⟩ := exec_moves c (s.withPending rest)
    cases he.symm.trans h
    exact moves.keeps hm (hq rest hs)

/-! ## Contribution lists -/

theorem ListSound.nil : ListSound [] := ⟨Nat.zero_le _, List.nodup_nil⟩

theorem ListSound.sublist {l m : List Contribution} (h : ListSound l) (hm : m.Sublist l) : ListSound m :=
  ⟨hm.length_le.trans h.1, h.2.sublist (hm.map _)⟩

theorem ListSound.append {l : List Contribution} (h : ListSound l) {k : Contribution} (hl : l.length < Config.listLimit)
    (hk : ∀ x ∈ l, x.origin ≠ k.origin) : ListSound (l ++ [k]) := by
  refine ⟨by simpa using hl, ?_⟩
  rw [List.map_append, List.map_singleton, ← List.concat_eq_append]
  exact h.2.concat (by simpa using hk)

/-- In a list with no two claims of one origin, none is left of an origin taken out. -/
theorem origin_ne_of_mem_eraseP {l : List Contribution} (h : (l.map (·.origin)).Nodup) (o : Origin) :
    ∀ x ∈ l.eraseP (fun k => k.origin == o), x.origin ≠ o := by
  induction l with
  | nil => simp
  | cons k l ih =>
    obtain ⟨hk, hl⟩ := List.nodup_cons.1 h
    by_cases ho : k.origin = o
    · subst ho
      rw [List.eraseP_cons_of_pos (by simp)]
      exact fun x hx e => hk (List.mem_map.2 ⟨x, hx, e⟩)
    · rw [List.eraseP_cons_of_neg (by simpa using ho), List.forall_mem_cons]
      exact ⟨ho, ih hl⟩

theorem length_eraseP_lt {l : List Contribution} {p : Contribution → Bool} (h : ∃ k ∈ l, p k = true) :
    (l.eraseP p).length < l.length := by
  obtain ⟨k, hk, hp⟩ := h
  have := List.length_pos_of_mem hk
  rw [List.length_eraseP_of_mem hk hp]
  omega

theorem eraseP_append_cons {p : Contribution → Bool} {older newer : List Contribution} {k : Contribution}
    (hk : p k = true) (ho : ∀ y ∈ older, p y = false) : (older ++ k :: newer).eraseP p = older ++ newer := by
  rw [List.eraseP_append_right _ (by simpa using ho), List.eraseP_cons_of_pos hk]

theorem find?_append_cons {p : Contribution → Bool} {older newer : List Contribution} {k : Contribution}
    (hk : p k = true) (ho : ∀ y ∈ older, p y = false) : (older ++ k :: newer).find? p = some k := by
  rw [List.find?_append, List.find?_eq_none.2 (by simpa using ho), List.find?_cons_of_pos hk]
  rfl

/-- The four outcomes of a placement in a list (R6, R7, R8). -/
inductive Inserted (k : Contribution) (l : List Contribution) : List Contribution × Verdict → Prop
  | replaced (held : ∃ x ∈ l, x.origin = k.origin) :
      Inserted k l (l.eraseP (fun x => x.origin == k.origin) ++ [k], .replaced)
  | appended (fresh : ∀ x ∈ l, x.origin ≠ k.origin) (room : l.length < Config.listLimit) :
      Inserted k l (l ++ [k], .appended none)
  | displaced (older : List Contribution) (victim : Contribution) (newer : List Contribution)
      (fresh : ∀ x ∈ l, x.origin ≠ k.origin) (hl : l = older ++ victim :: newer) :
      Inserted k l (older ++ newer ++ [k], .appended (some victim))
  | refused (fresh : ∀ x ∈ l, x.origin ≠ k.origin) : Inserted k l (l, .refused)

theorem insertClaim_inserted (k : Contribution) (l : List Contribution) : Inserted k l (insertClaim k l) := by
  by_cases held : ∃ x ∈ l, x.origin = k.origin
  · exact insertClaim_of_held held ▸ .replaced held
  have fresh : ∀ x ∈ l, x.origin ≠ k.origin := fun x hx e => held ⟨x, hx, e⟩
  by_cases room : l.length < 8
  · exact insertClaim_of_room fresh room ▸ .appended fresh room
  have full : 8 ≤ l.length := Nat.not_lt.1 room
  cases hlow : lowestTier l with
  | none => simp_all [lowestTier]
  | some low =>
    obtain ⟨y, hy, hyt⟩ := List.mem_map.1 (List.min?_mem hlow)
    cases hf : l.find? fun x => x.tier == low with
    | none => exact absurd (by simpa using hyt) (List.find?_eq_none.1 hf y hy)
    | some victim =>
      obtain ⟨ht, older, newer, hl, ho⟩ := List.find?_eq_some_iff_append.1 hf
      rw [insertClaim_of_full fresh full hlow, hf]
      split
      · have left : l.eraseP (fun x => x.tier == low) = older ++ newer := by
          rw [hl, eraseP_append_cons ht (by simpa using ho)]
        exact left ▸ .displaced older victim newer fresh hl
      · exact .refused fresh

theorem ListSound.insertClaim {l : List Contribution} (h : ListSound l) (k : Contribution) :
    ListSound (insertClaim k l).1 := by
  have outcome := insertClaim_inserted k l
  generalize Machine.insertClaim k l = r at outcome
  cases outcome with
  | replaced held =>
    exact (h.sublist List.eraseP_sublist).append ((length_eraseP_lt (by simpa using held)).trans_le h.1)
      (origin_ne_of_mem_eraseP h.2 k.origin)
  | appended fresh room => exact h.append room fresh
  | displaced older victim newer fresh hl =>
    subst hl
    have left : (older ++ newer).Sublist (older ++ victim :: newer) := (List.sublist_cons_self ..).append_left older
    have bound := h.1
    refine (h.sublist left).append ?_ fun x hx => fresh x (left.subset hx)
    simp only [List.length_append, List.length_cons] at bound ⊢
    omega
  | refused => exact h

theorem Circuit.redorm_listSound {x : Circuit} (h : ListSound x.claims) (mode : HouseMode) :
    ListSound (x.redorm mode).claims := by
  simpa [ListSound, Circuit.redorm, Function.comp_def] using h

/-- What happens to a circuit's record takes claims out or re-judges their dormancy. -/
theorem CircuitStep.listSound {x y : Circuit} (h : CircuitStep x y) (hx : ListSound x.claims) : ListSound y.claims := by
  induction h with
  | trans _ _ ih₁ ih₂ => exact ih₂ (ih₁ hx)
  | erase x p => exact hx.sublist List.eraseP_sublist
  | redorm x mode => exact x.redorm_listSound hx mode
  | _ => exact hx

theorem State.ListsSound.at? {s : State} (h : s.ListsSound) {c : Nat} {x : Circuit}
    (hx : Table.at? s.circuits c = some x) : ListSound x.claims := h _ (Table.mem_of_at? hx)

theorem State.ListsSound.onCircuit {s : State} (h : s.ListsSound) (c : Nat) {f : Circuit → Circuit}
    (hf : ∀ x, ListSound x.claims → ListSound (f x).claims) : (s.onCircuit c f).ListsSound :=
  Table.forall_mem_adjust (p := fun (e : Nat × Circuit) => ListSound e.2.claims) h hf

theorem Move.listsSound {s t : State} (m : Move s t) (h : s.ListsSound) : t.ListsSound := by
  cases m with
  | plain e =>
    have circuits : t.circuits = s.circuits := congrArg Prod.fst e
    exact fun e he => h e (circuits ▸ he)
  | circuit c f hf => exact h.onCircuit c fun x => (hf x).listSound
  | circuits f hf =>
    exact Table.forall_mem_mapAll (p := fun (e : Nat × Circuit) => ListSound e.2.claims) h fun i x => (hf i x).listSound
  | claim c x k hx => exact h.onCircuit c fun _ _ => (h.at? hx).insertClaim k
  | newCircuit c cfg => exact Table.forall_mem_put (p := fun (e : Nat × Circuit) => ListSound e.2.claims) h .nil
  | reconfigure c x new => exact h.onCircuit c fun _ hx => hx
  | dropCircuit c => exact Table.forall_mem_remove h c
  | unit l => cases l <;> exact h
  | load cause =>
    intro e he
    obtain ⟨_, _, rfl⟩ := List.mem_map.1 he
    exact .nil
  | _ => exact h

/-- Settles O15: every move keeps the lists sound, and every step is a chain of moves. -/
theorem listsStayWithinTheirLimits : Obligations.ListsStayWithinTheirLimits :=
  fun _ _ hs h => step_keeps Move.listsSound (fun _ hs => hs) hs h

/-! ## The order of the tables -/

namespace State.TablesInOrder

variable {s : State}

theorem withCircuits (h : s.TablesInOrder) {x : Table Circuit} (hx : Table.InOrder x) :
    (s.withCircuits x).TablesInOrder := ⟨hx, h.2⟩

theorem withZones (h : s.TablesInOrder) {x : Table Zone} (hx : Table.InOrder x) : (s.withZones x).TablesInOrder :=
  ⟨h.1, hx, h.2.2⟩

theorem withBindings (h : s.TablesInOrder) {x : Table Binding} (hx : Table.InOrder x) :
    (s.withBindings x).TablesInOrder :=
  let ⟨hc, hz, _, rest⟩ := h
  ⟨hc, hz, hx, rest⟩

theorem withScenes (h : s.TablesInOrder) {x : Table Scene} (hx : Table.InOrder x) : (s.withScenes x).TablesInOrder :=
  let ⟨hc, hz, hb, _, rest⟩ := h
  ⟨hc, hz, hb, hx, rest⟩

theorem onUnit (h : s.TablesInOrder) (l : Line) {f : LineUnit → LineUnit}
    (hf : ∀ u : LineUnit, u.TablesInOrder → (f u).TablesInOrder) : (s.onUnit l f).TablesInOrder := by
  obtain ⟨hc, hz, hb, hn, hla, hlb, rest⟩ := h
  cases l
  · exact ⟨hc, hz, hb, hn, hf _ hla, hlb, rest⟩
  · exact ⟨hc, hz, hb, hn, hla, hf _ hlb, rest⟩

theorem withGroups (h : s.TablesInOrder) {x : Table Group} (hx : Table.InOrder x) : (s.withGroups x).TablesInOrder :=
  let ⟨hc, hz, hb, hn, hla, hlb, _, rest⟩ := h
  ⟨hc, hz, hb, hn, hla, hlb, hx, rest⟩

theorem withRacks (h : s.TablesInOrder) {x : Table Rack} (hx : Table.InOrder x) : (s.withRacks x).TablesInOrder :=
  let ⟨hc, hz, hb, hn, hla, hlb, hg, _, rest⟩ := h
  ⟨hc, hz, hb, hn, hla, hlb, hg, hx, rest⟩

/-- The image and the copy being saved replaced by ones in order. -/
theorem withImages (h : s.TablesInOrder) {image saving : Option Image} (hi : ∀ i, image = some i → i.TablesInOrder)
    (hs : ∀ i, saving = some i → i.TablesInOrder) :
    ({ s with image := image, saving := saving } : State).TablesInOrder :=
  let ⟨hc, hz, hb, hn, hla, hlb, hg, hr, _⟩ := h
  ⟨hc, hz, hb, hn, hla, hlb, hg, hr, hi, hs⟩

theorem circuits (h : s.TablesInOrder) : Table.InOrder s.circuits := h.1

theorem zones (h : s.TablesInOrder) : Table.InOrder s.zones := h.2.1

theorem bindings (h : s.TablesInOrder) : Table.InOrder s.bindings :=
  let ⟨_, _, hb, _⟩ := h
  hb

theorem scenes (h : s.TablesInOrder) : Table.InOrder s.scenes :=
  let ⟨_, _, _, hn, _⟩ := h
  hn

theorem groups (h : s.TablesInOrder) : Table.InOrder s.groups :=
  let ⟨_, _, _, _, _, _, hg, _⟩ := h
  hg

theorem racks (h : s.TablesInOrder) : Table.InOrder s.racks :=
  let ⟨_, _, _, _, _, _, _, hr, _⟩ := h
  hr

theorem image (h : s.TablesInOrder) : ∀ i, s.image = some i → i.TablesInOrder :=
  let ⟨_, _, _, _, _, _, _, _, hi, _⟩ := h
  hi

theorem saving (h : s.TablesInOrder) : ∀ i, s.saving = some i → i.TablesInOrder :=
  let ⟨_, _, _, _, _, _, _, _, _, hs⟩ := h
  hs

/-- The order of the tables looks at nothing but the tables, the image and its copy. -/
theorem of_tables_eq {t : State} (h : s.TablesInOrder) (e : t.tables = s.tables) : t.TablesInOrder := by
  simp only [State.tables, Prod.mk.injEq] at e
  obtain ⟨hc, hz, hb, hn, hla, hlb, hg, hr, hi, hs, _⟩ := e
  simpa only [State.TablesInOrder, hc, hz, hb, hn, hla, hlb, hg, hr, hi, hs] using h

end State.TablesInOrder

theorem Table.inOrder_idsWhere {α : Type} {t : Table α} (h : Table.InOrder t) (p : α → Bool) :
    (Table.idsWhere t p).Pairwise (· < ·) :=
  h.sublist (List.filter_sublist.map Prod.fst)

/-- A save copies tables in order (R170, R171). -/
theorem State.copyImage_tablesInOrder {s : State} (h : s.TablesInOrder) : s.copyImage.TablesInOrder :=
  let ⟨hc, hz, hb, hn, hla, hlb, hg, hr, _⟩ := h
  ⟨Table.inOrder_mapAll hc fun _ c => c.config, hz, Table.inOrder_mapAll hb fun _ b => b.record,
    Table.inOrder_mapAll hn fun _ n => n.definition, Table.inOrder_mapAll hg fun _ g => g.members,
    Table.inOrder_idsWhere hr _, Table.inOrder_mapAll hla.1 fun _ st => st.setup,
    Table.inOrder_mapAll hlb.1 fun _ st => st.setup⟩

theorem Image.blank_tablesInOrder : Image.blank.TablesInOrder :=
  ⟨.nil, .nil, .nil, .nil, .nil, .nil, .nil, .nil⟩

/-- At start-up no station has a key record and no group waits (R174). -/
theorem LineImage.start_tablesInOrder {l : LineImage} (h : Table.InOrder l.stations) : l.start.TablesInOrder := by
  refine ⟨Table.inOrder_mapAll h fun _ => Station.fresh, fun e he => ?_, .nil⟩
  obtain ⟨_, _, rfl⟩ := List.mem_map.1 he
  exact .nil

theorem identifiers_pairwise (n : Nat) : (identifiers n).Pairwise (· < ·) :=
  List.pairwise_map.2 (List.pairwise_lt_range.imp Nat.succ_lt_succ)

theorem Table.inOrder_identifiers {α : Type} (n : Nat) (f : Nat → α) :
    Table.InOrder ((identifiers n).map fun i => (i, f i)) := by
  simpa [Table.InOrder, Table.ids, Function.comp_def] using identifiers_pairwise n

/-- Start-up loads an image in order into tables in order (R174). -/
theorem State.load_tablesInOrder {s : State} {i : Image} (h : s.TablesInOrder) (hi : i.TablesInOrder)
    (cause : ResetCause) : (s.load cause i).TablesInOrder :=
  let ⟨hc, hz, hb, hn, _, _, hla, hlb⟩ := hi
  ⟨Table.inOrder_mapAll hc fun _ => Circuit.atStart i.settings.startMode.requires, hz,
    Table.inOrder_mapAll hb fun _ => Binding.fresh, Table.inOrder_mapAll hn fun _ => Scene.define,
    LineImage.start_tablesInOrder hla, LineImage.start_tablesInOrder hlb, Table.inOrder_identifiers 15 _,
    Table.inOrder_identifiers 8 _, h.image, fun _ e => nomatch e⟩

theorem Move.tablesInOrder {s t : State} (m : Move s t) (h : s.TablesInOrder) : t.TablesInOrder := by
  cases m with
  | plain e => exact h.of_tables_eq e
  | circuit c => exact h.withCircuits (Table.inOrder_adjust h.circuits c _)
  | circuits f => exact h.withCircuits (Table.inOrder_mapAll h.circuits f)
  | claim c => exact h.withCircuits (Table.inOrder_adjust h.circuits c _)
  | newCircuit c => exact h.withCircuits (Table.inOrder_put h.circuits c _)
  | reconfigure c => exact h.withCircuits (Table.inOrder_adjust h.circuits c _)
  | dropCircuit c => exact h.withCircuits (Table.inOrder_remove h.circuits c)
  | putZone z x => exact h.withZones (Table.inOrder_put h.zones z x)
  | setZone z f => exact h.withZones (Table.inOrder_adjust h.zones z f)
  | dropZone z => exact h.withZones (Table.inOrder_remove h.zones z)
  | putBinding b x => exact h.withBindings (Table.inOrder_put h.bindings b x)
  | setBinding b f => exact h.withBindings (Table.inOrder_adjust h.bindings b f)
  | setBindings f => exact h.withBindings (Table.inOrder_mapAll h.bindings f)
  | dropBinding b => exact h.withBindings (Table.inOrder_remove h.bindings b)
  | putScene n x => exact h.withScenes (Table.inOrder_put h.scenes n x)
  | setScene n f => exact h.withScenes (Table.inOrder_adjust h.scenes n f)
  | dropScene n => exact h.withScenes (Table.inOrder_remove h.scenes n)
  | setGroup g f => exact h.withGroups (Table.inOrder_adjust h.groups g f)
  | setGroups f => exact h.withGroups (Table.inOrder_mapAll h.groups f)
  | setRack r f => exact h.withRacks (Table.inOrder_adjust h.racks r f)
  | unit l f hf => exact h.onUnit l hf
  | beginSave =>
    exact h.withImages (fun _ e => nomatch e) fun i e => Option.some.inj e ▸ State.copyImage_tablesInOrder h
  | endSave i hi => exact h.withImages (fun j e => h.saving j (hi.trans e)) fun _ e => nomatch e
  | dropSave => exact h.withImages h.image fun _ e => nomatch e
  | load cause =>
    refine State.load_tablesInOrder h ?_ cause
    cases hi : s.image with
    | none => exact Image.blank_tablesInOrder
    | some i => exact h.image i hi

/-- Settles O16: every move keeps the order of the tables, and every step is a chain of moves. -/
theorem tablesStayInOrder : Obligations.TablesStayInOrder :=
  fun _ _ hs h => step_keeps Move.tablesInOrder (fun _ hs => hs) hs h

end Sys2Proof.Machine
end

section
/-! SUPPORT. The outcomes of a resolution, a placement and a removal (R6 to R15). -/

namespace Sys2Proof.Machine

/-! ## The winning tier and the raw value -/

theorem mem_activeClaims {claims : List Contribution} {k : Contribution} :
    k ∈ activeClaims claims ↔ k ∈ claims ∧ k.dormant = false := by simp [activeClaims]

theorem winningTier_eq_none {claims : List Contribution} :
    winningTier claims = none ↔ ∀ k ∈ claims, k.dormant = true := by
  simp [winningTier, activeClaims]

theorem winningTier_eq_some {claims : List Contribution} {w : Nat} : winningTier claims = some w ↔
    (∃ k ∈ claims, k.dormant = false ∧ k.tier = w) ∧ ∀ k ∈ claims, k.dormant = false → k.tier ≤ w := by
  rw [winningTier, List.max?_eq_some_iff, List.forall_mem_map]
  simp only [List.mem_map, mem_activeClaims, and_assoc, and_imp]

theorem mem_tierLevels {claims : List Contribution} {tier n : Nat} :
    n ∈ tierLevels claims tier ↔ ∃ k ∈ claims, k.dormant = false ∧ k.tier = tier ∧ k.level = n := by
  simp [tierLevels, mem_activeClaims, and_assoc]

theorem tierLevels_append (older newer : List Contribution) (tier : Nat) :
    tierLevels (older ++ newer) tier = tierLevels older tier ++ tierLevels newer tier := by
  simp [tierLevels, activeClaims]

theorem tierLevels_eq_nil {claims : List Contribution} {tier : Nat} :
    tierLevels claims tier = [] ↔ ∀ k ∈ claims, k.dormant = false → k.tier ≠ tier := by
  simp only [tierLevels, List.map_eq_nil_iff, List.filter_eq_nil_iff, mem_activeClaims, beq_iff_eq, and_imp, ne_eq]

theorem tierLevels_singleton {k : Contribution} {tier : Nat} (hd : k.dormant = false) (ht : k.tier = tier) :
    tierLevels [k] tier = [k.level] := by simp [tierLevels, activeClaims, hd, ht]

/-- Where a list has a claim a test holds of, it has a newest one. -/
theorem exists_newest {claims : List Contribution} {p : Contribution → Bool} (h : ∃ k ∈ claims, p k = true) :
    ∃ older k newer, claims = older ++ k :: newer ∧ p k = true ∧ ∀ x ∈ newer, p x = false := by
  induction claims with
  | nil => simp at h
  | cons x claims ih =>
    by_cases later : ∃ k ∈ claims, p k = true
    · obtain ⟨older, k, newer, rfl, hk, hn⟩ := ih later
      exact ⟨x :: older, k, newer, rfl, hk, hn⟩
    · have none_later : ∀ k ∈ claims, p k = false := by simpa using later
      refine ⟨[], x, claims, rfl, ?_, none_later⟩
      simp_all

theorem rawValue_of_none {claims : List Contribution} (rest : Nat) (h : winningTier claims = none) :
    rawValue rest claims = rest := by simp [rawValue, h]

theorem rawValue_of_egress {claims : List Contribution} (rest : Nat) (h : winningTier claims = some 3) :
    rawValue rest claims = 1000 := by simp [rawValue, h]

/-- Tier 0: highest takes precedence (R14). -/
theorem rawValue_of_ambient {claims : List Contribution} (rest : Nat) (h : winningTier claims = some 0) :
    (tierLevels claims 0).max? = some (rawValue rest claims) := by
  obtain ⟨⟨k, hk, hd, ht⟩, _⟩ := winningTier_eq_some.1 h
  have present : k.level ∈ tierLevels claims 0 := mem_tierLevels.2 ⟨k, hk, hd, ht, rfl⟩
  cases hm : (tierLevels claims 0).max? with
  | none => simp_all
  | some n => simp [rawValue, h, hm]

/-- Tiers 1 and 2: latest takes precedence (R14). -/
theorem rawValue_of_latest {claims older newer : List Contribution} {k : Contribution} {w : Nat} (rest : Nat)
    (h : winningTier claims = some w) (hw : w = 1 ∨ w = 2) (hc : claims = older ++ k :: newer) (hd : k.dormant = false)
    (ht : k.tier = w) (hn : ∀ x ∈ newer, x.dormant = false → x.tier ≠ w) : rawValue rest claims = k.level := by
  have last : (tierLevels claims w).getLast? = some k.level := by
    rw [hc, ← List.singleton_append, tierLevels_append, tierLevels_append, tierLevels_singleton hd ht,
      tierLevels_eq_nil.2 hn]
    simp
  rcases hw with rfl | rfl <;> simp [rawValue, h, last]

/-- Settles O10: the rule of each winning tier, with the newest claim of the tier found by `exists_newest`. -/
theorem winningTierAndRawValue : Obligations.WinningTierAndRawValue := by
  intro claims rest
  refine ⟨winningTier_eq_none, fun _ => winningTier_eq_some, rawValue_of_none rest, fun h => ?_, fun w h hw => ?_,
    rawValue_of_egress rest⟩
  · obtain ⟨highest, above⟩ := List.max?_eq_some_iff.1 (rawValue_of_ambient rest h)
    obtain ⟨k, hk, hd, ht, hl⟩ := mem_tierLevels.1 highest
    exact ⟨⟨k, hk, hd, ht, hl.symm⟩, fun k hk hd ht => above _ (mem_tierLevels.2 ⟨k, hk, hd, ht, rfl⟩)⟩
  · obtain ⟨⟨k, hk, hd, ht⟩, _⟩ := winningTier_eq_some.1 h
    obtain ⟨older, k, newer, hc, hp, hn⟩ :=
      exists_newest (p := fun k => !k.dormant && k.tier == w) ⟨k, hk, by simp [hd, ht]⟩
    have here : k.dormant = false ∧ k.tier = w := by simpa using hp
    have later : ∀ x ∈ newer, x.dormant = false → x.tier ≠ w := by simpa using hn
    exact ⟨older, k, newer, hc, here.1, here.2, rawValue_of_latest rest h hw hc here.1 here.2 later, later⟩

/-! ## Resolution -/

theorem targetOf_le {winning master : Option Nat} {raw : Nat} (hr : raw ≤ 1000)
    (hm : ∀ m, master = some m → m ≤ 1000) : targetOf winning raw master ≤ 1000 := by
  unfold targetOf
  split
  · exact le_rfl
  · cases master with
    | none => exact hr
    | some m =>
      have hm := hm m rfl
      calc raw * m / 1000 ≤ 1000 * 1000 / 1000 := Nat.div_le_div_right (Nat.mul_le_mul hr hm)
        _ = 1000 := by norm_num

/-- Settles O11: each part is what a resolution is defined to be, and the bound is `targetOf_le`. -/
theorem resolutionComputesTheTarget : Obligations.ResolutionComputesTheTarget := by
  intro x master tenths
  refine ⟨rfl, rfl, rfl, rfl, rfl, fun hw => ?_, fun hw hm => ?_, fun hw m hm => ?_, fun hr hm => ?_, rfl⟩
  · exact if_pos hw
  · subst hm; exact if_neg hw
  · subst hm; exact if_neg hw
  · exact targetOf_le hr hm

/-! ## What changes nothing but claims -/

namespace State.OnlyClaims

variable {s t u : State}

theorem of_eq {c : Table Circuit} {b : Table Binding} {n : Table Scene}
    (h : t = { s with circuits := c, bindings := b, scenes := n }) : s.OnlyClaims t := by subst h; rfl

theorem refl (s : State) : s.OnlyClaims s := rfl

theorem trans (h : s.OnlyClaims t) (k : t.OnlyClaims u) : s.OnlyClaims u :=
  of_eq (c := u.circuits) (b := u.bindings) (n := u.scenes) (by rw [k, h])

theorem withCircuits (h : s.OnlyClaims t) (x : Table Circuit) : s.OnlyClaims (t.withCircuits x) :=
  h.trans (of_eq (b := t.bindings) (n := t.scenes) rfl)

theorem withBindings (h : s.OnlyClaims t) (x : Table Binding) : s.OnlyClaims (t.withBindings x) :=
  h.trans (of_eq (c := t.circuits) (n := t.scenes) rfl)

theorem withScenes (h : s.OnlyClaims t) (x : Table Scene) : s.OnlyClaims (t.withScenes x) :=
  h.trans (of_eq (c := t.circuits) (b := t.bindings) rfl)

theorem onCircuit (h : s.OnlyClaims t) (c : Nat) (f : Circuit → Circuit) : s.OnlyClaims (t.onCircuit c f) :=
  h.withCircuits _

theorem onBinding (h : s.OnlyClaims t) (b : Nat) (f : Binding → Binding) : s.OnlyClaims (t.onBinding b f) :=
  h.withBindings _

theorem onScene (h : s.OnlyClaims t) (n : Nat) (f : Scene → Scene) : s.OnlyClaims (t.onScene n f) := h.withScenes _

theorem resolve (h : s.OnlyClaims t) (c tenths : Nat) : s.OnlyClaims (t.resolve c tenths) := h.onCircuit ..

theorem withClaims (h : s.OnlyClaims t) (c : Nat) (l : List Contribution) (tenths : Nat) :
    s.OnlyClaims (t.withClaims c l tenths) := (h.onCircuit ..).resolve ..

theorem markDisplaced (h : s.OnlyClaims t) (c : Nat) (o : Origin) : s.OnlyClaims (t.markDisplaced c o) := by
  cases o
  · exact h.onBinding ..
  · exact h.onScene ..
  · exact h.onCircuit ..
  · exact h

theorem markRefused (h : s.OnlyClaims t) (o : Origin) : s.OnlyClaims (t.markRefused o) := by
  cases o
  · exact h.onBinding ..
  · exact h.onScene ..
  · exact h
  · exact h

theorem judgeLive (h : s.OnlyClaims t) (n : Nat) : s.OnlyClaims (t.judgeLive n) := by
  unfold State.judgeLive
  split
  · exact h
  · exact h.onScene ..

theorem departed (h : s.OnlyClaims t) (byOther : Bool) (o : Origin) : s.OnlyClaims (t.departed byOther o) := by
  cases o
  · cases byOther
    · exact h
    · exact h.onBinding ..
  · exact h.judgeLive ..
  · exact h
  · exact h

theorem foldl {α : Type} {f : State → α → State} (h : s.OnlyClaims t) (xs : List α)
    (k : ∀ u x, s.OnlyClaims u → s.OnlyClaims (f u x)) : s.OnlyClaims (xs.foldl f t) := by
  induction xs generalizing t with
  | nil => exact h
  | cons x xs ih => exact ih (k t x h)

theorem zones (h : s.OnlyClaims t) : t.zones = s.zones := by rw [h]

theorem mode (h : s.OnlyClaims t) : t.mode = s.mode := by rw [h]

theorem racks (h : s.OnlyClaims t) : t.racks = s.racks := by rw [h]

theorem latch (h : s.OnlyClaims t) : t.latch = s.latch := by rw [h]

theorem latchCopy (h : s.OnlyClaims t) : t.latchCopy = s.latchCopy := by rw [h]

theorem requiredFeed (h : s.OnlyClaims t) : t.requiredFeed = s.requiredFeed := by rw [h]

theorem masterOf (h : s.OnlyClaims t) (c : CircuitConfig) : t.masterOf c = s.masterOf c := by
  simp only [State.masterOf, State.zoneRecord, h.zones]

end State.OnlyClaims

/-! ## What the owners are told -/

@[simp] theorem State.markRefused_circuits (s : State) (o : Origin) : (s.markRefused o).circuits = s.circuits := by
  cases o <;> rfl

theorem State.markRefused_bindings_at? (s : State) (o : Origin) (b : Nat) :
    Table.at? (s.markRefused o).bindings b = (Table.at? s.bindings b).map fun x =>
      if o = .binding b then { x with partialMark := true } else x := by
  cases o with
  | binding a => by_cases h : b = a <;> simp [State.markRefused, Table.at?_adjust, h, eq_comm]
  | _ => simp [State.markRefused]

theorem State.markRefused_scenes_at? (s : State) (o : Origin) (n : Nat) :
    Table.at? (s.markRefused o).scenes n = (Table.at? s.scenes n).map fun x =>
      if o = .scene n then { x with partialMark := true } else x := by
  cases o with
  | scene a => by_cases h : n = a <;> simp [State.markRefused, Table.at?_adjust, h, eq_comm]
  | _ => simp [State.markRefused]

theorem State.markDisplaced_circuits_at? (s : State) (c : Nat) (o : Origin) (i : Nat) :
    Table.at? (s.markDisplaced c o).circuits i = (Table.at? s.circuits i).map fun x =>
      if i = c ∧ o = .host then { x with resolved := { x.resolved with hostDisplaced := true } } else x := by
  cases o with
  | host => by_cases h : i = c <;> simp [State.markDisplaced, Table.at?_adjust, h]
  | _ => simp [State.markDisplaced]

theorem State.markDisplaced_bindings_at? (s : State) (c : Nat) (o : Origin) (b : Nat) :
    Table.at? (s.markDisplaced c o).bindings b = (Table.at? s.bindings b).map fun x =>
      if o = .binding b then { x with displacedMark := true } else x := by
  cases o with
  | binding a => by_cases h : b = a <;> simp [State.markDisplaced, Table.at?_adjust, h, eq_comm]
  | _ => simp [State.markDisplaced]

theorem State.markDisplaced_scenes_at? (s : State) (c : Nat) (o : Origin) (n : Nat) :
    Table.at? (s.markDisplaced c o).scenes n = (Table.at? s.scenes n).map fun x =>
      if o = .scene n then { x with displacedMark := true } else x := by
  cases o with
  | scene a => by_cases h : n = a <;> simp [State.markDisplaced, Table.at?_adjust, h, eq_comm]
  | _ => simp [State.markDisplaced]

/-- A scene's held count looks at the circuits alone. -/
theorem State.holds_congr {s t : State} (h : t.circuits = s.circuits) (o : Origin) : t.holds o = s.holds o := by
  simp only [State.holds, State.holders, h]

@[simp] theorem State.judgeLive_circuits (s : State) (n : Nat) : (s.judgeLive n).circuits = s.circuits := by
  unfold State.judgeLive; split <;> rfl

@[simp] theorem State.judgeLive_bindings (s : State) (n : Nat) : (s.judgeLive n).bindings = s.bindings := by
  unfold State.judgeLive; split <;> rfl

theorem State.judgeLive_scenes_at? (s : State) (n m : Nat) :
    Table.at? (s.judgeLive n).scenes m = (Table.at? s.scenes m).map fun x =>
      if m = n ∧ s.holds (.scene n) = 0 then { x with liveTier := none, recaller := none } else x := by
  unfold State.judgeLive State.live
  by_cases h : s.holds (.scene n) = 0
  · by_cases hm : m = n <;> simp [h, hm, Table.at?_adjust]
  · simp [h, Nat.pos_of_ne_zero h]

@[simp] theorem State.departed_circuits (s : State) (byOther : Bool) (o : Origin) :
    (s.departed byOther o).circuits = s.circuits := by
  cases o <;> cases byOther <;> simp [State.departed]

theorem State.departed_bindings_at? (s : State) (byOther : Bool) (o : Origin) (b : Nat) :
    Table.at? (s.departed byOther o).bindings b = (Table.at? s.bindings b).map fun x =>
      if byOther = true ∧ o = .binding b then { x with captured := false } else x := by
  cases o with
  | binding a => cases byOther <;> by_cases h : b = a <;> simp [State.departed, Table.at?_adjust, h, eq_comm]
  | _ => simp [State.departed]

theorem State.departed_scenes_at? (s : State) (byOther : Bool) (o : Origin) (n : Nat) :
    Table.at? (s.departed byOther o).scenes n = (Table.at? s.scenes n).map fun x =>
      if o = .scene n ∧ s.holds (.scene n) = 0 then { x with liveTier := none, recaller := none } else x := by
  cases o with
  | scene a =>
    by_cases h : n = a
    · subst h; simp [State.departed, State.judgeLive_scenes_at?]
    · simp [State.departed, State.judgeLive_scenes_at?, h, Ne.symm h]
  | binding a => cases byOther <;> simp [State.departed]
  | _ => simp [State.departed]

/-! ## Placement -/

/-- The four outcomes of a placement (R6, R7, R8). -/
inductive PlaceOutcome (s : State) (c : Nat) (k : Contribution) : State × Verdict → Prop
  | unconfigured (h : Table.at? s.circuits c = none) : PlaceOutcome s c k (s, .unconfigured)
  | refused (x : Circuit) (l : List Contribution) (h : Table.at? s.circuits c = some x)
      (hi : insertClaim { k with dormant := dormantIn s.mode x.config k.tier } x.claims = (l, .refused)) :
      PlaceOutcome s c k (s.markRefused k.origin, .refused)
  | taken (x : Circuit) (l : List Contribution) (v : Verdict) (hv : v = .replaced ∨ v = .appended none)
      (h : Table.at? s.circuits c = some x)
      (hi : insertClaim { k with dormant := dormantIn s.mode x.config k.tier } x.claims = (l, v)) :
      PlaceOutcome s c k (s.withClaims c l k.arrival, v)
  | displaced (x : Circuit) (l : List Contribution) (victim : Contribution) (h : Table.at? s.circuits c = some x)
      (hi : insertClaim { k with dormant := dormantIn s.mode x.config k.tier } x.claims = (l, .appended (some victim))) :
      PlaceOutcome s c k (((s.withClaims c l k.arrival).markDisplaced c victim.origin).departed true victim.origin,
        .appended (some victim))

theorem insertClaim_ne_unconfigured (k : Contribution) (claims : List Contribution) :
    (insertClaim k claims).2 ≠ .unconfigured := by
  have outcome := insertClaim_inserted k claims
  generalize insertClaim k claims = r at outcome
  cases outcome <;> exact nofun

theorem State.place_outcome (s : State) (c : Nat) (k : Contribution) : PlaceOutcome s c k (s.place c k) := by
  cases h : Table.at? s.circuits c with
  | none => exact State.place_of_unconfigured h k ▸ .unconfigured h
  | some x =>
    have known := insertClaim_ne_unconfigured { k with dormant := dormantIn s.mode x.config k.tier } x.claims
    rcases hi : insertClaim { k with dormant := dormantIn s.mode x.config k.tier } x.claims with ⟨l, v⟩
    rw [hi] at known
    match v with
    | .unconfigured => exact absurd rfl known
    | .refused => exact State.place_of_refused h hi ▸ .refused x l h hi
    | .replaced => exact State.place_of_replaced h hi ▸ .taken x l _ (.inl rfl) h hi
    | .appended none => exact State.place_of_appended h hi ▸ .taken x l _ (.inr rfl) h hi
    | .appended (some victim) => exact State.place_of_displaced h hi ▸ .displaced x l victim h hi

theorem State.OnlyClaims.place {s t : State} (h : s.OnlyClaims t) (c : Nat) (k : Contribution) :
    s.OnlyClaims (t.place c k).1 := by
  have outcome := t.place_outcome c k
  generalize t.place c k = r at outcome
  cases outcome with
  | unconfigured => exact h
  | refused => exact h.markRefused _
  | taken => exact h.withClaims ..
  | displaced => exact ((h.withClaims ..).markDisplaced ..).departed ..

@[simp] theorem State.withClaims_bindings (s : State) (c : Nat) (l : List Contribution) (tenths : Nat) :
    (s.withClaims c l tenths).bindings = s.bindings := rfl

@[simp] theorem State.withClaims_scenes (s : State) (c : Nat) (l : List Contribution) (tenths : Nat) :
    (s.withClaims c l tenths).scenes = s.scenes := rfl

theorem State.withClaims_at? (s : State) (c : Nat) (l : List Contribution) (tenths i : Nat) :
    Table.at? (s.withClaims c l tenths).circuits i = (Table.at? s.circuits i).map fun x =>
      if i = c then ({ x with claims := l } : Circuit).resolve (s.masterOf x.config) tenths else x := by
  rw [State.withClaims, State.resolve_at?, State.onCircuit_circuits, Table.at?_adjust]
  by_cases h : i = c
  · simp only [h, if_true, Option.map_map]; rfl
  · simp [h]

/-- The circuits after a list was placed on one and the victim's owner marked. -/
theorem State.displaced_at? {s : State} {c : Nat} {x : Circuit} (h : Table.at? s.circuits c = some x)
    (l : List Contribution) (tenths : Nat) (o : Origin) (i : Nat) :
    Table.at? ((s.withClaims c l tenths).markDisplaced c o).circuits i = if i = c then
      some { ({ x with claims := l } : Circuit).resolve (s.masterOf x.config) tenths with
        resolved := { (({ x with claims := l } : Circuit).resolve (s.masterOf x.config) tenths).resolved with
          hostDisplaced := decide (o = .host) || x.resolved.hostDisplaced } }
      else Table.at? s.circuits i := by
  rw [State.markDisplaced_circuits_at?, State.withClaims_at?]
  by_cases hi : i = c
  · subst hi
    by_cases ho : o = .host <;> simp [h, ho, Circuit.resolve]
  · simp [hi]

theorem lowestTier_eq {claims : List Contribution} {k : Contribution} (hk : k ∈ claims)
    (low : ∀ y ∈ claims, k.tier ≤ y.tier) : lowestTier claims = some k.tier := by
  rw [lowestTier, List.min?_eq_some_iff, List.forall_mem_map]
  exact ⟨List.mem_map_of_mem hk, low⟩

/-- What a list of eight holds to give way for a new claim: the oldest claim of the lowest tier (R8). -/
theorem insertClaim_of_lowest {k victim : Contribution} {claims older newer : List Contribution}
    (fresh : ∀ y ∈ claims, y.origin ≠ k.origin) (full : 8 ≤ claims.length) (hc : claims = older ++ victim :: newer)
    (low : ∀ y ∈ claims, victim.tier ≤ y.tier) (oldest : ∀ y ∈ older, y.tier ≠ victim.tier) :
    insertClaim k claims =
      if victim.tier ≤ k.tier then (older ++ newer ++ [k], .appended (some victim)) else (claims, .refused) := by
  rw [insertClaim_of_full fresh full (lowestTier_eq (by simp [hc]) low)]
  rw [hc, eraseP_append_cons (by simp) (by simpa using oldest), find?_append_cons (by simp) (by simpa using oldest)]

/-- Settles O12: the outcomes of an insertion, case by case. -/
theorem placementRule : Obligations.PlacementRule := by
  intro s c x new hx k placed
  have placed_of {t : State} {v : Verdict} {l : List Contribution} (o : Origin) (e : s.place c new = (t, v))
      (ht : t.circuits = ((s.withClaims c l new.arrival).markDisplaced c o).circuits) : placed l :=
    ⟨_, fun i => by rw [e, ht]; exact s.displaced_at? hx l _ o i⟩
  refine ⟨fun older old newer hc ho hold => ?_, fun fresh =>
    ⟨fun room => ?_, fun full older victim newer hc low hold => ?_⟩⟩
  · have hi : insertClaim k x.claims = (older ++ newer ++ [k], .replaced) := by
      rw [insertClaim_of_held (k := k) ⟨old, by simp [hc], ho⟩, hc,
        eraseP_append_cons (by simp [k, ho]) (by simpa [k] using hold)]
    have e := State.place_of_replaced hx hi
    exact ⟨congrArg Prod.snd e, placed_of .egress e rfl⟩
  · have e := State.place_of_appended hx (insertClaim_of_room (k := k) fresh room)
    exact ⟨congrArg Prod.snd e, placed_of .egress e rfl⟩
  · have hi := insertClaim_of_lowest (k := k) fresh full hc low hold
    refine ⟨fun above => ?_, fun below => ?_⟩
    · rw [if_pos above] at hi
      have e := State.place_of_displaced hx hi
      exact ⟨congrArg Prod.snd e, placed_of victim.origin e (State.departed_circuits ..)⟩
    · rw [if_neg (Nat.not_le.2 below)] at hi
      have e := State.place_of_refused hx hi
      exact ⟨congrArg Prod.snd e, e ▸ State.markRefused_circuits ..⟩

/-- A binding after a placement of a claim of some origin with some verdict (R9, R10). -/
def Binding.afterPlacement (o : Origin) (v : Verdict) (b : Nat) (x : Binding) : Binding :=
  match v with
  | .appended (some victim) =>
    if victim.origin = .binding b then { x with displacedMark := true, captured := false } else x
  | .refused => if o = .binding b then { x with partialMark := true } else x
  | _ => x

/-- A scene after a placement of a claim of some origin with some verdict, and what it holds then (R9, R11). -/
def Scene.afterPlacement (o : Origin) (v : Verdict) (n held : Nat) (x : Scene) : Scene :=
  match v with
  | .appended (some victim) =>
    if victim.origin = .scene n then
      (if held = 0 then { x with displacedMark := true, liveTier := none, recaller := none }
        else { x with displacedMark := true })
    else x
  | .refused => if o = .scene n then { x with partialMark := true } else x
  | _ => x

theorem State.place_bindings_at? (s : State) (c : Nat) (k : Contribution) (b : Nat) :
    Table.at? (s.place c k).1.bindings b =
      (Table.at? s.bindings b).map (Binding.afterPlacement k.origin (s.place c k).2 b) := by
  have outcome := s.place_outcome c k
  generalize s.place c k = r at outcome
  cases outcome with
  | unconfigured => exact Option.map_id'.symm
  | refused => exact State.markRefused_bindings_at? ..
  | taken x l v hv => rcases hv with rfl | rfl <;> exact Option.map_id'.symm
  | displaced x l victim =>
    rw [State.departed_bindings_at?, State.markDisplaced_bindings_at?, Option.map_map]
    congr 1
    funext y
    by_cases h : victim.origin = .binding b <;> simp [Binding.afterPlacement, h]

theorem State.place_scenes_at? (s : State) (c : Nat) (k : Contribution) (n : Nat) :
    Table.at? (s.place c k).1.scenes n = (Table.at? s.scenes n).map
      (Scene.afterPlacement k.origin (s.place c k).2 n ((s.place c k).1.holds (.scene n))) := by
  have outcome := s.place_outcome c k
  generalize s.place c k = r at outcome
  cases outcome with
  | unconfigured => exact Option.map_id'.symm
  | refused => exact State.markRefused_scenes_at? ..
  | taken x l v hv => rcases hv with rfl | rfl <;> exact Option.map_id'.symm
  | displaced x l victim =>
    rw [State.departed_scenes_at?, State.markDisplaced_scenes_at?, Option.map_map,
      State.holds_congr (State.departed_circuits ..)]
    congr 1
    funext y
    by_cases h : victim.origin = .scene n
    · by_cases held : (((s.withClaims c l k.arrival).markDisplaced c victim.origin).holds (.scene n)) = 0 <;>
        simp_all [Scene.afterPlacement]
    · simp [Scene.afterPlacement, h]

/-- A circuit after a placement on it (R6, R7, R8, R9). -/
def Circuit.placed (mode : HouseMode) (master : Option Nat) (k : Contribution) (x : Circuit) : Circuit :=
  match insertClaim { k with dormant := dormantIn mode x.config k.tier } x.claims with
  | (_, .refused) => x
  | (claims, v) =>
    let y := Circuit.resolve master k.arrival { x with claims := claims }
    { y with resolved := { y.resolved with
      hostDisplaced := (match v with
        | .appended (some victim) => decide (victim.origin = .host)
        | _ => false) || x.resolved.hostDisplaced } }

/-- What comes of a placement on a circuit. -/
def Circuit.verdict (mode : HouseMode) (k : Contribution) (x : Circuit) : Verdict :=
  (insertClaim { k with dormant := dormantIn mode x.config k.tier } x.claims).2

theorem State.place_at? (s : State) (c : Nat) (k : Contribution) (i : Nat) :
    Table.at? (s.place c k).1.circuits i = (Table.at? s.circuits i).map fun x =>
      if i = c then x.placed s.mode (s.masterOf x.config) k else x := by
  have outcome := s.place_outcome c k
  generalize s.place c k = r at outcome
  cases outcome with
  | unconfigured h => by_cases hi : i = c <;> simp [hi, h]
  | refused x l h hi => by_cases hic : i = c <;> simp [hic, h, hi, Circuit.placed]
  | taken x l v hv h hi =>
    rw [State.withClaims_at?]
    rcases hv with rfl | rfl <;> by_cases hic : i = c <;> simp [hic, h, hi, Circuit.placed, Circuit.resolve]
  | displaced x l victim h hi =>
    rw [State.departed_circuits, State.displaced_at? h]
    by_cases hic : i = c <;> simp [hic, h, hi, Circuit.placed]

theorem State.place_at?_ne (s : State) {c i : Nat} (k : Contribution) (h : i ≠ c) :
    Table.at? (s.place c k).1.circuits i = Table.at? s.circuits i := by simp [State.place_at?, h]

theorem State.place_verdict (s : State) (c : Nat) (k : Contribution) :
    (s.place c k).2 = (Table.at? s.circuits c).elim .unconfigured (Circuit.verdict s.mode k) := by
  have outcome := s.place_outcome c k
  generalize s.place c k = r at outcome
  cases outcome with
  | unconfigured h => simp [h]
  | refused x l h hi => simp [h, hi, Circuit.verdict]
  | taken x l v hv h hi => simp [h, hi, Circuit.verdict]
  | displaced x l victim h hi => simp [h, hi, Circuit.verdict]

/-- Settles O13: what a placement leaves of bindings, scenes and circuits, at the verdict it has. -/
theorem displacementMarksTheOwner : Obligations.DisplacementMarksTheOwner := by
  intro s c new t
  have bindings := s.place_bindings_at? c new
  have scenes := s.place_scenes_at? c new
  refine ⟨(State.OnlyClaims.refl s).place c new, fun victim hv => ⟨?_, ?_, fun host => ?_⟩, fun hv => ⟨?_, ?_⟩,
    fun hv => ?_⟩
  · rw [hv] at bindings; exact bindings
  · rw [hv] at scenes; exact scenes
  · rw [s.place_at? c new c]
    rw [State.place_verdict] at hv
    cases hx : Table.at? s.circuits c with
    | none => simp [hx] at hv
    | some x =>
      rcases hi : insertClaim { new with dormant := dormantIn s.mode x.config new.tier } x.claims with ⟨l, v⟩
      obtain rfl : v = .appended (some victim) := by simpa [hx, Circuit.verdict, hi] using hv
      simp [Circuit.placed, hi, host]
  · rw [hv] at bindings; exact bindings
  · rw [hv] at scenes; exact scenes
  · have outcome := s.place_outcome c new
    simp only [t]
    generalize s.place c new = r at outcome hv
    cases outcome with
    | unconfigured => exact ⟨rfl, rfl⟩
    | refused => simp at hv
    | taken => exact ⟨rfl, rfl⟩
    | displaced => simp at hv

/-! ## Removal -/

/-- A circuit after the removal of an origin from it (R10). -/
def Circuit.removed (master : Option Nat) (o : Origin) (x : Circuit) : Circuit :=
  match x.claims.find? fun k => k.origin == o with
  | none => x
  | some k => Circuit.resolve master k.release { x with claims := x.claims.eraseP fun k => k.origin == o }

/-- Whether a circuit's list holds a claim of an origin. -/
def Circuit.holds (x : Circuit) (o : Origin) : Bool := x.claims.any fun k => k.origin == o

theorem Circuit.holds_iff {x : Circuit} {o : Origin} : x.holds o = true ↔ ∃ k ∈ x.claims, k.origin = o := by
  simp [Circuit.holds]

theorem Circuit.removed_of_absent {x : Circuit} {o : Origin} (h : ∀ k ∈ x.claims, k.origin ≠ o) (master : Option Nat) :
    x.removed master o = x := by
  have hf : x.claims.find? (fun k => k.origin == o) = none := by simpa using h
  simp [Circuit.removed, hf]

theorem Circuit.removed_of_split {x : Circuit} {o : Origin} {older newer : List Contribution} {k : Contribution}
    (hc : x.claims = older ++ k :: newer) (hk : k.origin = o) (ho : ∀ y ∈ older, y.origin ≠ o) (master : Option Nat) :
    x.removed master o = Circuit.resolve master k.release { x with claims := older ++ newer } := by
  have found : x.claims.find? (fun k => k.origin == o) = some k := by
    rw [hc, find?_append_cons (by simp [hk]) (by simpa using ho)]
  rw [Circuit.removed, found, hc, eraseP_append_cons (by simp [hk]) (by simpa using ho)]

/-- The two outcomes of a removal (R10). -/
inductive RemoveOutcome (s : State) (byOther : Bool) (o : Origin) (c : Nat) : State → Prop
  | absent (h : ∀ x, Table.at? s.circuits c = some x → ∀ k ∈ x.claims, k.origin ≠ o) : RemoveOutcome s byOther o c s
  | taken (x : Circuit) (k : Contribution) (h : Table.at? s.circuits c = some x)
      (hf : x.claims.find? (fun k => k.origin == o) = some k) : RemoveOutcome s byOther o c
        (((s.onCircuit c fun x => { x with claims := x.claims.eraseP fun k => k.origin == o }).resolve c k.release).departed
          byOther o)

theorem State.remove_outcome (s : State) (byOther : Bool) (o : Origin) (c : Nat) :
    RemoveOutcome s byOther o c (s.remove byOther o c) := by
  cases h : Table.at? s.circuits c with
  | none =>
    rw [State.remove_of_unconfigured h]
    exact .absent (by simp [h])
  | some x =>
    cases hf : x.claims.find? (fun k => k.origin == o) with
    | none =>
      have absent : ∀ k ∈ x.claims, k.origin ≠ o := by simpa using hf
      rw [State.remove_of_absent h absent]
      exact .absent (by simpa [h] using absent)
    | some k => exact State.remove_of_held h hf byOther ▸ .taken x k h hf

theorem State.OnlyClaims.remove {s t : State} (h : s.OnlyClaims t) (byOther : Bool) (o : Origin) (c : Nat) :
    s.OnlyClaims (t.remove byOther o c) := by
  have outcome := t.remove_outcome byOther o c
  generalize t.remove byOther o c = r at outcome
  cases outcome with
  | absent => exact h
  | taken => exact ((h.onCircuit ..).resolve ..).departed ..

theorem State.remove_at? (s : State) (byOther : Bool) (o : Origin) (c i : Nat) :
    Table.at? (s.remove byOther o c).circuits i = (Table.at? s.circuits i).map fun x =>
      if i = c then x.removed (s.masterOf x.config) o else x := by
  have outcome := s.remove_outcome byOther o c
  generalize s.remove byOther o c = r at outcome
  by_cases hi : i = c
  · subst hi
    cases outcome with
    | absent h =>
      cases hx : Table.at? s.circuits i with
      | none => rfl
      | some x => simp [Circuit.removed_of_absent (h x hx)]
    | taken x k h hf => simp [State.resolve_at?, h, Circuit.removed, hf]; rfl
  · cases outcome <;> simp [State.resolve_at?, Table.at?_adjust, hi]

theorem State.remove_at?_ne (s : State) (byOther : Bool) (o : Origin) {c i : Nat} (h : i ≠ c) :
    Table.at? (s.remove byOther o c).circuits i = Table.at? s.circuits i := by simp [State.remove_at?, h]

/-- Whether the list of a circuit, if it is configured, holds a claim of an origin. -/
def State.heldOn (s : State) (o : Origin) (c : Nat) : Bool := (Table.at? s.circuits c).any fun x => x.holds o

theorem State.heldOn_iff {s : State} {o : Origin} {c : Nat} :
    s.heldOn o c = true ↔ ∃ x, Table.at? s.circuits c = some x ∧ ∃ k ∈ x.claims, k.origin = o := by
  simp [State.heldOn, Option.any_eq_true, Circuit.holds_iff]

theorem State.heldOn_eq_false {s : State} {o : Origin} {c : Nat} :
    s.heldOn o c = false ↔ ∀ x, Table.at? s.circuits c = some x → ∀ k ∈ x.claims, k.origin ≠ o := by
  rw [← Bool.not_eq_true, State.heldOn_iff]
  simp

theorem RemoveOutcome.heldOn_of_taken {s : State} {o : Origin} {c : Nat} {x : Circuit} {k : Contribution}
    (h : Table.at? s.circuits c = some x) (hf : x.claims.find? (fun k => k.origin == o) = some k) :
    s.heldOn o c = true :=
  State.heldOn_iff.2 ⟨x, h, k, List.mem_of_find?_eq_some hf, by simpa using List.find?_some hf⟩

theorem State.remove_of_not_heldOn {s : State} {o : Origin} {c : Nat} (h : s.heldOn o c = false) (byOther : Bool) :
    s.remove byOther o c = s := by
  have outcome := s.remove_outcome byOther o c
  generalize s.remove byOther o c = r at outcome
  cases outcome with
  | absent => rfl
  | taken x k hx hf => simp [RemoveOutcome.heldOn_of_taken hx hf] at h

theorem State.remove_bindings_at? (s : State) (byOther : Bool) (o : Origin) (c b : Nat) :
    Table.at? (s.remove byOther o c).bindings b = (Table.at? s.bindings b).map fun x =>
      if s.heldOn o c = true ∧ byOther = true ∧ o = .binding b then { x with captured := false } else x := by
  have outcome := s.remove_outcome byOther o c
  generalize s.remove byOther o c = r at outcome
  cases outcome with
  | absent h => simp [State.heldOn_eq_false.2 h]
  | taken x k hx hf => simp [State.departed_bindings_at?, RemoveOutcome.heldOn_of_taken hx hf, State.resolve]

theorem State.remove_scenes_at? (s : State) (byOther : Bool) (o : Origin) (c n : Nat) :
    Table.at? (s.remove byOther o c).scenes n = (Table.at? s.scenes n).map fun x =>
      if s.heldOn o c = true ∧ o = .scene n ∧ (s.remove byOther o c).holds (.scene n) = 0 then
        { x with liveTier := none, recaller := none } else x := by
  have outcome := s.remove_outcome byOther o c
  generalize s.remove byOther o c = r at outcome
  cases outcome with
  | absent h => simp [State.heldOn_eq_false.2 h]
  | taken x k hx hf =>
    rw [State.departed_scenes_at?, State.holds_congr (State.departed_circuits ..)]
    congr 1
    funext y
    refine if_congr ?_ rfl rfl
    simp only [RemoveOutcome.heldOn_of_taken hx hf, true_and]

/-- Settles O14: what a removal leaves of circuits and bindings, at whether the origin is held. -/
theorem removalResolvesWithTheReleaseFade : Obligations.RemovalResolvesWithTheReleaseFade := by
  intro s byOther o c t
  refine ⟨(State.OnlyClaims.refl s).remove byOther o c, fun absent => ?_, fun x older k newer hx hc hk ho i => ?_,
    fun b hb other held i => ?_⟩
  · exact State.remove_of_not_heldOn (State.heldOn_eq_false.2 absent) byOther
  · rw [s.remove_at? byOther o c i]
    by_cases hi : i = c
    · simp [hi, hx, Circuit.removed_of_split hc hk ho]
    · simp [hi]
  · rw [s.remove_bindings_at? byOther o c i, State.heldOn_iff.2 held]
    simp [other, hb, @eq_comm _ i b]

end Sys2Proof.Machine
end

section
/-! SUPPORT. The fields of the exchange with the host and the firing that is held take no part in what claims, scenes,
bindings, masters and modes do: an operation on a state with other such fields leaves the same, with those fields. -/

namespace Sys2Proof.Machine

/-- The state with other bytes shifted out, another slot of the host link and another firing held. -/
def State.withExchange (s : State) (sdo : List Byte) (slot : HostSlot) (offered : Option Firing) : State :=
  { s with sdo := sdo, hostSlot := slot, offered := offered }

namespace State

section
variable (s : State) (a : List Byte) (h : HostSlot) (f : Option Firing)

theorem withExchange_self : s.withExchange s.sdo s.hostSlot s.offered = s := rfl

theorem taken_eq_withExchange (code tag : Byte) (body : List Byte) : s.taken code tag body =
    s.withExchange (List.replicate (3 + body.length) 0) (.working ⟨code, tag, body⟩) s.offered := rfl

@[simp] theorem withExchange_circuits : (s.withExchange a h f).circuits = s.circuits := rfl
@[simp] theorem withExchange_zones : (s.withExchange a h f).zones = s.zones := rfl
@[simp] theorem withExchange_bindings : (s.withExchange a h f).bindings = s.bindings := rfl
@[simp] theorem withExchange_scenes : (s.withExchange a h f).scenes = s.scenes := rfl
@[simp] theorem withExchange_mode : (s.withExchange a h f).mode = s.mode := rfl
@[simp] theorem withExchange_latch : (s.withExchange a h f).latch = s.latch := rfl
@[simp] theorem withExchange_requiredFeed : (s.withExchange a h f).requiredFeed = s.requiredFeed := rfl
@[simp] theorem withExchange_repeats : (s.withExchange a h f).repeats = s.repeats := rfl
@[simp] theorem withExchange_freeUses : (s.withExchange a h f).freeUses = s.freeUses := rfl
@[simp] theorem withExchange_notices : (s.withExchange a h f).notices = s.notices := rfl
@[simp] theorem withExchange_saving : (s.withExchange a h f).saving = s.saving := rfl
@[simp] theorem withExchange_holders (o : Origin) : (s.withExchange a h f).holders o = s.holders o := rfl
@[simp] theorem withExchange_holds (o : Origin) : (s.withExchange a h f).holds o = s.holds o := rfl
@[simp] theorem withExchange_live (n : Nat) : (s.withExchange a h f).live n = s.live n := rfl
@[simp] theorem withExchange_members (z : Nat) : (s.withExchange a h f).members z = s.members z := rfl
@[simp] theorem withExchange_reached (r : Area) : (s.withExchange a h f).reached r = s.reached r := by cases r <;> rfl
@[simp] theorem withExchange_masterOf (c : CircuitConfig) : (s.withExchange a h f).masterOf c = s.masterOf c := rfl
@[simp] theorem withExchange_masterFade (z : Nat) : (s.withExchange a h f).masterFade z = s.masterFade z := rfl
@[simp] theorem withExchange_recalledBy (b : Nat) : (s.withExchange a h f).recalledBy b = s.recalledBy b := rfl
@[simp] theorem withExchange_leaving (o n : HouseMode) : (s.withExchange a h f).leaving o n = s.leaving o n := rfl
@[simp] theorem withExchange_transferReady : (s.withExchange a h f).transferReady = s.transferReady := rfl

@[simp] theorem withExchange_withExchange (b : List Byte) (k : HostSlot) (g : Option Firing) :
    (s.withExchange a h f).withExchange b k g = s.withExchange b k g := rfl

@[simp] theorem withExchange_withCircuits (x : Table Circuit) :
    (s.withExchange a h f).withCircuits x = (s.withCircuits x).withExchange a h f := rfl

@[simp] theorem withExchange_withZones (x : Table Zone) :
    (s.withExchange a h f).withZones x = (s.withZones x).withExchange a h f := rfl

@[simp] theorem withExchange_withBindings (x : Table Binding) :
    (s.withExchange a h f).withBindings x = (s.withBindings x).withExchange a h f := rfl

@[simp] theorem withExchange_withRepeats (x : List Repeat) :
    (s.withExchange a h f).withRepeats x = (s.withRepeats x).withExchange a h f := rfl

@[simp] theorem withExchange_withMode (x : HouseMode) :
    (s.withExchange a h f).withMode x = (s.withMode x).withExchange a h f := rfl

@[simp] theorem withExchange_raise (n : Notice) : (s.withExchange a h f).raise n = (s.raise n).withExchange a h f := rfl

@[simp] theorem withExchange_onCircuit (c : Nat) (g : Circuit → Circuit) :
    (s.withExchange a h f).onCircuit c g = (s.onCircuit c g).withExchange a h f := rfl

@[simp] theorem withExchange_onBinding (b : Nat) (g : Binding → Binding) :
    (s.withExchange a h f).onBinding b g = (s.onBinding b g).withExchange a h f := rfl

@[simp] theorem withExchange_onScene (n : Nat) (g : Scene → Scene) :
    (s.withExchange a h f).onScene n g = (s.onScene n g).withExchange a h f := rfl

@[simp] theorem withExchange_onTransition (c : Nat) (g : CircuitConfig → Transition → Transition) :
    (s.withExchange a h f).onTransition c g = (s.onTransition c g).withExchange a h f := rfl

@[simp] theorem withExchange_onKey (k : StationInput) (g : KeyRecord → KeyRecord) :
    (s.withExchange a h f).onKey k g = (s.onKey k g).withExchange a h f := by
  obtain ⟨l, _, _⟩ := k
  cases l <;> rfl

@[simp] theorem withExchange_resolve (c tenths : Nat) :
    (s.withExchange a h f).resolve c tenths = (s.resolve c tenths).withExchange a h f := rfl

@[simp] theorem withExchange_withClaims (c : Nat) (l : List Contribution) (tenths : Nat) :
    (s.withExchange a h f).withClaims c l tenths = (s.withClaims c l tenths).withExchange a h f := rfl

@[simp] theorem withExchange_ite (p : Prop) [Decidable p] (t : State) :
    (if p then s.withExchange a h f else t.withExchange a h f) = (if p then s else t).withExchange a h f := by
  split <;> rfl

theorem withExchange_foldl {α : Type} {g : State → α → State}
    (hg : ∀ s x, g (s.withExchange a h f) x = (g s x).withExchange a h f) (xs : List α) :
    xs.foldl g (s.withExchange a h f) = (xs.foldl g s).withExchange a h f := by
  induction xs generalizing s with
  | nil => rfl
  | cons x xs ih => rw [List.foldl_cons, hg, ih, List.foldl_cons]

@[simp] theorem withExchange_foldl_resolve (tenths : Nat) (xs : List Nat) :
    xs.foldl (fun s c => s.resolve c tenths) (s.withExchange a h f) =
      (xs.foldl (fun s c => s.resolve c tenths) s).withExchange a h f :=
  withExchange_foldl s a h f (fun _ _ => rfl) xs

/-- The same for a run that also counts. -/
theorem withExchange_foldlFst {α β : Type} {g : State × β → α → State × β}
    (hg : ∀ s n x, g (s.withExchange a h f, n) x = ((g (s, n) x).1.withExchange a h f, (g (s, n) x).2))
    (xs : List α) (n : β) : xs.foldl g (s.withExchange a h f, n) =
      ((xs.foldl g (s, n)).1.withExchange a h f, (xs.foldl g (s, n)).2) := by
  induction xs generalizing s n with
  | nil => rfl
  | cons x xs ih => rw [List.foldl_cons, hg, ih, List.foldl_cons]

/-! ## Claims -/

@[simp] theorem withExchange_markDisplaced (c : Nat) (o : Origin) :
    (s.withExchange a h f).markDisplaced c o = (s.markDisplaced c o).withExchange a h f := by cases o <;> rfl

@[simp] theorem withExchange_markRefused (o : Origin) :
    (s.withExchange a h f).markRefused o = (s.markRefused o).withExchange a h f := by cases o <;> rfl

@[simp] theorem withExchange_judgeLive (n : Nat) :
    (s.withExchange a h f).judgeLive n = (s.judgeLive n).withExchange a h f := by
  unfold judgeLive
  rw [withExchange_live, withExchange_onScene, withExchange_ite]

@[simp] theorem withExchange_departed (byOther : Bool) (o : Origin) :
    (s.withExchange a h f).departed byOther o = (s.departed byOther o).withExchange a h f := by
  cases o <;> simp [departed]

@[simp] theorem withExchange_place (c : Nat) (k : Contribution) : (s.withExchange a h f).place c k =
    ((s.place c k).1.withExchange a h f, (s.place c k).2) := by
  have outcome := s.place_outcome c k
  generalize s.place c k = r at outcome
  cases outcome with
  | unconfigured hx => exact place_of_unconfigured (s := s.withExchange a h f) hx k
  | refused x l hx hi => exact (place_of_refused (s := s.withExchange a h f) hx hi).trans (by simp)
  | taken x l v hv hx hi =>
    rcases hv with rfl | rfl
    · exact place_of_replaced (s := s.withExchange a h f) hx hi
    · exact place_of_appended (s := s.withExchange a h f) hx hi
  | displaced x l victim hx hi => exact (place_of_displaced (s := s.withExchange a h f) hx hi).trans (by simp)

@[simp] theorem withExchange_remove (byOther : Bool) (o : Origin) (c : Nat) :
    (s.withExchange a h f).remove byOther o c = (s.remove byOther o c).withExchange a h f := by
  have outcome := s.remove_outcome byOther o c
  generalize s.remove byOther o c = r at outcome
  cases outcome with
  | absent ho => exact remove_of_not_heldOn (s := s.withExchange a h f) (heldOn_eq_false.2 ho) byOther
  | taken x k hx hf => exact (remove_of_held (s := s.withExchange a h f) hx hf byOther).trans (by simp)

@[simp] theorem withExchange_removeEverywhere (o : Origin) :
    (s.withExchange a h f).removeEverywhere o = (s.removeEverywhere o).withExchange a h f :=
  withExchange_foldl s a h f (by simp) _

@[simp] theorem withExchange_masterChange (z v tenths : Nat) (maker : Option Nat) :
    (s.withExchange a h f).masterChange z v tenths maker = (s.masterChange z v tenths maker).withExchange a h f := by
  unfold masterChange
  cases hz : Table.at? s.zones z with
  | none => simp [hz]
  | some x => simp [hz]

/-! ## Scenes and bindings -/

@[simp] theorem withExchange_placeAll (claims : List (Nat × Contribution)) : (s.withExchange a h f).placeAll claims =
    ((s.placeAll claims).1.withExchange a h f, (s.placeAll claims).2) :=
  withExchange_foldlFst s a h f (by simp) _ _

@[simp] theorem withExchange_judgeScene (n : Nat) (refused : Bool) :
    (s.withExchange a h f).judgeScene n refused = (s.judgeScene n refused).withExchange a h f := rfl

@[simp] theorem withExchange_recall (n tier : Nat) (r : Recaller) :
    (s.withExchange a h f).recall n tier r = (s.recall n tier r).withExchange a h f := by
  unfold State.recall
  cases hn : Table.at? s.scenes n <;> simp [hn]

@[simp] theorem withExchange_releaseScene (n : Nat) :
    (s.withExchange a h f).releaseScene n = (s.releaseScene n).withExchange a h f := by
  unfold releaseScene
  cases hn : Table.at? s.scenes n <;> simp [hn, withExchange_foldl]

@[simp] theorem withExchange_releaseLight (b : Nat) :
    (s.withExchange a h f).releaseLight b = (s.releaseLight b).withExchange a h f := by
  unfold releaseLight
  cases hb : Table.at? s.bindings b <;> simp [hb, withExchange_foldl]

/-! ## Modes -/

@[simp] theorem withExchange_redormWhere (test : Nat → Bool) :
    (s.withExchange a h f).redormWhere test = (s.redormWhere test).withExchange a h f := rfl

@[simp] theorem withExchange_redormAll : (s.withExchange a h f).redormAll = s.redormAll.withExchange a h f := rfl

@[simp] theorem withExchange_stepExpiry : (s.withExchange a h f).stepExpiry = s.stepExpiry.withExchange a h f := rfl

@[simp] theorem withExchange_redormBeforeReport :
    (s.withExchange a h f).redormBeforeReport = s.redormBeforeReport.withExchange a h f := by
  unfold redormBeforeReport
  rw [withExchange_freeUses]
  cases Config.stepInModeChange s.freeUses <;> rfl

@[simp] theorem withExchange_reportFeed (r : Feed) :
    (s.withExchange a h f).reportFeed r = (s.reportFeed r).withExchange a h f := rfl

@[simp] theorem withExchange_changeMode (m : HouseMode) :
    (s.withExchange a h f).changeMode m = (s.changeMode m).withExchange a h f := by
  simp [changeMode, withExchange_foldl]

/-! ## Actions -/

@[simp] theorem withExchange_recordHolding (b c : Nat) (key : Option StationInput) (v : Verdict) :
    (s.withExchange a h f).recordHolding b c key v = (s.recordHolding b c key v).withExchange a h f := by
  cases key <;> cases v <;> simp [recordHolding]

@[simp] theorem withExchange_judgeBinding (b : Nat) (t : Tally) :
    (s.withExchange a h f).judgeBinding b t = (s.judgeBinding b t).withExchange a h f := by
  simp [judgeBinding]

@[simp] theorem withExchange_firePlacing (b : Nat) (r : Area) (k : Contribution) :
    (s.withExchange a h f).firePlacing b r k = (s.firePlacing b r k).withExchange a h f := by
  unfold firePlacing
  rw [withExchange_foldlFst s a h f (by simp)]
  simp

@[simp] theorem withExchange_releaseTier (b tier c : Nat) :
    (s.withExchange a h f).releaseTier b tier c = (s.releaseTier b tier c).withExchange a h f :=
  withExchange_foldl s a h f (by simp) _

@[simp] theorem withExchange_stepMaster (z : Nat) (upward : Bool) (n : Nat) :
    (s.withExchange a h f).stepMaster z upward n = (s.stepMaster z upward n).withExchange a h f := by
  unfold stepMaster
  cases hz : Table.at? s.zones z <;> simp [hz]

@[simp] theorem withExchange_startRepeat (b z : Nat) (upward : Bool) (n : Nat) (k : StationInput) :
    (s.withExchange a h f).startRepeat b z upward n k = (s.startRepeat b z upward n k).withExchange a h f := by
  simp [startRepeat]

@[simp] theorem withExchange_fireRepeat (b z : Nat) (upward : Bool) (n : Nat) (source : FiringSource) :
    (s.withExchange a h f).fireRepeat b z upward n source = (s.fireRepeat b z upward n source).withExchange a h f := by
  cases source <;> simp [fireRepeat]

@[simp] theorem withExchange_applyPosition (b q : Nat) (act : Action) :
    (s.withExchange a h f).applyPosition b q act = (s.applyPosition b q act).withExchange a h f := by
  cases act <;> simp [applyPosition]

@[simp] theorem withExchange_reference (b : Nat) (act : Action) :
    (s.withExchange a h f).reference b act = s.reference b act := by
  cases act <;> simp [reference]

@[simp] theorem withExchange_pickup (b : Nat) (captured : Bool) (act : Action) (p : Option Nat) (q : Nat) :
    (s.withExchange a h f).pickup b captured act p q = (s.pickup b captured act p q).withExchange a h f := by
  unfold pickup
  cases hr : s.reference b act <;> simp [hr]

@[simp] theorem withExchange_fireMode (m : HouseMode) (source : FiringSource) :
    (s.withExchange a h f).fireMode m source = (s.fireMode m source).withExchange a h f := by
  cases source <;> simp [fireMode]

/-- What an action does takes no notice of the exchange with the host, nor of what is held as offered. -/
@[simp] theorem withExchange_perform (b : Nat) (x : Binding) (source : FiringSource) (p : Option Nat) (q : Nat) :
    (s.withExchange a h f).perform b x source p q = (s.perform b x source p q).withExchange a h f := by
  unfold perform
  cases x.record.action with
  | release r tier => simp [withExchange_foldl]
  | followMaster => cases source <;> simp
  | followLevel => cases source <;> simp
  | _ => simp

end

/-- A firing leaves what its action leaves. -/
theorem fire_eq_perform {s : State} (h : s.offered = none) (b : Nat) (x : Binding) (source : FiringSource)
    (p q : Option Nat) : s.fire b x source p q = s.perform b x source p (q.getD 0) := by
  have same := s.withExchange_perform s.sdo s.hostSlot none b x source p (q.getD 0)
  rw [← h, withExchange_self] at same
  calc s.fire b x source p q
      = (((s.withExchange s.sdo s.hostSlot (some ⟨b, x.record.gesture, source, q⟩)).perform b x source p
          (q.getD 0))).withOffered none := rfl
    _ = (s.perform b x source p (q.getD 0)).withExchange s.sdo s.hostSlot s.offered := by
        rw [withExchange_perform, h]; rfl
    _ = s.perform b x source p (q.getD 0) := same.symm

end State

end Sys2Proof.Machine
end

section
/-! SUPPORT. How a request that is taken ends, and the checks of ConfigureCircuit (R2). -/

namespace Sys2Proof.Machine

/-! ## How a request that is taken ends -/

section
variable {s t : State} {code tag : Byte} {body : List Byte} {work : State → Work}

/-- A request answered at once: the answer waits, the zeros are out, and the rest is as the work left it. -/
theorem State.TakesRequests.answered (h : s.TakesRequests) (hb : body.length ≤ 250) {r : Reply}
    (hw : work (s.taken code tag body) = .answered r (t.taken code tag body)) :
    s.takeRequest code tag body work = t.answered body.length tag r.result r.clamped r.body :=
  State.takeRequest_of_answered h.1 h.2 hb hw

theorem State.TakesRequests.refused (h : s.TakesRequests) (hb : body.length ≤ 250) {r : Result}
    (hw : work (s.taken code tag body) = .refuse r (s.taken code tag body)) :
    s.takeRequest code tag body work = s.answered body.length tag r false [] := h.answered hb hw

theorem State.TakesRequests.done (h : s.TakesRequests) (hb : body.length ≤ 250)
    (hw : work (s.taken code tag body) = .done (t.taken code tag body)) :
    s.takeRequest code tag body work = t.answered body.length tag .ok false [] := h.answered hb hw

end

theorem State.inOrder_cons (s : State) (b : Bool) (r : Result) (rest : List (Bool × Result)) (taken : Work) :
    s.inOrder ((b, r) :: rest) taken = if b = true then .refuse r s else s.inOrder rest taken := by cases b <;> rfl

theorem within_iff {low high n : Nat} : within low high n = true ↔ low ≤ n ∧ n ≤ high := by simp [within]

theorem within_eq_false {low high n : Nat} : within low high n = false ↔ n < low ∨ high < n := by
  rw [← Bool.not_eq_true, within_iff]
  omega

theorem CircuitPhase.inTransfer_iff {p : CircuitPhase} :
    p.inTransfer = true ↔ p = .downslope ∨ p = .block ∨ p = .upslope := by cases p <;> simp [CircuitPhase.inTransfer]

/-! ## The checks of ConfigureCircuit -/

/-- The zone of a configuration is not configured (R2, check 4). -/
def State.UnknownZone (s : State) (c : CircuitConfig) : Prop := ∃ z, c.zone = some z ∧ Table.at? s.zones z = none

/-- The feeds of a configuration are one, or one is a feed of another circuit (R2, check 5). -/
def State.DuplicateFeed (s : State) (id : Nat) (c : CircuitConfig) : Prop :=
  c.stage = some c.house ∨ ∃ e ∈ s.circuits, e.1 ≠ id ∧
    ∃ ch, (ch = c.house ∨ c.stage = some ch) ∧ (e.2.config.house = ch ∨ e.2.config.stage = some ch)

/-- The kind or a feed would change (R2, check 6). -/
def CircuitConfig.Rewires (old new : CircuitConfig) : Prop :=
  new.kind ≠ old.kind ∨ new.house ≠ old.house ∨ new.stage ≠ old.stage

theorem State.unknownZone_iff {s : State} {c : CircuitConfig} :
    (c.zone.any fun z => (Table.at? s.zones z).isNone) = true ↔ s.UnknownZone c := by
  simp [Option.any_eq_true, State.UnknownZone]

theorem State.feedTaken_iff {s : State} {id : Nat} {ch : RackChannel} : s.feedTaken id ch = true ↔
    ∃ e ∈ s.circuits, e.1 ≠ id ∧ (e.2.config.house = ch ∨ e.2.config.stage = some ch) := by
  simp [State.feedTaken]

theorem State.duplicateFeed_iff {s : State} {id : Nat} {c : CircuitConfig} :
    (c.stage == some c.house || s.feedTaken id c.house || c.stage.any (s.feedTaken id)) = true ↔ s.DuplicateFeed id c := by
  simp only [Bool.or_eq_true, beq_iff_eq, Option.any_eq_true, State.feedTaken_iff, State.DuplicateFeed, or_assoc]
  refine or_congr_right ⟨?_, ?_⟩
  · rintro (⟨e, he, hi, hf⟩ | ⟨ch, hs, e, he, hi, hf⟩)
    · exact ⟨e, he, hi, c.house, .inl rfl, hf⟩
    · exact ⟨e, he, hi, ch, .inr hs, hf⟩
  · rintro ⟨e, he, hi, ch, rfl | hs, hf⟩
    · exact .inl ⟨e, he, hi, hf⟩
    · exact .inr ⟨ch, hs, e, he, hi, hf⟩

theorem CircuitConfig.rewires_iff {old new : CircuitConfig} :
    (old.kind != new.kind || old.house != new.house || old.stage != new.stage) = true ↔ old.Rewires new := by
  simp [CircuitConfig.Rewires, or_assoc, ne_comm]

theorem configureCircuit_busySaving {s : State} (hs : s.saving.isSome = true) (body : List Byte) :
    configureCircuit body s = .refuse .busySaving s := State.parsed_of_saving hs _ _

theorem configureCircuit_badRequest {s : State} {body : List Byte} (hs : s.saving = none)
    (hd : decodeCircuit body = .malformed) : configureCircuit body s = .refuse .badRequest s := by
  rw [configureCircuit, hd, State.parsed_malformed hs]

theorem configureCircuit_outOfRange {s : State} {body : List Byte} (hs : s.saving = none)
    (hd : decodeCircuit body = .outOfRange) : configureCircuit body s = .refuse .outOfRange s := by
  rw [configureCircuit, hd, State.parsed_outOfRange hs]

/-- The last three checks of ConfigureCircuit, on a body that decodes while no save runs (R2). -/
theorem configureCircuit_of_decoded {s : State} {body : List Byte} {id : Nat} {c : CircuitConfig} (hs : s.saving = none)
    (hd : decodeCircuit body = .ok (id, c)) : configureCircuit body s =
      s.inOrder
        [(c.zone.any fun z => (Table.at? s.zones z).isNone, .noSuch),
          (c.stage == some c.house || s.feedTaken id c.house || c.stage.any (s.feedTaken id), .duplicate),
          ((Table.at? s.circuits id).any fun x => x.transition.phase.inTransfer &&
            (x.config.kind != c.kind || x.config.house != c.house || x.config.stage != c.stage), .notNow)]
        (.done ((Table.at? s.circuits id).elim (s.newCircuit id c) fun x => s.changeCircuit id x.config c)) := by
  rw [configureCircuit, hd, State.parsed_ok hs]
  dsimp only
  cases Table.at? s.circuits id <;> rfl

theorem configureCircuit_noSuch {s : State} {body : List Byte} {id : Nat} {c : CircuitConfig} (hs : s.saving = none)
    (hd : decodeCircuit body = .ok (id, c)) (hz : s.UnknownZone c) : configureCircuit body s = .refuse .noSuch s := by
  rw [configureCircuit_of_decoded hs hd, State.inOrder_cons, if_pos (State.unknownZone_iff.2 hz)]

theorem configureCircuit_duplicate {s : State} {body : List Byte} {id : Nat} {c : CircuitConfig} (hs : s.saving = none)
    (hd : decodeCircuit body = .ok (id, c)) (hz : ¬ s.UnknownZone c) (hf : s.DuplicateFeed id c) :
    configureCircuit body s = .refuse .duplicate s := by
  rw [configureCircuit_of_decoded hs hd, State.inOrder_cons, if_neg (State.unknownZone_iff.not.2 hz), State.inOrder_cons,
    if_pos (State.duplicateFeed_iff.2 hf)]

theorem configureCircuit_notNow {s : State} {body : List Byte} {id : Nat} {c : CircuitConfig} {x : Circuit}
    (hs : s.saving = none) (hd : decodeCircuit body = .ok (id, c)) (hz : ¬ s.UnknownZone c)
    (hf : ¬ s.DuplicateFeed id c) (hx : Table.at? s.circuits id = some x) (ht : x.transition.phase.inTransfer = true)
    (hc : x.config.Rewires c) : configureCircuit body s = .refuse .notNow s := by
  rw [configureCircuit_of_decoded hs hd, State.inOrder_cons, if_neg (State.unknownZone_iff.not.2 hz), State.inOrder_cons,
    if_neg (State.duplicateFeed_iff.not.2 hf), State.inOrder_cons, if_pos]
  rw [hx, Option.any_some, ht, Bool.true_and]
  exact CircuitConfig.rewires_iff.2 hc

/-- ConfigureCircuit whose checks pass. -/
theorem configureCircuit_taken {s : State} {body : List Byte} {id : Nat} {c : CircuitConfig} (hs : s.saving = none)
    (hd : decodeCircuit body = .ok (id, c)) (hz : ¬ s.UnknownZone c) (hf : ¬ s.DuplicateFeed id c)
    (hc : ∀ x, Table.at? s.circuits id = some x → x.transition.phase.inTransfer = true → ¬ x.config.Rewires c) :
    configureCircuit body s =
      .done ((Table.at? s.circuits id).elim (s.newCircuit id c) fun x => s.changeCircuit id x.config c) := by
  rw [configureCircuit_of_decoded hs hd, State.inOrder_cons, if_neg (State.unknownZone_iff.not.2 hz), State.inOrder_cons,
    if_neg (State.duplicateFeed_iff.not.2 hf), State.inOrder_cons, if_neg, State.inOrder_nil]
  rw [Option.any_eq_true]
  rintro ⟨x, hx, h⟩
  obtain ⟨ht, hr⟩ := Bool.and_eq_true_iff.1 h
  exact hc x hx ht (CircuitConfig.rewires_iff.1 hr)

/-- Settles O24: each check that fails answers by its own equation of the request. -/
theorem configureCircuitChecks : Obligations.ConfigureCircuitChecks := by
  intro s tag body take hb refused
  have refuses {r : Result} (hw : configureCircuit body (s.taken 0x10 tag body) = .refuse r (s.taken 0x10 tag body)) :
      refused r := congrArg Host.Outcome.next (take.refused hb hw)
  refine ⟨fun saving => refuses (configureCircuit_busySaving (s := s.taken ..) saving body), fun idle =>
    ⟨fun hd => refuses (configureCircuit_badRequest idle hd),
      fun hd => refuses (configureCircuit_outOfRange idle hd), ?_⟩⟩
  intro id c hd unknownZone duplicate
  exact ⟨fun hz => refuses (configureCircuit_noSuch idle hd hz),
    fun hz hf => refuses (configureCircuit_duplicate idle hd hz hf), fun hz hf x hx hp hc =>
      refuses (configureCircuit_notNow idle hd hz hf hx (CircuitPhase.inTransfer_iff.2 hp) hc)⟩

end Sys2Proof.Machine
end

section
/-! SUPPORT. What ConfigureCircuit leaves of a circuit, new or configured (R3, R31, R41, R146). -/

namespace Sys2Proof.Machine

/-! ## Handovers of a circuit on its house feed that is in no transfer -/

theorem Transition.handover_level (c : CircuitConfig) (target : Nat) (egress : Bool) (tenths : Nat) (t : Transition) :
    (t.handover c target egress tenths).level = t.level := by
  unfold Transition.handover
  cases t.phase <;> dsimp only <;> first | rfl | (split <;> rfl)

theorem Transition.handover_feed (c : CircuitConfig) (target : Nat) (egress : Bool) (tenths : Nat) (t : Transition) :
    (t.handover c target egress tenths).feed = t.feed := by
  unfold Transition.handover
  cases t.phase <;> dsimp only <;> first | rfl | (split <;> rfl)

/-- A handover begins no transfer (R27). -/
theorem Transition.handover_settled (c : CircuitConfig) (target : Nat) (egress : Bool) (tenths : Nat) {t : Transition}
    (h : t.phase.inTransfer = false) : (t.handover c target egress tenths).phase.inTransfer = false := by
  unfold Transition.handover
  cases hp : t.phase with
  | steady => dsimp only; split <;> rfl
  | fading => dsimp only; split <;> rfl
  | _ => simp [hp, CircuitPhase.inTransfer] at h

theorem Transition.beginTransfer_eq (c : CircuitConfig) (t : Transition) : t.beginTransfer c =
    { t with
      phase := .downslope, origin := t.level, fadeEnd := 0, stepCount := 0, stepTotal := max 1 (5 * c.downslope),
      pendingTransfer := none, output := outputLevel c t } := rfl

/-- A transfer that begins from the drive level 0 (R32). -/
theorem Transition.beginTransfer_of_dark (c : CircuitConfig) {t : Transition} (h : t.level = 0) : t.beginTransfer c =
    { t with
      phase := .downslope, origin := 0, fadeEnd := 0, stepCount := 0, stepTotal := max 1 (5 * c.downslope),
      pendingTransfer := none, output := outputLevel c t } := by rw [Transition.beginTransfer_eq, h]

theorem Transition.need_level (c : CircuitConfig) (ready : Bool) (dest : Feed) (t : Transition) :
    (t.need c ready dest).level = t.level := by cases ready <;> rfl

theorem Transition.need_feed (c : CircuitConfig) (ready : Bool) (dest : Feed) (t : Transition) :
    (t.need c ready dest).feed = t.feed := by cases ready <;> rfl

theorem CircuitPhase.mayTransfer_of_settled {p : CircuitPhase} (h : p.inTransfer = false) : p.mayTransfer = true := by
  cases p <;> simp_all [CircuitPhase.inTransfer, CircuitPhase.mayTransfer]

/-- A circuit on its house feed and in no transfer. -/
def Circuit.Settled (x : Circuit) : Prop := x.transition.feed = .house ∧ x.transition.phase.inTransfer = false

theorem Circuit.Settled.resolve {x : Circuit} (h : x.Settled) (master : Option Nat) (tenths : Nat) :
    (x.resolve master tenths).Settled :=
  ⟨(Transition.handover_feed ..).trans h.1, Transition.handover_settled _ _ _ _ h.2⟩

/-- A placement leaves a circuit, or it gives it a list, resolves it and sets its host-displaced flag. -/
theorem Circuit.placed_cases (mode : HouseMode) (master : Option Nat) (k : Contribution) (x : Circuit) :
    x.placed mode master k = x ∨ ∃ claims flag, x.placed mode master k =
      { Circuit.resolve master k.arrival { x with claims := claims } with
        resolved := { (Circuit.resolve master k.arrival { x with claims := claims }).resolved with hostDisplaced := flag } } := by
  unfold Circuit.placed
  split
  · exact .inl rfl
  · exact .inr ⟨_, _, rfl⟩

/-- A removal leaves a circuit, or it gives it a list and resolves it. -/
theorem Circuit.removed_cases (master : Option Nat) (o : Origin) (x : Circuit) :
    x.removed master o = x ∨
      ∃ claims tenths, x.removed master o = Circuit.resolve master tenths { x with claims := claims } := by
  unfold Circuit.removed
  split
  · exact .inl rfl
  · exact .inr ⟨_, _, rfl⟩

theorem Circuit.placed_config (mode : HouseMode) (master : Option Nat) (k : Contribution) (x : Circuit) :
    (x.placed mode master k).config = x.config := by
  rcases x.placed_cases mode master k with e | ⟨_, _, e⟩ <;> rw [e]
  rfl

theorem Circuit.removed_config (master : Option Nat) (o : Origin) (x : Circuit) :
    (x.removed master o).config = x.config := by
  rcases x.removed_cases master o with e | ⟨_, _, e⟩ <;> rw [e]
  rfl

theorem Circuit.Settled.placed {x : Circuit} (h : x.Settled) (mode : HouseMode) (master : Option Nat) (k : Contribution) :
    (x.placed mode master k).Settled := by
  rcases x.placed_cases mode master k with e | ⟨claims, _, e⟩ <;> rw [e]
  · exact h
  · exact Circuit.Settled.resolve (x := { x with claims := claims }) h master k.arrival

theorem Circuit.Settled.removed {x : Circuit} (h : x.Settled) (master : Option Nat) (o : Origin) :
    (x.removed master o).Settled := by
  rcases x.removed_cases master o with e | ⟨claims, tenths, e⟩ <;> rw [e]
  · exact h
  · exact Circuit.Settled.resolve (x := { x with claims := claims }) h master tenths

/-! ## States that differ in one circuit -/

/-- Nothing differs but one circuit, whose record is the one given. -/
def State.CircuitSet (s t : State) (id : Nat) (y : Circuit) : Prop :=
  t = { s with circuits := t.circuits } ∧ (∀ i, i ≠ id → Table.at? t.circuits i = Table.at? s.circuits i) ∧
    Table.at? t.circuits id = some y

namespace State.CircuitSet

variable {s t : State} {id : Nat} {y : Circuit}

theorem masterOf (h : s.CircuitSet t id y) (c : CircuitConfig) : t.masterOf c = s.masterOf c := by rw [h.1]; rfl

theorem requiredFeed (h : s.CircuitSet t id y) : t.requiredFeed = s.requiredFeed := by rw [h.1]

theorem transferReady (h : s.CircuitSet t id y) : t.transferReady = s.transferReady := by rw [h.1]; rfl

theorem mode (h : s.CircuitSet t id y) : t.mode = s.mode := by rw [h.1]

theorem offered (h : s.CircuitSet t id y) : t.offered = s.offered := by rw [h.1]

theorem self (h : Table.at? s.circuits id = some y) : s.CircuitSet s id y := ⟨rfl, fun _ _ => rfl, h⟩

theorem put (s : State) (id : Nat) (y : Circuit) :
    s.CircuitSet (s.withCircuits (Table.put s.circuits id y)) id y :=
  ⟨rfl, fun i hi => by simp [Table.at?_put, hi], by simp⟩

theorem onCircuit (h : s.CircuitSet t id y) (f : Circuit → Circuit) : s.CircuitSet (t.onCircuit id f) id (f y) := by
  obtain ⟨frame, others, here⟩ := h
  refine ⟨by rw [State.onCircuit, frame]; rfl, fun i hi => ?_, by simp [here]⟩
  simp [Table.at?_adjust, hi, others i hi]

theorem resolve (h : s.CircuitSet t id y) (tenths : Nat) :
    s.CircuitSet (t.resolve id tenths) id (y.resolve (s.masterOf y.config) tenths) :=
  h.masterOf y.config ▸ h.onCircuit _

theorem withClaims (h : s.CircuitSet t id y) (l : List Contribution) (tenths : Nat) :
    s.CircuitSet (t.withClaims id l tenths) id (Circuit.resolve (s.masterOf y.config) tenths { y with claims := l }) :=
  (h.onCircuit _).resolve tenths

end State.CircuitSet

/-! ## After the handover -/

/-- The need of a circuit that has just become TRANSFER, on its house feed (R31, R41). -/
def State.judgeTransfer (s : State) (c : CircuitConfig) (t : Transition) : Transition :=
  if s.requiredFeed = .house then t else t.need c (s.transferReady c .stage) .stage

theorem State.CircuitSet.afterConfigure_became {s t : State} {id : Nat} {y : Circuit} (h : s.CircuitSet t id y)
    (hk : y.config.kind = .transfer) (hs : y.Settled) :
    s.CircuitSet (t.afterConfigure id true) id { y with transition := s.judgeTransfer y.config y.transition } := by
  have judged : (if y.config.kind = .transfer ∧ t.requiredFeed ≠ y.transition.feed ∧ y.transition.phase.mayTransfer = true
      then y.transition.need y.config (t.transferReady y.config t.requiredFeed) t.requiredFeed else y.transition) =
      s.judgeTransfer y.config y.transition := by
    rw [h.requiredFeed, h.transferReady, hs.1]
    cases hr : s.requiredFeed <;>
      simp [State.judgeTransfer, hr, hk, CircuitPhase.mayTransfer_of_settled hs.2]
  exact judged ▸ h.onCircuit _

theorem State.CircuitSet.afterConfigure_stays {s t : State} {id : Nat} {y : Circuit} (h : s.CircuitSet t id y) :
    s.CircuitSet (t.afterConfigure id false) id (y.beginPending s.transferReady) :=
  h.transferReady ▸ h.onCircuit _

@[simp] theorem State.withExchange_afterConfigure (s : State) (a : List Byte) (h : HostSlot) (f : Option Firing)
    (id : Nat) (became : Bool) :
    (s.withExchange a h f).afterConfigure id became = (s.afterConfigure id became).withExchange a h f := by
  cases became <;> rfl

/-! ## A circuit configured anew -/

theorem State.place_egress_of_empty {s : State} {id : Nat} {x : Circuit} (h : Table.at? s.circuits id = some x)
    (hc : x.claims = []) : (s.place id egressClaim).1 = s.withClaims id [egressClaim] 0 := by
  have room : insertClaim egressClaim x.claims = ([egressClaim], .appended none) := by
    rw [hc]; exact insertClaim_of_room (by simp) (by simp)
  rw [State.place_of_appended h room]
  rfl

/-- A circuit just configured, before its need for a transfer is judged (R3, R146). -/
def State.newRecord (s : State) (c : CircuitConfig) : Circuit :=
  let first := Circuit.resolve (s.masterOf c) 0 (.atStart .house c)
  if c.egress && s.latch then Circuit.resolve (s.masterOf c) 0 { first with claims := [egressClaim] } else first

theorem State.newRecord_config (s : State) (c : CircuitConfig) : (s.newRecord c).config = c := by
  unfold State.newRecord; dsimp only; split <;> rfl

theorem Circuit.atStart_settled (c : CircuitConfig) : (Circuit.atStart .house c).Settled := by
  refine ⟨?_, rfl⟩
  simp [Circuit.atStart, Transition.fresh]

theorem State.newRecord_settled (s : State) (c : CircuitConfig) : (s.newRecord c).Settled := by
  have first := (Circuit.atStart_settled c).resolve (s.masterOf c) 0
  unfold State.newRecord
  dsimp only
  split
  · exact Circuit.Settled.resolve (x := { Circuit.resolve (s.masterOf c) 0 (.atStart .house c) with claims := [egressClaim] })
      first _ 0
  · exact first

theorem State.newRecord_level (s : State) (c : CircuitConfig) : (s.newRecord c).transition.level = 0 := by
  unfold State.newRecord
  dsimp only
  split <;> simp [Circuit.resolve, Transition.handover_level, Circuit.atStart, Transition.fresh]

theorem State.newCircuit_set (s : State) (id : Nat) (c : CircuitConfig) : s.CircuitSet (s.newCircuit id c) id
    { s.newRecord c with transition :=
      if c.kind = .transfer then s.judgeTransfer c (s.newRecord c).transition else (s.newRecord c).transition } := by
  have first := (State.CircuitSet.put s id (.atStart .house c)).resolve 0
  have placed : s.CircuitSet (if c.egress && s.latch then
      ((((s.withCircuits (Table.put s.circuits id (.atStart .house c))).resolve id 0).place id egressClaim).1)
      else (s.withCircuits (Table.put s.circuits id (.atStart .house c))).resolve id 0) id (s.newRecord c) := by
    unfold State.newRecord
    split
    · rw [State.place_egress_of_empty first.2.2 rfl]
      exact first.withClaims [egressClaim] 0
    · exact first
  have config := s.newRecord_config c
  have settled := s.newRecord_settled c
  unfold State.newCircuit
  generalize s.newRecord c = y at *
  subst config
  split
  · exact placed.afterConfigure_became ‹_› settled
  · exact placed

@[simp] theorem State.withExchange_newCircuit (s : State) (a : List Byte) (h : HostSlot) (f : Option Firing) (id : Nat)
    (c : CircuitConfig) : (s.withExchange a h f).newCircuit id c = (s.newCircuit id c).withExchange a h f := by
  simp [State.newCircuit]

theorem decodeCircuit_length {body : List Byte} {v : Nat × CircuitConfig} (h : decodeCircuit body = .ok v) :
    body.length = 23 := by
  unfold decodeCircuit at h
  split at h
  · rfl
  · cases h

/-- No circuit but this one uses a feed of the configuration, whose two feeds differ. -/
theorem State.not_duplicateFeed {s : State} {id : Nat} {c : CircuitConfig} (h : c.stage ≠ some c.house)
    (free : ∀ e ∈ s.circuits, e.1 ≠ id → ∀ ch, ch = c.house ∨ c.stage = some ch →
      e.2.config.house ≠ ch ∧ e.2.config.stage ≠ some ch) : ¬ s.DuplicateFeed id c := by
  rintro (hd | ⟨e, he, hi, ch, hc, hf⟩)
  · exact h hd
  · obtain ⟨house, stage⟩ := free e he hi ch hc
    exact hf.elim house stage

theorem State.not_unknownZone {s : State} {c : CircuitConfig}
    (h : ∀ z, c.zone = some z → ∃ x, Table.at? s.zones z = some x) : ¬ s.UnknownZone c := by
  rintro ⟨z, hz, hn⟩
  obtain ⟨x, hx⟩ := h z hz
  simp [hx] at hn

theorem State.CircuitSet.onlyClaims {s t : State} {id : Nat} {y : Circuit} (h : s.CircuitSet t id y) : s.OnlyClaims t :=
  .of_eq (b := s.bindings) (n := s.scenes) h.1

/-- Only claims differ, so the fields of the exchange are as they were. -/
theorem State.OnlyClaims.taken {s t : State} (h : s.OnlyClaims t) (code tag : Byte) (body : List Byte) :
    t.withExchange (List.replicate (3 + body.length) 0) (.working ⟨code, tag, body⟩) s.offered = t.taken code tag body := by
  have offered : t.offered = s.offered := by rw [h]
  rw [← offered]
  rfl

theorem State.judgeTransfer_level (s : State) (c : CircuitConfig) (t : Transition) :
    (s.judgeTransfer c t).level = t.level := by
  unfold State.judgeTransfer; split
  · rfl
  · exact t.need_level ..

theorem State.judgeTransfer_feed (s : State) (c : CircuitConfig) (t : Transition) :
    (s.judgeTransfer c t).feed = t.feed := by
  unfold State.judgeTransfer; split
  · rfl
  · exact t.need_feed ..

theorem State.judgeTransfer_of_house {s : State} (h : s.requiredFeed = .house) (c : CircuitConfig) (t : Transition) :
    s.judgeTransfer c t = t := if_pos h

theorem State.judgeTransfer_of_ready {s : State} {c : CircuitConfig} (h : s.requiredFeed = .stage)
    (hr : s.transferReady c .stage = true) (t : Transition) : s.judgeTransfer c t = t.beginTransfer c := by
  simp [State.judgeTransfer, h, Transition.need, hr]

theorem State.judgeTransfer_of_not_ready {s : State} {c : CircuitConfig} (h : s.requiredFeed = .stage)
    (hr : s.transferReady c .stage = false) (t : Transition) :
    s.judgeTransfer c t = { t with pendingTransfer := some .stage } := by
  simp [State.judgeTransfer, h, Transition.need, hr]

theorem State.transferReady_iff {s : State} {c : CircuitConfig} {f : Feed} :
    s.transferReady c f = true ↔ s.latchCopy = false ∧ s.feedOnline c f = true := by simp [State.transferReady]

theorem State.transferReady_eq_false {s : State} {c : CircuitConfig} {f : Feed} :
    s.transferReady c f = false ↔ ¬ (s.latchCopy = false ∧ s.feedOnline c f = true) := by
  rw [← State.transferReady_iff, Bool.not_eq_true]

/-- Settles O22: `newCircuit_set` gives the record up to its transfer, which the required feed judges. -/
theorem configureNewCircuit : Obligations.ConfigureNewCircuit := by
  intro s tag body id c take idle hd hx zone feeds free first y
  have set := s.newCircuit_set id c
  have work : configureCircuit body (s.taken 0x10 tag body) = .done ((s.newCircuit id c).taken 0x10 tag body) := by
    rw [configureCircuit_taken (s := s.taken ..) idle hd (State.not_unknownZone zone) (State.not_duplicateFeed feeds free)
      (by simp [State.taken, hx]), State.taken_eq_withExchange, State.withExchange_circuits, hx, Option.elim_none,
      State.withExchange_newCircuit, set.onlyClaims.taken]
  have level : y.transition.level = 0 := s.newRecord_level c
  have settled : y.Settled := s.newRecord_settled c
  refine ⟨s.newCircuit id c, _, congrArg Host.Outcome.next (take.done (by simp [decodeCircuit_length hd]) work), set.1,
    set.2.1, set.2.2, ?_, ?_, fun h => ?_, fun hk hr => ⟨fun clear online => ?_, fun h => ?_⟩⟩
  · split
    · exact (s.judgeTransfer_level ..).trans level
    · exact level
  · split
    · exact (s.judgeTransfer_feed ..).trans settled.1
    · exact settled.1
  · split
    · exact State.judgeTransfer_of_house (h.resolve_left (absurd ‹_›)) ..
    · rfl
  · rw [if_pos hk, State.judgeTransfer_of_ready hr (State.transferReady_iff.2 ⟨clear, online⟩)]
    exact Transition.beginTransfer_of_dark c level
  · rw [if_pos hk, State.judgeTransfer_of_not_ready hr]
    · rfl
    · rw [State.transferReady_eq_false]
      rintro ⟨clear, online⟩
      simp [clear, online] at h

end Sys2Proof.Machine
end

section
/-! SUPPORT. What ConfigureCircuit leaves of a configured circuit, in the order of R3 (R3, R41, R146). -/

namespace Sys2Proof.Machine

theorem Table.adjust_congr {α : Type} {t : Table α} {i : Nat} {f g : α → α} (h : ∀ x, (i, x) ∈ t → f x = g x) :
    Table.adjust t i f = Table.adjust t i g := by
  refine List.map_congr_left fun e he => ?_
  by_cases hi : e.1 = i
  · subst hi; simp [h e.2 he]
  · simp [hi]

/-- In a table in order a change of a record is a change of the one record read there. -/
theorem Table.adjust_const {α : Type} {t : Table α} (h : Table.InOrder t) {i : Nat} {x : α} (hx : Table.at? t i = some x)
    (f : α → α) : Table.adjust t i f = Table.adjust t i fun _ => f x :=
  Table.adjust_congr fun y hy => by
    rw [Table.at?_of_mem h hy] at hx
    rw [Option.some.inj hx]

/-- A configured circuit with a new configuration, before what the latch and the resolution make of it (R3, R12). -/
def Circuit.reconfigured (mode : HouseMode) (new : CircuitConfig) (x : Circuit) : Circuit :=
  ({ x with config := new, transition := x.transition.reconfigured x.config new } : Circuit).redorm mode

theorem Transition.reconfigured_eq (old new : CircuitConfig) (t : Transition) :
    t.reconfigured old new = if new.kind = .transfer ∧ old.kind = .transfer then t else
      { t with feed := .house, relay := if new.kind = .transfer then some .house else none, pendingTransfer := none } := by
  unfold Transition.reconfigured
  by_cases hn : new.kind = .transfer <;> by_cases ho : old.kind = .transfer <;> simp [hn, ho]

theorem Circuit.reconfigured_settled {mode : HouseMode} {new : CircuitConfig} {x : Circuit}
    (hk : x.config.kind ≠ .transfer) (hp : x.transition.phase.inTransfer = false) :
    (x.reconfigured mode new).Settled := by
  have e : (x.reconfigured mode new).transition = x.transition.reconfigured x.config new := rfl
  rw [Circuit.Settled, e, Transition.reconfigured_eq, if_neg fun h => hk h.2]
  exact ⟨rfl, hp⟩

/-- The EGRESS claim placed or removed as the flag comes or goes while the latch is set (R3, R146). -/
def State.judgeEgress (s : State) (id : Nat) (old new : CircuitConfig) : State :=
  if s.latch && new.egress && !old.egress then (s.place id egressClaim).1
  else if s.latch && old.egress && !new.egress then s.remove false .egress id
  else s

theorem State.changeCircuit_eq (s : State) (id : Nat) (old new : CircuitConfig) : s.changeCircuit id old new =
    let judged := (s.onCircuit id (Circuit.reconfigured s.mode new)).judgeEgress id old new
    if new.kind = .transfer then (judged.resolve id 0).afterConfigure id (old.kind != .transfer)
    else judged.resolve id 0 := rfl

section
variable (s : State) (id : Nat) (old new : CircuitConfig)

theorem State.judgeEgress_onlyClaims : s.OnlyClaims (s.judgeEgress id old new) := by
  unfold State.judgeEgress
  split
  · exact (State.OnlyClaims.refl s).place ..
  · split
    · exact (State.OnlyClaims.refl s).remove ..
    · exact .refl s

theorem State.judgeEgress_at?_ne {i : Nat} (h : i ≠ id) :
    Table.at? (s.judgeEgress id old new).circuits i = Table.at? s.circuits i := by
  unfold State.judgeEgress
  split
  · exact s.place_at?_ne _ h
  · split
    · exact s.remove_at?_ne _ _ h
    · rfl

theorem State.judgeEgress_at?_self {u : Circuit} (h : Table.at? s.circuits id = some u) :
    ∃ v, Table.at? (s.judgeEgress id old new).circuits id = some v ∧ v.config = u.config ∧
      (u.Settled → v.Settled) := by
  unfold State.judgeEgress
  split
  · exact ⟨_, by simp [State.place_at?, h]; rfl, u.placed_config .., fun hu => hu.placed ..⟩
  · split
    · exact ⟨_, by simp [State.remove_at?, h]; rfl, u.removed_config .., fun hu => hu.removed ..⟩
    · exact ⟨u, h, rfl, fun hu => hu⟩

theorem State.judgeEgress_of_same (h : s.latch = false ∨ new.egress = old.egress) : s.judgeEgress id old new = s := by
  unfold State.judgeEgress
  rcases h with h | h
  · simp [h]
  · cases ho : old.egress <;> simp [h, ho]

@[simp] theorem State.withExchange_judgeEgress (a : List Byte) (h : HostSlot) (f : Option Firing) :
    (s.withExchange a h f).judgeEgress id old new = (s.judgeEgress id old new).withExchange a h f := by
  simp [State.judgeEgress]

@[simp] theorem State.withExchange_changeCircuit (a : List Byte) (h : HostSlot) (f : Option Firing) :
    (s.withExchange a h f).changeCircuit id old new = (s.changeCircuit id old new).withExchange a h f := by
  simp [State.changeCircuit_eq]

end

theorem Circuit.beginPending_of_ready {x : Circuit} {dest : Feed} {test : CircuitConfig → Feed → Bool}
    (hd : x.transition.pendingTransfer = some dest) (hp : x.transition.phase.mayTransfer = true)
    (ht : test x.config dest = true) :
    x.beginPending test = { x with transition := x.transition.beginTransfer x.config } := by
  simp [Circuit.beginPending, hd, hp, ht]

theorem Circuit.beginPending_of_not_ready {x : Circuit} {test : CircuitConfig → Feed → Bool}
    (h : ∀ dest, x.transition.pendingTransfer = some dest →
      x.transition.phase.mayTransfer = false ∨ test x.config dest = false) : x.beginPending test = x := by
  cases hd : x.transition.pendingTransfer with
  | none => simp [Circuit.beginPending, hd]
  | some dest => rcases h dest hd with h | h <;> simp [Circuit.beginPending, hd, h]

theorem Circuit.beginPending_eq (test : CircuitConfig → Feed → Bool) (x : Circuit) :
    x.beginPending test = { x with transition := (x.beginPending test).transition } := by
  unfold Circuit.beginPending
  split
  · split <;> rfl
  · rfl

/-- The transition fields of a circuit configured again and resolved, once a transfer has been judged (R31, R41). -/
def State.afterChange (s : State) (old : CircuitConfig) (r : Circuit) : Transition :=
  if r.config.kind = .transfer then
    if old.kind = .transfer then (r.beginPending s.transferReady).transition else s.judgeTransfer r.config r.transition
  else r.transition

section
variable {s : State} {old : CircuitConfig} {r : Circuit}

theorem State.afterChange_of_other (h : r.config.kind ≠ .transfer) : s.afterChange old r = r.transition := if_neg h

theorem State.afterChange_of_ready (hn : r.config.kind = .transfer) (ho : old.kind = .transfer) {dest : Feed}
    (hd : r.transition.pendingTransfer = some dest) (hp : r.transition.phase.mayTransfer = true)
    (ht : s.transferReady r.config dest = true) : s.afterChange old r = r.transition.beginTransfer r.config := by
  simp [State.afterChange, hn, ho, Circuit.beginPending_of_ready hd hp ht]

theorem State.afterChange_of_not_ready (hn : r.config.kind = .transfer) (ho : old.kind = .transfer)
    (h : ∀ dest, r.transition.pendingTransfer = some dest →
      r.transition.phase.mayTransfer = false ∨ s.transferReady r.config dest = false) :
    s.afterChange old r = r.transition := by
  simp [State.afterChange, hn, ho, Circuit.beginPending_of_not_ready h]

theorem State.afterChange_of_became (hn : r.config.kind = .transfer) (ho : old.kind ≠ .transfer) :
    s.afterChange old r = s.judgeTransfer r.config r.transition := by simp [State.afterChange, hn, ho]

end

theorem State.CircuitSet.afterChange {s t : State} {id : Nat} {r : Circuit} (h : s.CircuitSet t id r) (old : CircuitConfig)
    (hs : old.kind ≠ .transfer → r.config.kind = .transfer → r.Settled) :
    s.CircuitSet (if r.config.kind = .transfer then t.afterConfigure id (old.kind != .transfer) else t) id
      { r with transition := s.afterChange old r } := by
  unfold State.afterChange
  by_cases hn : r.config.kind = .transfer
  · by_cases ho : old.kind = .transfer
    · simp only [hn, ho, if_true, bne_self_eq_false]
      exact r.beginPending_eq _ ▸ h.afterConfigure_stays
    · simp only [hn, ho, if_true, if_false, bne_iff_ne.2 ho]
      exact h.afterConfigure_became hn (hs ho hn)
  · simpa only [hn, if_false] using h

/-- The Transition Unit's judgement looks at nothing a claim touches. -/
theorem State.OnlyClaims.afterChange {s t : State} (h : s.OnlyClaims t) (old : CircuitConfig) (r : Circuit) :
    t.afterChange old r = s.afterChange old r := by rw [h]; rfl

/-- ConfigureCircuit of a configured circuit leaves it resolved by its new configuration, with its transfer judged, and
every other circuit as the latch's judgement left it (R3). -/
theorem State.changeCircuit_set {s : State} {id : Nat} {c : CircuitConfig} {x : Circuit}
    (hx : Table.at? s.circuits id = some x) (kind : x.transition.phase.inTransfer = true → c.kind = x.config.kind) :
    let judged := (s.onCircuit id (Circuit.reconfigured s.mode c)).judgeEgress id x.config c
    ∃ v, Table.at? judged.circuits id = some v ∧ v.config = c ∧
      judged.CircuitSet (s.changeCircuit id x.config c) id { v.resolve (s.masterOf c) 0 with
        transition := s.afterChange x.config (v.resolve (s.masterOf c) 0) } := by
  intro judged
  have only : s.OnlyClaims judged :=
    ((State.OnlyClaims.refl s).onCircuit id (Circuit.reconfigured s.mode c)).trans (State.judgeEgress_onlyClaims ..)
  obtain ⟨v, hv, config, settled⟩ := (s.onCircuit id (Circuit.reconfigured s.mode c)).judgeEgress_at?_self id x.config c
    (u := x.reconfigured s.mode c) (by simp [hx])
  obtain rfl : v.config = c := config
  refine ⟨v, hv, rfl, ?_⟩
  have resolved := (State.CircuitSet.self hv).resolve 0
  rw [only.masterOf] at resolved
  have changed := resolved.afterChange x.config fun other transfer => by
    refine (settled (Circuit.reconfigured_settled other (Bool.eq_false_iff.2 fun h => other ?_))).resolve ..
    rw [← kind h]
    exact transfer
  rw [only.afterChange] at changed
  exact changed

/-- Settles O23: the claims are kept by the stored record, and `changeCircuit_set` gives what the latch, the resolution and
the transfer make of it. -/
theorem reconfigureKeepsTheClaims : Obligations.ReconfigureKeepsTheClaims := by
  intro s tag body id c x take idle ord hd hx zone feeds free rewire stays u stored judged
  have hu : u = x.reconfigured s.mode c := by
    simp only [u, stays, Circuit.reconfigured, Transition.reconfigured_eq]; rfl
  have hstored : s.onCircuit id (Circuit.reconfigured s.mode c) = stored :=
    congrArg s.withCircuits (hu ▸ Table.adjust_const ord.circuits hx _)
  have set := s.changeCircuit_set (c := c) hx fun h => (rewire h).1
  rw [hstored] at set
  obtain ⟨v, hv, config, frame, others, here⟩ : ∃ v, Table.at? judged.circuits id = some v ∧ v.config = c ∧
    judged.CircuitSet _ id _ := set
  let r := v.resolve (s.masterOf c) 0
  have hr : r.config = c := config
  have only : s.OnlyClaims (s.changeCircuit id x.config c) :=
    (((State.OnlyClaims.refl s).withCircuits _).trans (stored.judgeEgress_onlyClaims id x.config c)).trans
      (.of_eq (b := judged.bindings) (n := judged.scenes) frame)
  have rewires : x.transition.phase.inTransfer = true → ¬ x.config.Rewires c := by
    rintro ht (h | h | h)
    · exact h (rewire ht).1
    · exact h (rewire ht).2.1
    · exact h (rewire ht).2.2
  have work : configureCircuit body (s.taken 0x10 tag body) =
      .done ((s.changeCircuit id x.config c).taken 0x10 tag body) := by
    rw [configureCircuit_taken (s := s.taken ..) idle hd (State.not_unknownZone zone)
        (State.not_duplicateFeed feeds free) fun y hy => Option.some.inj (hx.symm.trans hy) ▸ rewires,
      State.taken_eq_withExchange, State.withExchange_circuits, hx, Option.elim_some, State.withExchange_changeCircuit,
      only.taken]
  refine ⟨s.changeCircuit id x.config c, v, s.afterChange x.config r,
    congrArg Host.Outcome.next (take.done (by simp [decodeCircuit_length hd]) work), frame, fun i hi => ?_, hv,
    fun same => ?_, here, fun hk => ?_, fun ⟨hn, ho⟩ => ⟨fun dest hd hp ht => ?_, fun h => ?_⟩, fun hn ho =>
    ⟨fun hf => ?_, fun hf ht => ?_, fun hf ht => ?_⟩⟩
  · rw [others i hi]
    exact (stored.judgeEgress_at?_ne id x.config c hi).trans (Table.at?_adjust_ne s.circuits (fun _ => u) hi)
  · have kept : judged = stored := stored.judgeEgress_of_same id x.config c same
    refine ⟨?_, kept⟩
    rw [kept] at hv
    simpa [stored, hx, eq_comm] using hv
  · exact State.afterChange_of_other (hr.symm ▸ hk)
  · rw [State.afterChange_of_ready (hr.symm ▸ hn) ho hd hp (State.transferReady_iff.2 (hr.symm ▸ ht)), hr]
    rfl
  · refine State.afterChange_of_not_ready (hr.symm ▸ hn) ho fun dest hd => (h dest hd).imp_right fun ht => ?_
    exact State.transferReady_eq_false.2 (hr.symm ▸ ht)
  · rw [State.afterChange_of_became (hr.symm ▸ hn) ho, State.judgeTransfer_of_house hf]
  · have ready : s.transferReady r.config .stage = true := State.transferReady_iff.2 (hr.symm ▸ ht)
    rw [State.afterChange_of_became (hr.symm ▸ hn) ho, State.judgeTransfer_of_ready hf ready, hr]
    rfl
  · have waits : s.transferReady r.config .stage = false := State.transferReady_eq_false.2 (hr.symm ▸ ht)
    rw [State.afterChange_of_became (hr.symm ▸ hn) ho, State.judgeTransfer_of_not_ready hf waits]

end Sys2Proof.Machine
end

section
/-! SUPPORT. UnconfigureCircuit, and what the owners of the dropped claims are told (R4, R10, R11). -/

namespace Sys2Proof.Machine

/-- An operation that takes no notice of the exchange does the same on the state that a request works on. -/
theorem State.taken_comm {s : State} {f : State → State} (h : (f s).offered = s.offered)
    (hf : ∀ a k o, f (s.withExchange a k o) = (f s).withExchange a k o) (code tag : Byte) (body : List Byte) :
    f (s.taken code tag body) = (f s).taken code tag body := by
  rw [State.taken_eq_withExchange, State.taken_eq_withExchange, hf, h]

theorem State.OnlyClaims.taken_comm {s : State} {f : State → State} (h : s.OnlyClaims (f s))
    (hf : ∀ a k o, f (s.withExchange a k o) = (f s).withExchange a k o) (code tag : Byte) (body : List Byte) :
    f (s.taken code tag body) = (f s).taken code tag body := State.taken_comm (by rw [h]) hf code tag body

/-! ## The owners of a dropped circuit's claims -/

/-- Owners told, one after another, that another party took their claim. -/
def State.departAll (s : State) (origins : List Origin) : State := origins.foldl (fun s o => s.departed true o) s

@[simp] theorem State.departAll_circuits (s : State) (origins : List Origin) :
    (s.departAll origins).circuits = s.circuits := by
  induction origins generalizing s with
  | nil => rfl
  | cons o origins ih => exact (ih _).trans (s.departed_circuits true o)

theorem State.departAll_bindings_at? (s : State) (origins : List Origin) (b : Nat) :
    Table.at? (s.departAll origins).bindings b = (Table.at? s.bindings b).map fun x =>
      if .binding b ∈ origins then { x with captured := false } else x := by
  induction origins generalizing s with
  | nil => simp [State.departAll]
  | cons o origins ih =>
    rw [State.departAll, List.foldl_cons, ← State.departAll, ih, State.departed_bindings_at?, Option.map_map]
    congr 1
    funext x
    by_cases ho : o = .binding b <;> by_cases hm : .binding b ∈ origins <;> simp [ho, hm, @eq_comm _ (Origin.binding b)]

theorem State.departAll_scenes_at? (s : State) (origins : List Origin) (n : Nat) :
    Table.at? (s.departAll origins).scenes n = (Table.at? s.scenes n).map fun x =>
      if .scene n ∈ origins ∧ s.holds (.scene n) = 0 then { x with liveTier := none, recaller := none } else x := by
  induction origins generalizing s with
  | nil => simp [State.departAll]
  | cons o origins ih =>
    rw [State.departAll, List.foldl_cons, ← State.departAll, ih, State.departed_scenes_at?, Option.map_map,
      State.holds_congr (s.departed_circuits true o)]
    congr 1
    funext x
    by_cases ho : o = .scene n <;> by_cases hm : .scene n ∈ origins <;> by_cases held : s.holds (.scene n) = 0 <;>
      simp [ho, hm, held, @eq_comm _ (Origin.scene n)]

theorem State.departAll_onlyClaims (s : State) (origins : List Origin) : s.OnlyClaims (s.departAll origins) :=
  (State.OnlyClaims.refl s).foldl _ fun _ o h => h.departed true o

theorem State.dropCircuit_of_configured {s : State} {id : Nat} {x : Circuit} (h : Table.at? s.circuits id = some x) :
    s.dropCircuit id = (s.withCircuits (Table.remove s.circuits id)).departAll (x.claims.map (·.origin)) := by
  simp [State.dropCircuit, State.departAll, h]

@[simp] theorem State.withExchange_dropCircuit (s : State) (a : List Byte) (h : HostSlot) (f : Option Firing) (id : Nat) :
    (s.withExchange a h f).dropCircuit id = (s.dropCircuit id).withExchange a h f :=
  State.withExchange_foldl (s.withCircuits (Table.remove s.circuits id)) a h f (g := fun s o => s.departed true o) (by simp) _

theorem State.dropCircuit_onlyClaims (s : State) (id : Nat) : s.OnlyClaims (s.dropCircuit id) :=
  ((State.OnlyClaims.refl s).withCircuits _).trans (State.departAll_onlyClaims ..)

/-! ## UnconfigureCircuit -/

/-- A binding or a scene names the circuit (R4). -/
def State.CircuitNamed (s : State) (id : Nat) : Prop :=
  (∃ e ∈ s.bindings, e.2.record.action.area? = some (.circuit id)) ∨
    ∃ e ∈ s.scenes, ∃ x ∈ e.2.definition.entries, x.1 = id

theorem State.areaNamed_iff {s : State} {a : Area} :
    s.areaNamed a = true ↔ ∃ e ∈ s.bindings, e.2.record.action.area? = some a := by
  simp only [State.areaNamed, List.any_eq_true, beq_iff_eq]

theorem State.circuitNamed_iff {s : State} {id : Nat} :
    (s.areaNamed (.circuit id) || s.scenes.any fun e => e.2.definition.entries.any fun x => x.1 == id) = true ↔
      s.CircuitNamed id := by
  simp only [Bool.or_eq_true, State.areaNamed_iff, List.any_eq_true, beq_iff_eq, State.CircuitNamed]

/-- The checks of UnconfigureCircuit, in order (R4). -/
theorem unconfigureCircuit_eq (h l : Byte) (s : State) : unconfigureCircuit [h, l] s =
    s.inOrder
      [(s.saving.isSome, .busySaving), (!within 1 256 (be16 h l), .outOfRange),
        ((Table.at? s.circuits (be16 h l)).isNone, .noSuch),
        (s.areaNamed (.circuit (be16 h l)) || s.scenes.any fun e => e.2.definition.entries.any fun x => x.1 == be16 h l,
          .inUse),
        ((Table.at? s.circuits (be16 h l)).any fun x => x.transition.phase.inTransfer, .notNow)]
      (.done (s.dropCircuit (be16 h l))) := rfl

theorem unconfigureCircuit_busySaving {s : State} (hs : s.saving.isSome = true) (h l : Byte) :
    unconfigureCircuit [h, l] s = .refuse .busySaving s := by
  rw [unconfigureCircuit_eq, hs, State.inOrder_cons_true]

section
variable {s : State} {h l : Byte} (hs : s.saving = none)
include hs

theorem unconfigureCircuit_outOfRange (hi : be16 h l < 1 ∨ 256 < be16 h l) :
    unconfigureCircuit [h, l] s = .refuse .outOfRange s := by
  rw [unconfigureCircuit_eq, hs, Option.isSome_none, State.inOrder_cons_false, within_eq_false.2 hi, Bool.not_false,
    State.inOrder_cons_true]

/-- The checks left where no save runs and the identifier is in range. -/
theorem unconfigureCircuit_of_inRange (h1 : 1 ≤ be16 h l) (h2 : be16 h l ≤ 256) : unconfigureCircuit [h, l] s =
    s.inOrder
      [((Table.at? s.circuits (be16 h l)).isNone, .noSuch),
        (s.areaNamed (.circuit (be16 h l)) || s.scenes.any fun e => e.2.definition.entries.any fun x => x.1 == be16 h l,
          .inUse),
        ((Table.at? s.circuits (be16 h l)).any fun x => x.transition.phase.inTransfer, .notNow)]
      (.done (s.dropCircuit (be16 h l))) := by
  rw [unconfigureCircuit_eq, hs, Option.isSome_none, State.inOrder_cons_false, within_iff.2 ⟨h1, h2⟩, Bool.not_true,
    State.inOrder_cons_false]

variable (h1 : 1 ≤ be16 h l) (h2 : be16 h l ≤ 256)
include h1 h2

theorem unconfigureCircuit_noSuch (hx : Table.at? s.circuits (be16 h l) = none) :
    unconfigureCircuit [h, l] s = .refuse .noSuch s := by
  rw [unconfigureCircuit_of_inRange hs h1 h2, hx, Option.isNone_none, State.inOrder_cons_true]

variable {x : Circuit} (hx : Table.at? s.circuits (be16 h l) = some x)
include hx

theorem unconfigureCircuit_inUse (hn : s.CircuitNamed (be16 h l)) :
    unconfigureCircuit [h, l] s = .refuse .inUse s := by
  rw [unconfigureCircuit_of_inRange hs h1 h2, hx, Option.isNone_some, State.inOrder_cons_false, State.inOrder_cons,
    if_pos (State.circuitNamed_iff.2 hn)]

theorem unconfigureCircuit_notNow (hn : ¬ s.CircuitNamed (be16 h l)) (ht : x.transition.phase.inTransfer = true) :
    unconfigureCircuit [h, l] s = .refuse .notNow s := by
  rw [unconfigureCircuit_of_inRange hs h1 h2, hx, Option.isNone_some, State.inOrder_cons_false, State.inOrder_cons,
    if_neg (State.circuitNamed_iff.not.2 hn), Option.any_some, ht, State.inOrder_cons_true]

theorem unconfigureCircuit_taken (hn : ¬ s.CircuitNamed (be16 h l)) (ht : x.transition.phase.inTransfer = false) :
    unconfigureCircuit [h, l] s = .done (s.dropCircuit (be16 h l)) := by
  rw [unconfigureCircuit_of_inRange hs h1 h2, hx, Option.isNone_some, State.inOrder_cons_false, State.inOrder_cons,
    if_neg (State.circuitNamed_iff.not.2 hn), Option.any_some, ht, State.inOrder_cons_false, State.inOrder_nil]

end

/-- Settles O25: the checks in order, and then the record dropped and each owner told. -/
theorem unconfigureCircuitChecksAndDrops : Obligations.UnconfigureCircuitChecksAndDrops := by
  intro s tag h l take id refused named
  have refuses {r : Result} (hw : unconfigureCircuit [h, l] (s.taken 0x11 tag [h, l]) = .refuse r (s.taken ..)) :
      refused r := congrArg Host.Outcome.next (take.refused (by simp) hw)
  refine ⟨fun saving => refuses (unconfigureCircuit_busySaving (s := s.taken ..) saving h l),
    fun idle hi => refuses (unconfigureCircuit_outOfRange idle hi),
    fun idle h1 h2 hx => refuses (unconfigureCircuit_noSuch idle h1 h2 hx), fun x idle h1 h2 hx =>
    ⟨fun hn => refuses (unconfigureCircuit_inUse idle h1 h2 hx hn),
      fun hn ht => refuses (unconfigureCircuit_notNow idle h1 h2 hx hn ht), fun hn ht => ?_⟩⟩
  have only := s.dropCircuit_onlyClaims id
  have work : unconfigureCircuit [h, l] (s.taken 0x11 tag [h, l]) = .done ((s.dropCircuit id).taken 0x11 tag [h, l]) :=
    (unconfigureCircuit_taken (s := s.taken ..) idle h1 h2 hx hn ht).trans
      (congrArg Work.done (only.taken_comm (f := fun s => s.dropCircuit id) (by simp) ..))
  have drop := State.dropCircuit_of_configured hx
  have circuits : (s.dropCircuit id).circuits = Table.remove s.circuits id := by rw [drop, State.departAll_circuits]; rfl
  refine ⟨s.dropCircuit id, congrArg Host.Outcome.next (take.done (by simp) work), only, fun i => ?_, ?_, fun b => ?_,
    fun n => ?_⟩
  · rw [circuits, Table.at?_remove]
  · exact State.circuitRecord_of_unconfigured (by rw [circuits, Table.at?_remove_self])
  · rw [drop, State.departAll_bindings_at?]
    simp only [List.mem_map, State.withCircuits_bindings]
  · rw [State.holds_congr (s := s.withCircuits (Table.remove s.circuits id)) circuits, drop, State.departAll_scenes_at?]
    simp only [List.mem_map, State.withCircuits_scenes]

end Sys2Proof.Machine
end

section
/-! SUPPORT. ReadCircuit, ReadZone and the host's levels (R16, R17, R23, R42). -/

namespace Sys2Proof.Machine

/-! ## Reads -/

@[simp] theorem bytes16_length (n : Nat) : (bytes16 n).length = 2 := rfl

@[simp] theorem Origin.bytes_length (o : Origin) : o.bytes.length = 3 := by cases o <;> rfl

@[simp] theorem recallerBytes_length (r : Option Recaller) : (recallerBytes r).length = 3 := by
  rcases r with _ | ⟨_⟩ | _ <;> rfl

@[simp] theorem heldByBytes_length (k : Option StationInput) : (heldByBytes k).length = 3 := by cases k <;> rfl

@[simp] theorem Contribution.bytes_length (k : Contribution) : k.bytes.length = 17 := by simp [Contribution.bytes]

@[simp] theorem CircuitConfig.bytes_length (c : CircuitConfig) : c.bytes.length = 21 := by simp [CircuitConfig.bytes]

@[simp] theorem Resolved.bytes_length (r : Resolved) : r.bytes.length = 6 := by simp [Resolved.bytes]

@[simp] theorem Transition.bytes_length (t : Transition) : t.bytes.length = 15 := by simp [Transition.bytes]

theorem length_flatMap_of_const {α β : Type} {f : α → List β} {n : Nat} (h : ∀ x, (f x).length = n) (l : List α) :
    (l.flatMap f).length = l.length * n := by simp [List.length_flatMap, h]

theorem Work.read_of_short {body : List Byte} (h : body.length ≤ 250) (s : State) :
    Work.read body s = .answered { result := .ok, body := body } s := by
  have within : body.length ≤ Config.bodyLimit := h
  simp only [Work.read, within, if_true]

/-- The answer on a circuit with a sound list fits its body (R6, R163). -/
theorem State.circuitBody_length {c : Circuit} (h : c.claims.length ≤ 8) (s : State) :
    (s.circuitBody c).length ≤ 250 := by
  simp only [State.circuitBody, List.length_append, List.length_cons, List.length_nil, CircuitConfig.bytes_length,
    length_flatMap_of_const Contribution.bytes_length, Resolved.bytes_length, Transition.bytes_length]
  omega

theorem State.rackOnline_iff {s : State} {r : Nat} :
    s.rackOnline r = true ↔ ∃ k, Table.at? s.racks r = some k ∧ k.state = .online := by
  cases h : Table.at? s.racks r <;> simp [State.rackOnline, h]

theorem State.feedOnline_iff {s : State} {c : CircuitConfig} {f : Feed} : s.feedOnline c f = true ↔
    ∃ ch r, c.channelOf f = some ch ∧ Table.at? s.racks ch.rack = some r ∧ r.state = .online := by
  cases h : c.channelOf f with
  | none => simp [State.feedOnline, h]
  | some ch => simp [State.feedOnline, h, State.rackOnline_iff]

theorem State.feedFaulted_iff {s : State} {c : CircuitConfig} {f : Feed} : s.feedFaulted c f = true ↔
    ∃ ch r, c.channelOf f = some ch ∧ Table.at? s.racks ch.rack = some r ∧ r.faults.getLsbD (ch.channel - 1) = true := by
  cases h : c.channelOf f with
  | none => simp [State.feedFaulted, h]
  | some ch => cases hr : Table.at? s.racks ch.rack <;> simp [State.feedFaulted, h, hr]

theorem readCircuit_outOfRange {h l : Byte} (hi : be16 h l < 1 ∨ 256 < be16 h l) (s : State) :
    readCircuit [h, l] s = .refuse .outOfRange s := by simp [readCircuit, within_eq_false.2 hi]

theorem readCircuit_noSuch {s : State} {h l : Byte} (h1 : 1 ≤ be16 h l) (h2 : be16 h l ≤ 256)
    (hx : Table.at? s.circuits (be16 h l) = none) : readCircuit [h, l] s = .refuse .noSuch s := by
  simp [readCircuit, within_iff.2 ⟨h1, h2⟩, hx]

theorem readCircuit_of_configured {s : State} {h l : Byte} {x : Circuit} (h1 : 1 ≤ be16 h l) (h2 : be16 h l ≤ 256)
    (hx : Table.at? s.circuits (be16 h l) = some x) : readCircuit [h, l] s = .read (s.circuitBody x) s := by
  simp [readCircuit, within_iff.2 ⟨h1, h2⟩, hx]

theorem readZone_outOfRange {z : Byte} (hi : z.toNat < 1 ∨ 32 < z.toNat) (s : State) :
    readZone [z] s = .refuse .outOfRange s := by simp [readZone, within_eq_false.2 hi]

theorem readZone_noSuch {s : State} {z : Byte} (h1 : 1 ≤ z.toNat) (h2 : z.toNat ≤ 32)
    (hx : Table.at? s.zones z.toNat = none) : readZone [z] s = .refuse .noSuch s := by
  simp [readZone, within_iff.2 ⟨h1, h2⟩, hx]

theorem readZone_of_configured {s : State} {z : Byte} {x : Zone} (h1 : 1 ≤ z.toNat) (h2 : z.toNat ≤ 32)
    (hx : Table.at? s.zones z.toNat = some x) : readZone [z] s =
      .read (bytes16 x.master ++ bytes16 x.masterFade ++ (s.members z.toNat).flatMap bytes16) s := by
  simp [readZone, within_iff.2 ⟨h1, h2⟩, hx]

theorem byte_eq_zero_iff {z : Byte} : z = 0 ↔ z.toNat < 1 := by
  rw [Nat.lt_one_iff, ← BitVec.toNat_inj]
  exact Iff.rfl

/-- Settles O26: each answer by its own equation of the read, whose body fits by `circuitBody_length`. -/
theorem readCircuitAndReadZoneReport : Obligations.ReadCircuitAndReadZoneReport := by
  intro s tag take
  have circuit {h l : Byte} {r : Reply} (hw : readCircuit [h, l] (s.taken 0x12 tag [h, l]) = .answered r (s.taken ..)) :
      exec (.readCircuit tag [h, l]) s = .next (s.answered 2 tag r.result r.clamped r.body) :=
    congrArg Host.Outcome.next (take.answered (by simp) hw)
  have zone {z : Byte} {r : Reply} (hw : readZone [z] (s.taken 0x17 tag [z]) = .answered r (s.taken ..)) :
      exec (.readZone tag [z]) s = .next (s.answered 1 tag r.result r.clamped r.body) :=
    congrArg Host.Outcome.next (take.answered (by simp) hw)
  refine ⟨fun h l => ⟨fun hi => circuit (readCircuit_outOfRange hi _), fun h1 h2 hx =>
    circuit (readCircuit_noSuch h1 h2 hx), fun x h1 h2 hx short => ?_⟩, fun z => ⟨fun hi => ?_, fun h1 h2 hx => ?_,
    fun x h1 h2 hx few => ?_⟩⟩
  · refine ⟨s.undriven x, s.feedFaulted x.config .house || s.feedFaulted x.config .stage, s.feedFaulted x.config .house,
      s.feedFaulted x.config .stage, circuit (r := { result := .ok, body := s.circuitBody x })
        ((readCircuit_of_configured (s := s.taken ..) h1 h2 hx).trans
          (Work.read_of_short (State.circuitBody_length short _) _)), ?_, ?_, ?_, rfl⟩
    · rw [State.undriven, Bool.not_eq_false', State.feedOnline_iff]
    · simp [State.feedFaulted_iff, CircuitConfig.channelOf]
    · simp [State.feedFaulted_iff, CircuitConfig.channelOf]
  · exact zone (readZone_outOfRange (hi.imp_left byte_eq_zero_iff.1) _)
  · exact zone (readZone_noSuch (Nat.not_lt.1 (byte_eq_zero_iff.not.1 h1)) h2 hx)
  · have members : ((s.taken 0x17 tag [z]).members z.toNat).length ≤ 123 := few
    refine zone (r := { result := .ok, body := _ }) ((readZone_of_configured (s := s.taken ..)
      (Nat.not_lt.1 (byte_eq_zero_iff.not.1 h1)) h2 hx).trans (Work.read_of_short ?_ _))
    simp only [List.length_append, bytes16_length, length_flatMap_of_const bytes16_length]
    omega

/-! ## The host's levels -/

theorem State.place_host_refused {s : State} {id : Nat} {k : Contribution} (hk : k.origin = .host)
    (h : (s.place id k).2 = .refused) : (s.place id k).1 = s := by
  have outcome := s.place_outcome id k
  generalize s.place id k = r at outcome h
  cases outcome with
  | refused => rw [hk]; rfl
  | unconfigured => rfl
  | taken x l v hv => rcases hv with rfl | rfl <;> cases h
  | displaced => cases h

theorem State.placeHost_of_refused {s : State} {id tier level fade : Nat}
    (h : (s.place id (hostClaim tier (min 1000 level) (min 6000 fade))).2 = .refused) :
    s.placeHost id tier level fade =
      .answered { result := .full, clamped := decide (1000 < level ∨ 6000 < fade) } s := by
  have same := State.place_host_refused rfl h
  unfold State.placeHost
  generalize s.place id (hostClaim tier (min 1000 level) (min 6000 fade)) = r at h same
  obtain ⟨t, v⟩ := r
  obtain rfl : t = s := same
  obtain rfl : v = .refused := h
  simp

theorem State.placeHost_of_taken {s : State} {id tier level fade : Nat}
    (h : (s.place id (hostClaim tier (min 1000 level) (min 6000 fade))).2 ≠ .refused) :
    s.placeHost id tier level fade =
      .answered { result := .ok, clamped := decide (1000 < level ∨ 6000 < fade) }
        ((s.place id (hostClaim tier (min 1000 level) (min 6000 fade))).1.clearHostDisplaced id) := by
  unfold State.placeHost
  generalize s.place id (hostClaim tier (min 1000 level) (min 6000 fade)) = r at h
  obtain ⟨t, v⟩ := r
  cases v <;> simp_all

section
variable {s : State} {ih il tier lh ll fh fl : Byte}

theorem setHostLevel_outOfRange (h : be16 ih il < 1 ∨ 256 < be16 ih il ∨ 2 < tier.toNat) :
    setHostLevel [ih, il, tier, lh, ll, fh, fl] s = .refuse .outOfRange s := by
  have check : (!within 1 256 (be16 ih il) || !within 0 2 tier.toNat) = true := by
    simp only [Bool.or_eq_true, Bool.not_eq_true', within_eq_false]
    omega
  rw [setHostLevel, State.inOrder_cons, if_pos check]

/-- The checks left where identifier and tier are in range. -/
theorem setHostLevel_of_inRange (h1 : 1 ≤ be16 ih il) (h2 : be16 ih il ≤ 256) (ht : tier.toNat ≤ 2) :
    setHostLevel [ih, il, tier, lh, ll, fh, fl] s =
      s.inOrder [((Table.at? s.circuits (be16 ih il)).isNone, .noSuch)]
        (s.placeHost (be16 ih il) tier.toNat (be16 lh ll) (be16 fh fl)) := by
  rw [setHostLevel, within_iff.2 ⟨h1, h2⟩, within_iff.2 ⟨Nat.zero_le _, ht⟩]
  rfl

theorem setHostLevel_noSuch (h1 : 1 ≤ be16 ih il) (h2 : be16 ih il ≤ 256) (ht : tier.toNat ≤ 2)
    (hx : Table.at? s.circuits (be16 ih il) = none) :
    setHostLevel [ih, il, tier, lh, ll, fh, fl] s = .refuse .noSuch s := by
  rw [setHostLevel_of_inRange h1 h2 ht, hx, Option.isNone_none, State.inOrder_cons_true]

theorem setHostLevel_of_configured {x : Circuit} (h1 : 1 ≤ be16 ih il) (h2 : be16 ih il ≤ 256) (ht : tier.toNat ≤ 2)
    (hx : Table.at? s.circuits (be16 ih il) = some x) :
    setHostLevel [ih, il, tier, lh, ll, fh, fl] s =
      s.placeHost (be16 ih il) tier.toNat (be16 lh ll) (be16 fh fl) := by
  rw [setHostLevel_of_inRange h1 h2 ht, hx, Option.isNone_some, State.inOrder_cons_false, State.inOrder_nil]

end

theorem releaseHostLevel_outOfRange {h l : Byte} (hi : be16 h l < 1 ∨ 256 < be16 h l) (s : State) :
    releaseHostLevel [h, l] s = .refuse .outOfRange s := by simp [releaseHostLevel, within_eq_false.2 hi]

section
variable {s : State} {h l : Byte} (h1 : 1 ≤ be16 h l) (h2 : be16 h l ≤ 256)
include h1 h2

theorem releaseHostLevel_noSuch (hx : Table.at? s.circuits (be16 h l) = none) :
    releaseHostLevel [h, l] s = .refuse .noSuch s := by simp [releaseHostLevel, within_iff.2 ⟨h1, h2⟩, hx]

theorem releaseHostLevel_of_absent {x : Circuit} (hx : Table.at? s.circuits (be16 h l) = some x)
    (ho : ∀ k ∈ x.claims, k.origin ≠ .host) :
    releaseHostLevel [h, l] s = .refuse .noSuch (s.clearHostDisplaced (be16 h l)) := by
  have absent : (x.claims.any fun k => k.origin == .host) = false := by simpa using ho
  simp only [releaseHostLevel, within_iff.2 ⟨h1, h2⟩, hx, absent]
  rfl

theorem releaseHostLevel_of_held {x : Circuit} (hx : Table.at? s.circuits (be16 h l) = some x)
    (ho : ∃ k ∈ x.claims, k.origin = .host) :
    releaseHostLevel [h, l] s = .done ((s.remove false .host (be16 h l)).clearHostDisplaced (be16 h l)) := by
  have held : (x.claims.any fun k => k.origin == .host) = true := by simpa using ho
  simp only [releaseHostLevel, within_iff.2 ⟨h1, h2⟩, hx, held]
  rfl

end

/-- A removal of the host's claim tells no owner. -/
theorem State.remove_host_frame (s : State) (byOther : Bool) (c : Nat) :
    s.remove byOther .host c = { s with circuits := (s.remove byOther .host c).circuits } := by
  have outcome := s.remove_outcome byOther .host c
  generalize s.remove byOther .host c = r at outcome
  cases outcome <;> rfl

@[simp] theorem State.withExchange_clearHostDisplaced (s : State) (a : List Byte) (h : HostSlot) (f : Option Firing)
    (id : Nat) : (s.withExchange a h f).clearHostDisplaced id = (s.clearHostDisplaced id).withExchange a h f := rfl

/-- Settles O27: each answer by its own equation of the request. -/
theorem hostLevelRequests : Obligations.HostLevelRequests := by
  refine ⟨fun s tag ih il tier lh ll fh fl take => ?_, fun s tag h l take => ?_⟩
  · intro id level fade clamped claim c
    have answers {t : State} {r : Reply} (hw : setHostLevel [ih, il, tier, lh, ll, fh, fl]
        (s.taken 0x13 tag [ih, il, tier, lh, ll, fh, fl]) = .answered r (t.taken ..)) :
        exec c s = .next (t.answered 7 tag r.result r.clamped r.body) :=
      congrArg Host.Outcome.next (take.answered (by simp) hw)
    have only : s.OnlyClaims ((s.place id claim).1.clearHostDisplaced id) :=
      ((State.OnlyClaims.refl s).place ..).onCircuit ..
    have verdict : ((s.taken 0x13 tag [ih, il, tier, lh, ll, fh, fl]).place id claim).2 = (s.place id claim).2 := by
      rw [State.taken_eq_withExchange, State.withExchange_place]
    refine ⟨fun hi => answers (setHostLevel_outOfRange hi), fun h1 h2 ht hx => answers (setHostLevel_noSuch h1 h2 ht hx),
      fun x h1 h2 ht hx => ⟨fun refused => ?_, fun taken => ?_⟩⟩
    · exact answers (r := { result := .full, clamped := clamped })
        ((setHostLevel_of_configured (s := s.taken ..) h1 h2 ht hx).trans
          (State.placeHost_of_refused (verdict.trans refused)))
    · exact answers (t := (s.place id claim).1.clearHostDisplaced id) (r := { result := .ok, clamped := clamped })
        ((setHostLevel_of_configured (s := s.taken ..) h1 h2 ht hx).trans
          ((State.placeHost_of_taken (verdict.trans_ne taken)).trans
            (congrArg (Work.answered _)
              (only.taken_comm (f := fun s => (s.place id claim).1.clearHostDisplaced id) (by simp) ..))))
  · intro id clear
    have answers {t : State} {r : Reply} (hw : releaseHostLevel [h, l] (s.taken 0x14 tag [h, l]) =
        .answered r (t.taken ..)) : exec (.releaseHostLevel tag [h, l]) s = .next (t.answered 2 tag r.result r.clamped r.body) :=
      congrArg Host.Outcome.next (take.answered (by simp) hw)
    have only : s.OnlyClaims ((s.remove false .host id).clearHostDisplaced id) :=
      ((State.OnlyClaims.refl s).remove ..).onCircuit ..
    have frame : (s.remove false .host id).clearHostDisplaced id =
        { s with circuits := ((s.remove false .host id).clearHostDisplaced id).circuits } := by
      rw [State.remove_host_frame]; rfl
    refine ⟨fun hi => answers (releaseHostLevel_outOfRange hi _), fun h1 h2 hx => answers (releaseHostLevel_noSuch h1 h2 hx),
      fun x h1 h2 hx => ⟨fun ho => ?_, fun older k newer hc hk ho => ?_⟩⟩
    · refine ⟨s.clearHostDisplaced id, answers (r := { result := .noSuch })
        (releaseHostLevel_of_absent (s := s.taken ..) h1 h2 hx ho), rfl, fun i => ?_⟩
      by_cases hi : i = id <;> simp [State.clearHostDisplaced, Table.at?_adjust, hi, hx, clear]
    · refine ⟨_, answers (r := { result := .ok })
        ((releaseHostLevel_of_held (s := s.taken ..) h1 h2 hx ⟨k, by simp [hc], hk⟩).trans
        (congrArg Work.done (only.taken_comm (f := fun s => (s.remove false .host id).clearHostDisplaced id) (by simp) ..))),
        frame, fun i => ?_⟩
      rw [State.clearHostDisplaced, State.onCircuit_circuits, Table.at?_adjust, State.remove_at?]
      by_cases hi : i = id
      · simp [hi, hx, Circuit.removed_of_split hc hk ho, clear]
      · simp [hi]

end Sys2Proof.Machine
end

section
/-! SUPPORT. Master changes, ConfigureZone and SetMaster (R18 to R22). -/

namespace Sys2Proof.Machine

/-! ## Master changes -/

/-- Circuits resolved one after another, each once (R22). -/
theorem State.foldl_resolve_at? (s : State) {ids : List Nat} (h : ids.Nodup) (tenths i : Nat) :
    Table.at? (ids.foldl (fun s c => s.resolve c tenths) s).circuits i = (Table.at? s.circuits i).map fun x =>
      if i ∈ ids then x.resolve (s.masterOf x.config) tenths else x := by
  induction ids generalizing s with
  | nil => simp
  | cons c ids ih =>
    obtain ⟨hc, hn⟩ := List.nodup_cons.1 h
    rw [List.foldl_cons, ih _ hn, State.resolve_at?, Option.map_map]
    congr 1
    funext x
    by_cases hi : i = c
    · subst hi; simp [hc]
    · simp [hi]; rfl

theorem State.foldl_resolve_frame (s : State) (ids : List Nat) (tenths : Nat) :
    ids.foldl (fun s c => s.resolve c tenths) s =
      { s with circuits := (ids.foldl (fun s c => s.resolve c tenths) s).circuits } := by
  induction ids generalizing s with
  | nil => rfl
  | cons c ids ih => rw [List.foldl_cons, ih]; rfl

theorem State.members_nodup {s : State} (h : Table.InOrder s.circuits) (z : Nat) : (s.members z).Nodup :=
  (Table.inOrder_idsWhere h _).imp (fun h => Nat.ne_of_lt h)

theorem Table.mem_idsWhere_of_at? {α : Type} {t : Table α} (h : Table.InOrder t) {p : α → Bool} {i : Nat} {x : α}
    (hx : Table.at? t i = some x) : i ∈ Table.idsWhere t p ↔ p x = true := by
  rw [Table.mem_idsWhere]
  constructor
  · rintro ⟨y, hy, hp⟩
    rw [Table.at?_of_mem h hy] at hx
    exact Option.some.inj hx ▸ hp
  · exact fun hp => ⟨x, Table.mem_of_at? hx, hp⟩

theorem State.mem_members {s : State} (h : Table.InOrder s.circuits) {z i : Nat} {x : Circuit}
    (hx : Table.at? s.circuits i = some x) : i ∈ s.members z ↔ x.config.zone = some z := by
  rw [State.members, Table.mem_idsWhere_of_at? h hx, beq_iff_eq]

theorem State.masterOf_of_zone {s : State} {c : CircuitConfig} {z : Nat} {zone : Zone} (h : c.zone = some z)
    (hz : Table.at? s.zones z = some zone) : s.masterOf c = some zone.master := by
  simp [State.masterOf, h, hz]

/-- What a master change leaves (R20, R22). -/
theorem State.masterChange_masterChanged {s : State} (h : Table.InOrder s.circuits) {z : Nat} {zone : Zone}
    (hz : Table.at? s.zones z = some zone) (value fade : Nat) (maker : Option Nat) :
    s.MasterChanged (s.masterChange z value fade maker) z zone value fade maker := by
  unfold State.masterChange
  rw [hz]
  dsimp only
  refine ⟨fun same => if_pos same.symm, fun new => ?_⟩
  rw [if_neg (Ne.symm new)]
  let s' := s.withZones (Table.adjust s.zones z fun y => { y with master := value })
  have frame := s'.foldl_resolve_frame (s'.members z) fade
  have order : Table.InOrder s'.circuits := h
  have here : Table.at? s'.zones z = some { zone with master := value } := by simp [s', hz]
  refine ⟨by rw [frame]; rfl, fun i => ?_, fun c => ?_, fun b => ?_⟩
  · rw [frame]
    by_cases hi : i = z <;> simp [s', Table.at?_adjust, hi, hz]
  · refine (s'.foldl_resolve_at? (State.members_nodup order z) fade c).trans ?_
    cases hx : Table.at? s.circuits c with
    | none => simp [s', hx]
    | some x =>
      have hx' : Table.at? s'.circuits c = some x := hx
      by_cases member : x.config.zone = some z
      · simp [hx', (State.mem_members order hx').2 member, member, State.masterOf_of_zone member here]
      · simp [hx', (State.mem_members order hx').not.2 member, member]
  · rw [frame, State.withBindings_bindings, Table.at?_mapAll]
    congr 1
    funext x
    simp [Binding.losesCapture]

theorem State.masterChange_offered {s : State} (h : Table.InOrder s.circuits) {z : Nat} {zone : Zone}
    (hz : Table.at? s.zones z = some zone) (value fade : Nat) (maker : Option Nat) :
    (s.masterChange z value fade maker).offered = s.offered := by
  obtain ⟨same, new⟩ := State.masterChange_masterChanged h hz value fade maker
  by_cases hv : value = zone.master
  · rw [same hv]
  · rw [(new hv).1]

/-! ## ConfigureZone -/

theorem decodeZone_malformed {id setting fh fl : Byte} (h : 1 < setting.toNat) :
    decodeZone [id, setting, fh, fl] = .malformed := by
  have flag : flagOfByte setting = none := by
    unfold flagOfByte
    split <;> simp_all
  rw [decodeZone, flag]

theorem flagOfByte_of_le {b : Byte} (h : b.toNat ≤ 1) : ∃ f, flagOfByte b = some f := by
  have cases : b.toNat = 0 ∨ b.toNat = 1 := by omega
  rcases cases with e | e
  · exact ⟨false, by rw [flagOfByte, e]; rfl⟩
  · exact ⟨true, by rw [flagOfByte, e]; rfl⟩

theorem decodeZone_outOfRange {id setting fh fl : Byte} (h : setting.toNat ≤ 1)
    (hr : id.toNat < 1 ∨ 32 < id.toNat ∨ 100 < be16 fh fl) : decodeZone [id, setting, fh, fl] = .outOfRange := by
  obtain ⟨f, hf⟩ := flagOfByte_of_le h
  have range : (within 1 32 id.toNat && within 0 100 (be16 fh fl)) = false := by
    rw [Bool.and_eq_false_iff, within_eq_false, within_eq_false]
    omega
  rw [decodeZone, hf]
  dsimp only
  rw [range]
  rfl

theorem decodeZone_ok {id setting fh fl : Byte} {configured : Bool} (hf : flagOfByte setting = some configured)
    (h1 : 1 ≤ id.toNat) (h2 : id.toNat ≤ 32) (h3 : be16 fh fl ≤ 100) :
    decodeZone [id, setting, fh, fl] = .ok (id.toNat, configured, be16 fh fl) := by
  rw [decodeZone, hf]
  dsimp only
  rw [within_iff.2 ⟨h1, h2⟩, within_iff.2 ⟨Nat.zero_le _, h3⟩]
  rfl

theorem configureZone_busySaving {s : State} (hs : s.saving.isSome = true) (body : List Byte) :
    configureZone body s = .refuse .busySaving s := State.parsed_of_saving hs _ _

theorem configureZone_badRequest {s : State} {body : List Byte} (hs : s.saving = none) (hd : decodeZone body = .malformed) :
    configureZone body s = .refuse .badRequest s := by rw [configureZone, hd, State.parsed_malformed hs]

theorem configureZone_outOfRange {s : State} {body : List Byte} (hs : s.saving = none)
    (hd : decodeZone body = .outOfRange) : configureZone body s = .refuse .outOfRange s := by
  rw [configureZone, hd, State.parsed_outOfRange hs]

theorem configureZone_of_decoded {s : State} {body : List Byte} {z fade : Nat} {configured : Bool} (hs : s.saving = none)
    (hd : decodeZone body = .ok (z, configured, fade)) : configureZone body s = s.configureZone z configured fade := by
  rw [configureZone, hd, State.parsed_ok hs]

/-- A circuit has the zone or a binding names it (R18). -/
def State.ZoneInUse (s : State) (z : Nat) : Prop :=
  (∃ e ∈ s.circuits, e.2.config.zone = some z) ∨ ∃ e ∈ s.bindings, e.2.record.action.area? = some (.zone z)

theorem State.members_ne_nil {s : State} {z : Nat} :
    (!(s.members z).isEmpty) = true ↔ ∃ e ∈ s.circuits, e.2.config.zone = some z := by
  simp [State.members, Table.idsWhere]

theorem State.zoneInUse_iff {s : State} {z : Nat} :
    (!(s.members z).isEmpty || s.areaNamed (.zone z)) = true ↔ s.ZoneInUse z := by
  rw [Bool.or_eq_true, State.members_ne_nil, State.areaNamed_iff, State.ZoneInUse]

theorem State.configureZone_inUse {s : State} {z : Nat} (h : s.ZoneInUse z) (fade : Nat) :
    s.configureZone z false fade = .refuse .inUse s := by
  rw [State.configureZone, if_neg Bool.false_ne_true, State.inOrder_cons, if_pos (State.zoneInUse_iff.2 h)]

theorem State.configureZone_noSuch {s : State} {z : Nat} (h : ¬ s.ZoneInUse z) (hz : Table.at? s.zones z = none)
    (fade : Nat) : s.configureZone z false fade = .refuse .noSuch s := by
  rw [State.configureZone, if_neg Bool.false_ne_true, State.inOrder_cons, if_neg (State.zoneInUse_iff.not.2 h), hz,
    Option.isNone_none, State.inOrder_cons_true]

theorem State.configureZone_removes {s : State} {z : Nat} {x : Zone} (h : ¬ s.ZoneInUse z)
    (hz : Table.at? s.zones z = some x) (fade : Nat) :
    s.configureZone z false fade = .done (s.withZones (Table.remove s.zones z)) := by
  rw [State.configureZone, if_neg Bool.false_ne_true, State.inOrder_cons, if_neg (State.zoneInUse_iff.not.2 h), hz,
    Option.isNone_some, State.inOrder_cons_false, State.inOrder_nil]

/-! ## SetMaster -/

section
variable {s : State} {id lh ll : Byte}

theorem setMaster_outOfRange (h : id.toNat < 1 ∨ 32 < id.toNat) :
    setMaster [id, lh, ll] s = .refuse .outOfRange s := by
  rw [setMaster, within_eq_false.2 h, Bool.not_false, State.inOrder_cons_true]

theorem setMaster_noSuch (h1 : 1 ≤ id.toNat) (h2 : id.toNat ≤ 32) (hz : Table.at? s.zones id.toNat = none) :
    setMaster [id, lh, ll] s = .refuse .noSuch s := by
  rw [setMaster, within_iff.2 ⟨h1, h2⟩, Bool.not_true, State.inOrder_cons_false, hz, Option.isNone_none,
    State.inOrder_cons_true]

theorem setMaster_of_configured {x : Zone} (h1 : 1 ≤ id.toNat) (h2 : id.toNat ≤ 32)
    (hz : Table.at? s.zones id.toNat = some x) :
    setMaster [id, lh, ll] s = .answered { result := .ok, clamped := decide (1000 < be16 lh ll) }
      (s.masterChange id.toNat (min 1000 (be16 lh ll)) x.masterFade none) := by
  rw [setMaster, within_iff.2 ⟨h1, h2⟩, Bool.not_true, State.inOrder_cons_false, hz, Option.isNone_some,
    State.inOrder_cons_false, State.inOrder_nil, State.masterFade, State.zoneRecord_of_configured hz]

end

/-- Settles O28: each answer by its own equation of the request, and the master change by `masterChange_masterChanged`. -/
theorem zoneRequests : Obligations.ZoneRequests := by
  refine ⟨fun s tag id setting fh fl take => ?_, fun s tag id lh ll take order => ?_⟩
  · intro z fade c refused inUse
    have answers {t : State} {r : Reply} (hw : configureZone [id, setting, fh, fl]
        (s.taken 0x15 tag [id, setting, fh, fl]) = .answered r (t.taken ..)) :
        exec c s = .next (t.answered 4 tag r.result r.clamped r.body) :=
      congrArg Host.Outcome.next (take.answered (by simp) hw)
    refine ⟨fun saving => answers (r := { result := .busySaving }) (configureZone_busySaving (s := s.taken ..) saving _),
      fun idle h => answers (configureZone_badRequest idle (decodeZone_malformed h)),
      fun idle h hr => answers (configureZone_outOfRange idle (decodeZone_outOfRange h hr)), fun idle h1 h2 h3 => ?_⟩
    have configures {configured : Bool} (hf : flagOfByte setting = some configured) :=
      configureZone_of_decoded (s := s.taken 0x15 tag [id, setting, fh, fl]) idle (decodeZone_ok hf h1 h2 h3)
    refine ⟨fun one => ?_, fun zero used => ?_, fun zero unused hz => ?_, fun zero unused x hz => ?_⟩
    · refine ⟨s.withZones (Table.put s.zones z { s.zoneRecord z with masterFade := fade }),
        answers (r := { result := .ok }) (configures (configured := true) (by rw [one]; rfl)), rfl, fun i => ?_⟩
      rw [State.withZones_zones, Table.at?_put]
      cases hz : Table.at? s.zones z <;> simp [State.zoneRecord, hz, Zone.unconfigured]
    · exact answers ((configures (configured := false) (by rw [zero]; rfl)).trans
        (State.configureZone_inUse (s := s.taken ..) used _))
    · exact answers ((configures (configured := false) (by rw [zero]; rfl)).trans
        (State.configureZone_noSuch (s := s.taken ..) unused hz _))
    · refine ⟨s.withZones (Table.remove s.zones z), answers (r := { result := .ok })
        ((configures (configured := false) (by rw [zero]; rfl)).trans
          (State.configureZone_removes (s := s.taken ..) unused hz _)), rfl, ?_, fun i => ?_⟩
      · simp [State.zoneRecord, Zone.unconfigured]
      · exact Table.at?_remove ..
  · intro z level c
    have answers {t : State} {r : Reply} (hw : setMaster [id, lh, ll] (s.taken 0x16 tag [id, lh, ll]) =
        .answered r (t.taken ..)) : exec c s = .next (t.answered 3 tag r.result r.clamped r.body) :=
      congrArg Host.Outcome.next (take.answered (by simp) hw)
    refine ⟨fun hi => answers (setMaster_outOfRange hi), fun h1 h2 hz => answers (setMaster_noSuch h1 h2 hz),
      fun x h1 h2 hz => ?_⟩
    have changed := State.masterChange_masterChanged order hz (min 1000 level) x.masterFade none
    have done : exec c s = .next ((s.masterChange z (min 1000 level) x.masterFade none).answered 3 tag .ok
        (decide (1000 < level)) []) :=
      answers (r := { result := .ok, clamped := decide (1000 < level) })
        ((setMaster_of_configured (s := s.taken ..) h1 h2 hz).trans (congrArg (Work.answered _) (State.taken_comm
          (f := fun s => s.masterChange z (min 1000 level) x.masterFade none)
          (State.masterChange_offered order hz ..) (by simp) ..)))
    refine ⟨fun same => by rw [done, changed.1 same], fun new => ?_⟩
    obtain ⟨frame, zones, circuits, bindings⟩ := changed.2 new
    exact ⟨_, done, frame, zones, circuits, by simpa using bindings⟩

end Sys2Proof.Machine
end

section
/-! SUPPORT. Placements made one after another, each on a circuit of its own, for one origin (R66, R69, R88, R90). -/

namespace Sys2Proof.Machine

/-! ## A placement looks at its own circuit alone -/

section
variable {s t : State} {c : Nat} (hc : Table.at? t.circuits c = Table.at? s.circuits c) (hm : t.mode = s.mode)
include hc hm

theorem State.place_verdict_congr (k : Contribution) : (t.place c k).2 = (s.place c k).2 := by
  rw [State.place_verdict, State.place_verdict, hc, hm]

theorem State.place_at?_congr (hz : t.zones = s.zones) (k : Contribution) :
    Table.at? (t.place c k).1.circuits c = Table.at? (s.place c k).1.circuits c := by
  simp only [State.place_at?, hc, hm, State.masterOf, State.zoneRecord, hz]

end

/-! ## Who still holds a claim after a placement -/

/-- A verdict that displaced a claim of an origin. -/
def Verdict.Displaces (v : Verdict) (o : Origin) : Prop := ∃ w, v = .appended (some w) ∧ w.origin = o

section
variable {k y : Contribution} {l : List Contribution} {r : List Contribution × Verdict} (h : Inserted k l r)
include h

theorem Inserted.mem (hy : y ∈ r.1) : y ∈ l ∨ y = k := by
  cases h with
  | replaced => exact (List.mem_append.1 hy).imp List.mem_of_mem_eraseP List.mem_singleton.1
  | appended => simpa using hy
  | displaced older victim newer fresh hl => subst hl; simp at hy ⊢; tauto
  | refused => exact .inl hy

/-- A claim of another origin than the new one and the victim stays in the list. -/
theorem Inserted.mem_of_kept (hy : y ∈ l) (hk : y.origin ≠ k.origin) (hv : ¬ r.2.Displaces y.origin) : y ∈ r.1 := by
  cases h with
  | replaced => exact List.mem_append_left _ ((List.mem_eraseP_of_neg (by simpa using hk)).2 hy)
  | appended => exact List.mem_append_left _ hy
  | displaced older victim newer fresh hl =>
    have other : y ≠ victim := fun e => hv ⟨victim, rfl, e ▸ rfl⟩
    subst hl
    simp [other] at hy ⊢
    tauto
  | refused => exact hy

/-- What a placement displaces is another party's. -/
theorem Inserted.victim_ne : ¬ r.2.Displaces k.origin := by
  rintro ⟨w, hw, ho⟩
  cases h with
  | displaced older victim newer fresh hl =>
    obtain rfl : victim = w := by simpa using hw
    exact fresh victim (by simp [hl]) ho
  | _ => simp at hw

end

theorem Circuit.placed_claims (mode : HouseMode) (master : Option Nat) (k : Contribution) (x : Circuit) :
    (x.placed mode master k).claims = (insertClaim { k with dormant := dormantIn mode x.config k.tier } x.claims).1 := by
  rcases hi : insertClaim { k with dormant := dormantIn mode x.config k.tier } x.claims with ⟨l, v⟩
  cases v with
  | refused =>
    have outcome := hi ▸ insertClaim_inserted { k with dormant := dormantIn mode x.config k.tier } x.claims
    cases outcome
    simp [Circuit.placed, hi]
  | _ => simp [Circuit.placed, hi, Circuit.resolve]

theorem State.place_victim_ne (s : State) (c : Nat) (k : Contribution) : ¬ (s.place c k).2.Displaces k.origin := by
  rw [State.place_verdict]
  cases Table.at? s.circuits c with
  | none => rintro ⟨w, hw, _⟩; cases hw
  | some x => exact (insertClaim_inserted { k with dormant := dormantIn s.mode x.config k.tier } x.claims).victim_ne

section
variable (s : State) (c : Nat) (k : Contribution) {o : Origin} (ho : o ≠ k.origin)
include ho

theorem State.heldOn_of_place {i : Nat} (h : (s.place c k).1.heldOn o i = true) : s.heldOn o i = true := by
  obtain ⟨y, hy, q, hq, rfl⟩ := State.heldOn_iff.1 h
  rw [State.place_at?] at hy
  obtain ⟨x, hx, rfl⟩ := Option.map_eq_some_iff.1 hy
  refine State.heldOn_iff.2 ⟨x, hx, q, ?_, rfl⟩
  split at hq
  · rw [Circuit.placed_claims] at hq
    exact ((insertClaim_inserted ..).mem hq).resolve_right fun e => ho (e ▸ rfl)
  · exact hq

theorem State.place_heldOn_of_kept (hv : ¬ (s.place c k).2.Displaces o) {i : Nat} (h : s.heldOn o i = true) :
    (s.place c k).1.heldOn o i = true := by
  obtain ⟨x, hx, q, hq, rfl⟩ := State.heldOn_iff.1 h
  refine State.heldOn_iff.2 ⟨_, by rw [State.place_at?, hx]; rfl, q, ?_, rfl⟩
  split
  · subst i
    rw [State.place_verdict, hx] at hv
    rw [Circuit.placed_claims]
    exact (insertClaim_inserted ..).mem_of_kept hq ho hv
  · exact hq

end

theorem State.place_ids (s : State) (c : Nat) (k : Contribution) :
    Table.ids (s.place c k).1.circuits = Table.ids s.circuits := by
  have outcome := s.place_outcome c k
  generalize s.place c k = r at outcome
  cases outcome with
  | unconfigured => rfl
  | refused => rw [State.markRefused_circuits]
  | taken => simp [State.withClaims, State.resolve]
  | displaced x l victim =>
    rw [State.departed_circuits]
    cases victim.origin <;> simp [State.markDisplaced, State.withClaims, State.resolve]

theorem State.place_inOrder {s : State} (h : Table.InOrder s.circuits) (c : Nat) (k : Contribution) :
    Table.InOrder (s.place c k).1.circuits := by
  rw [Table.InOrder, State.place_ids]; exact h

/-- An origin holds nothing where no circuit's list holds a claim of it (R11). -/
theorem State.holds_eq_zero {s : State} (h : Table.InOrder s.circuits) {o : Origin} :
    s.holds o = 0 ↔ ∀ c, s.heldOn o c = false := by
  simp only [State.heldOn_eq_false, State.holds, State.holders, Table.idsWhere, List.length_map, List.length_eq_zero_iff,
    List.filter_eq_nil_iff, List.any_eq_true, beq_iff_eq, not_exists, not_and]
  exact ⟨fun all c x hx => all (c, x) (Table.mem_of_at? hx), fun all e he => all e.1 e.2 (Table.at?_of_mem h he)⟩

theorem State.place_holds_of_zero {s : State} (h : Table.InOrder s.circuits) {o : Origin} {k : Contribution}
    (ho : o ≠ k.origin) (hz : s.holds o = 0) (c : Nat) : (s.place c k).1.holds o = 0 := by
  rw [State.holds_eq_zero h] at hz
  rw [State.holds_eq_zero (State.place_inOrder h c k)]
  exact fun i => Bool.eq_false_iff.2 fun held => Bool.eq_false_iff.1 (hz i) (s.heldOn_of_place c k ho held)

theorem State.zero_of_place_holds {s : State} (h : Table.InOrder s.circuits) {o : Origin} {k : Contribution}
    (ho : o ≠ k.origin) {c : Nat} (hv : ¬ (s.place c k).2.Displaces o) (hz : (s.place c k).1.holds o = 0) :
    s.holds o = 0 := by
  rw [State.holds_eq_zero (State.place_inOrder h c k)] at hz
  rw [State.holds_eq_zero h]
  exact fun i => Bool.eq_false_iff.2 fun held => Bool.eq_false_iff.1 (hz i) (s.place_heldOn_of_kept c k ho hv held)

end Sys2Proof.Machine
end

section
/-! SUPPORT. Runs of placements, each on a circuit of its own, for one origin (R66, R69, R88, R90). -/

namespace Sys2Proof.Machine

/-! ## The state and the tally of a run -/

/-- The state after placements made one after another. -/
def State.placeEach (s : State) (claims : List (Nat × Contribution)) : State :=
  claims.foldl (fun s e => (s.place e.1 e.2).1) s

/-- What each of the placements alone comes to. -/
def State.verdicts (s : State) (claims : List (Nat × Contribution)) : List Verdict :=
  claims.map fun e => (s.place e.1 e.2).2

theorem State.mem_verdicts {s : State} {claims : List (Nat × Contribution)} {v : Verdict} :
    v ∈ s.verdicts claims ↔ ∃ e ∈ claims, (s.place e.1 e.2).2 = v := List.mem_map

theorem State.OnlyClaims.placeEach {s t : State} (h : s.OnlyClaims t) (claims : List (Nat × Contribution)) :
    s.OnlyClaims (t.placeEach claims) := h.foldl claims fun _ e hu => hu.place e.1 e.2

theorem State.placeEach_cons (s : State) (e : Nat × Contribution) (claims : List (Nat × Contribution)) :
    s.placeEach (e :: claims) = (s.place e.1 e.2).1.placeEach claims := rfl

/-- A placement on another circuit leaves what the placements of a run come to. -/
theorem State.verdicts_place (s : State) {c : Nat} (k : Contribution) {claims : List (Nat × Contribution)}
    (h : c ∉ claims.map Prod.fst) : (s.place c k).1.verdicts claims = s.verdicts claims :=
  List.map_congr_left fun e he => State.place_verdict_congr
    (s.place_at?_ne k fun (hc : e.1 = c) => h (hc ▸ List.mem_map_of_mem he)) ((State.OnlyClaims.refl s).place c k).mode e.2

theorem State.foldl_place_eq (s : State) {claims : List (Nat × Contribution)} (hn : (claims.map Prod.fst).Nodup)
    (t : Tally) : claims.foldl (fun (acc : State × Tally) (e : Nat × Contribution) =>
      ((acc.1.place e.1 e.2).1, acc.2.count (acc.1.place e.1 e.2).2)) (s, t) =
        (s.placeEach claims, (s.verdicts claims).foldl Tally.count t) := by
  induction claims generalizing s t with
  | nil => rfl
  | cons e claims ih =>
    obtain ⟨hc, hn⟩ := List.nodup_cons.1 hn
    rw [List.foldl_cons, ih _ hn, s.verdicts_place e.2 hc]
    rfl

theorem State.placeAll_eq (s : State) {claims : List (Nat × Contribution)} (hn : (claims.map Prod.fst).Nodup) :
    s.placeAll claims = (s.placeEach claims, (s.verdicts claims).foldl Tally.count ⟨false, false⟩) :=
  s.foldl_place_eq hn _

theorem Tally.foldl_count_refused (vs : List Verdict) (t : Tally) :
    (vs.foldl Tally.count t).refused = true ↔ t.refused = true ∨ .refused ∈ vs := by
  induction vs generalizing t with
  | nil => simp
  | cons v vs ih => rw [List.foldl_cons, ih]; cases v <;> simp [Tally.count]

theorem Tally.foldl_count_any (vs : List Verdict) (t : Tally) :
    (vs.foldl Tally.count t).any = true ↔ t.any = true ∨ ∃ v ∈ vs, v ≠ .unconfigured := by
  induction vs generalizing t with
  | nil => simp
  | cons v vs ih => rw [List.foldl_cons, ih]; cases v <;> simp [Tally.count]

/-! ## The circuits of a run -/

theorem State.placeEach_at?_of_not_mem (s : State) {claims : List (Nat × Contribution)} {i : Nat}
    (h : i ∉ claims.map Prod.fst) : Table.at? (s.placeEach claims).circuits i = Table.at? s.circuits i := by
  induction claims generalizing s with
  | nil => rfl
  | cons e claims ih =>
    obtain ⟨here, later⟩ := not_or.1 (List.mem_cons.not.1 h)
    rw [State.placeEach_cons, ih _ later, s.place_at?_ne e.2 here]

/-- On the circuit of each the run leaves what its placement alone leaves. -/
theorem State.placeEach_at?_of_mem (s : State) {claims : List (Nat × Contribution)} (hn : (claims.map Prod.fst).Nodup)
    {e : Nat × Contribution} (he : e ∈ claims) :
    Table.at? (s.placeEach claims).circuits e.1 = Table.at? (s.place e.1 e.2).1.circuits e.1 := by
  induction claims generalizing s with
  | nil => cases he
  | cons e' claims ih =>
    obtain ⟨hc, hn⟩ := List.nodup_cons.1 hn
    have only := (State.OnlyClaims.refl s).place e'.1 e'.2
    rw [State.placeEach_cons]
    rcases List.mem_cons.1 he with rfl | he
    · exact State.placeEach_at?_of_not_mem _ hc
    · rw [ih _ hn he]
      exact State.place_at?_congr
        (s.place_at?_ne e'.2 fun (h : e.1 = e'.1) => hc (h ▸ List.mem_map_of_mem he)) only.mode only.zones e.2

/-- A run on circuits none of which is configured does nothing. -/
theorem State.placeEach_of_unconfigured (s : State) {claims : List (Nat × Contribution)}
    (h : ∀ e ∈ claims, (s.place e.1 e.2).2 = .unconfigured) : s.placeEach claims = s := by
  induction claims with
  | nil => rfl
  | cons e claims ih =>
    have same : (s.place e.1 e.2).1 = s := by
      have here := h e List.mem_cons_self
      have outcome := s.place_outcome e.1 e.2
      generalize s.place e.1 e.2 = r at here outcome
      cases outcome with
      | unconfigured => rfl
      | taken x l v hv => rcases hv with rfl | rfl <;> cases here
      | _ => cases here
    rw [State.placeEach_cons, same, ih fun e he => h e (List.mem_cons_of_mem _ he)]

/-! ## The bindings of a run -/

section
variable {o : Origin} {i : Nat}

theorem Binding.afterPlacement_of_displaces {v : Verdict} (h : v.Displaces (.binding i)) (x : Binding) :
    x.afterPlacement o v i = { x with displacedMark := true, captured := false } := by
  obtain ⟨w, rfl, hw⟩ := h
  exact if_pos hw

theorem Binding.afterPlacement_of_not_displaces {v : Verdict} (h : ¬ v.Displaces (.binding i))
    (hr : v = .refused → o ≠ .binding i) (x : Binding) : x.afterPlacement o v i = x := by
  match v with
  | .appended (some w) => exact if_neg fun hw => h ⟨w, rfl, hw⟩
  | .refused => exact if_neg (hr rfl)
  | .appended none | .replaced | .unconfigured => rfl

theorem Binding.afterPlacement_of_refused (x : Binding) :
    x.afterPlacement (.binding i) .refused i = { x with partialMark := true } := if_pos rfl

/-- A binding that no placement of a run displaced or refused. -/
theorem Binding.foldl_afterPlacement_of_kept {vs : List Verdict} (h : ∀ v ∈ vs, ¬ v.Displaces (.binding i))
    (hr : .refused ∈ vs → o ≠ .binding i) (x : Binding) : vs.foldl (fun x v => x.afterPlacement o v i) x = x := by
  induction vs with
  | nil => rfl
  | cons v vs ih =>
    obtain ⟨here, later⟩ := List.forall_mem_cons.1 h
    rw [List.foldl_cons, Binding.afterPlacement_of_not_displaces here fun e => hr (e ▸ List.mem_cons_self)]
    exact ih later fun hm => hr (List.mem_cons_of_mem _ hm)

/-- A binding that some placement of a run of another party displaced. -/
theorem Binding.foldl_afterPlacement_of_displaced (ho : o ≠ .binding i) {vs : List Verdict}
    (h : ∃ v ∈ vs, v.Displaces (.binding i)) (x : Binding) :
    vs.foldl (fun x v => x.afterPlacement o v i) x = { x with displacedMark := true, captured := false } := by
  induction vs generalizing x with
  | nil => simp at h
  | cons v vs ih =>
    rw [List.foldl_cons]
    by_cases later : ∃ v ∈ vs, v.Displaces (.binding i)
    · rw [ih later]
      by_cases here : v.Displaces (.binding i)
      · rw [Binding.afterPlacement_of_displaces here]
      · rw [Binding.afterPlacement_of_not_displaces here fun _ => ho]
    · have none_later : ∀ v ∈ vs, ¬ v.Displaces (.binding i) := fun v hv hd => later ⟨v, hv, hd⟩
      have here : v.Displaces (.binding i) := by
        obtain ⟨w, hw, hd⟩ := h
        rcases List.mem_cons.1 hw with rfl | hw
        · exact hd
        · exact absurd hd (none_later w hw)
      rw [Binding.foldl_afterPlacement_of_kept none_later fun _ => ho, Binding.afterPlacement_of_displaces here]

/-- The binding whose run it is, where a placement was refused. -/
theorem Binding.foldl_afterPlacement_of_refused {vs : List Verdict} (h : ∀ v ∈ vs, ¬ v.Displaces (.binding i))
    (hr : .refused ∈ vs) (x : Binding) :
    vs.foldl (fun x v => x.afterPlacement (.binding i) v i) x = { x with partialMark := true } := by
  induction vs generalizing x with
  | nil => cases hr
  | cons v vs ih =>
    obtain ⟨here, later⟩ := List.forall_mem_cons.1 h
    have first : x.afterPlacement (.binding i) v i = if v = .refused then { x with partialMark := true } else x := by
      split
      · subst v; exact x.afterPlacement_of_refused
      · exact Binding.afterPlacement_of_not_displaces here (absurd · ‹_›) x
    rw [List.foldl_cons, first]
    by_cases more : .refused ∈ vs
    · rw [ih later more]
      split <;> rfl
    · obtain rfl : v = .refused := ((List.mem_cons.1 hr).resolve_right more).symm
      rw [if_pos rfl, Binding.foldl_afterPlacement_of_kept later (absurd · more)]

end

/-- Each placement of a run tells the bindings in its turn. -/
theorem State.placeEach_bindings_at? (s : State) {claims : List (Nat × Contribution)}
    (hn : (claims.map Prod.fst).Nodup) {o : Origin} (ho : ∀ e ∈ claims, e.2.origin = o) (i : Nat) :
    Table.at? (s.placeEach claims).bindings i =
      (Table.at? s.bindings i).map fun x => (s.verdicts claims).foldl (fun x v => x.afterPlacement o v i) x := by
  induction claims generalizing s with
  | nil => simp [State.placeEach, State.verdicts]
  | cons e claims ih =>
    obtain ⟨hc, hn⟩ := List.nodup_cons.1 hn
    obtain ⟨here, later⟩ := List.forall_mem_cons.1 ho
    rw [State.placeEach_cons, ih _ hn later, s.verdicts_place e.2 hc, State.place_bindings_at?, Option.map_map, here]
    rfl

/-- No placement of a run displaces a claim of the run's own origin. -/
theorem State.verdicts_own {s : State} {claims : List (Nat × Contribution)} {o : Origin}
    (ho : ∀ e ∈ claims, e.2.origin = o) : ∀ v ∈ s.verdicts claims, ¬ v.Displaces o := by
  intro v hv
  obtain ⟨e, he, rfl⟩ := State.mem_verdicts.1 hv
  exact ho e he ▸ s.place_victim_ne e.1 e.2

/-! ## The scenes of a run -/

/-- A scene whose own run it is has at most its partial mark set by it. -/
theorem Scene.afterPlacement_own {n : Nat} {v : Verdict} (h : ¬ v.Displaces (.scene n)) (held : Nat) (x : Scene) :
    x.afterPlacement (.scene n) v n held = if v = .refused then { x with partialMark := true } else x := by
  match v with
  | .appended (some w) => exact (if_neg fun hw => h ⟨w, rfl, hw⟩).trans (if_neg (by simp)).symm
  | .refused => exact (if_pos rfl).trans (if_pos rfl).symm
  | .appended none | .replaced | .unconfigured => exact (if_neg (by simp)).symm

theorem State.placeEach_own_scene (s : State) {claims : List (Nat × Contribution)} {n : Nat}
    (ho : ∀ e ∈ claims, e.2.origin = .scene n) {x : Scene} (hx : Table.at? s.scenes n = some x) :
    ∃ mark, Table.at? (s.placeEach claims).scenes n = some { x with partialMark := mark } := by
  induction claims generalizing s x with
  | nil => exact ⟨x.partialMark, hx⟩
  | cons e claims ih =>
    obtain ⟨here, later⟩ := List.forall_mem_cons.1 ho
    have own := here ▸ s.place_victim_ne e.1 e.2
    have first := s.place_scenes_at? e.1 e.2 n
    rw [hx, Option.map_some, here, Scene.afterPlacement_own own] at first
    split at first <;> obtain ⟨mark, hm⟩ := ih _ later first <;> exact ⟨mark, hm⟩

/-- A run leaves nothing of an origin that holds nothing and is not its own. -/
theorem State.placeEach_holds_of_zero {s : State} (h : Table.InOrder s.circuits) {claims : List (Nat × Contribution)}
    {o : Origin} (ho : ∀ e ∈ claims, o ≠ e.2.origin) (hz : s.holds o = 0) : (s.placeEach claims).holds o = 0 := by
  induction claims generalizing s with
  | nil => exact hz
  | cons e claims ih =>
    obtain ⟨here, later⟩ := List.forall_mem_cons.1 ho
    exact ih (State.place_inOrder h e.1 e.2) later (State.place_holds_of_zero h here hz e.1)

theorem State.zero_of_placeEach_holds {s : State} (h : Table.InOrder s.circuits) {claims : List (Nat × Contribution)}
    (hn : (claims.map Prod.fst).Nodup) {o : Origin} (ho : ∀ e ∈ claims, o ≠ e.2.origin)
    (hv : ∀ v ∈ s.verdicts claims, ¬ v.Displaces o) (hz : (s.placeEach claims).holds o = 0) : s.holds o = 0 := by
  induction claims generalizing s with
  | nil => exact hz
  | cons e claims ih =>
    obtain ⟨hc, hn⟩ := List.nodup_cons.1 hn
    obtain ⟨here, later⟩ := List.forall_mem_cons.1 ho
    obtain ⟨kept, rest⟩ := List.forall_mem_cons.1 hv
    have after := ih (State.place_inOrder h e.1 e.2) hn later (by rw [s.verdicts_place e.2 hc]; exact rest) hz
    exact State.zero_of_place_holds h here kept after

theorem Scene.AfterPlacements.refl (y : Scene) {displaced ended : Prop} (h : ¬ displaced) :
    y.AfterPlacements y displaced ended :=
  ⟨rfl, rfl, by simp [h], fun both => absurd both.1 h, fun _ => ⟨rfl, rfl⟩⟩

/-- A scene after the first placement of a run and after the others, judged by what it holds at the end: once it holds
nothing it holds nothing any more, and without a displacement it holds what it held. -/
theorem Scene.AfterPlacements.of_step {y z : Scene} {o : Origin} {v : Verdict} {m held : Nat} {later ended : Prop}
    (ho : o ≠ .scene m) (h : (y.afterPlacement o v m held).AfterPlacements z later ended)
    (ends : held = 0 → ended) (stays : ¬ later → ended → held = 0) :
    y.AfterPlacements z (v.Displaces (.scene m) ∨ later) ended := by
  by_cases here : v.Displaces (.scene m)
  · obtain ⟨w, rfl, hw⟩ := here
    have displaces : (Verdict.appended (some w)).Displaces (.scene m) := ⟨w, rfl, hw⟩
    have first : y.afterPlacement o (.appended (some w)) m held = if held = 0 then
        { y with displacedMark := true, liveTier := none, recaller := none } else { y with displacedMark := true } :=
      if_pos hw
    rw [first] at h
    by_cases zero : held = 0
    · rw [if_pos zero] at h
      obtain ⟨definition, partialMark, displacedMark, clears, keeps⟩ := h
      refine ⟨definition, partialMark, by simp [displacedMark, displaces], fun _ => ?_, fun no => ?_⟩
      · by_cases both : later ∧ ended
        · exact clears both
        · exact keeps both
      · exact absurd ⟨.inl displaces, ends zero⟩ no
    · rw [if_neg zero] at h
      obtain ⟨definition, partialMark, displacedMark, clears, keeps⟩ := h
      refine ⟨definition, partialMark, by simp [displacedMark, displaces], fun both => ?_, fun no => ?_⟩
      · exact clears ⟨by_contra fun none_later => zero (stays none_later both.2), both.2⟩
      · exact keeps fun both => no ⟨.inl displaces, both.2⟩
  · have same : y.afterPlacement o v m held = y := by
      match v with
      | .appended (some w) => exact if_neg fun hw => here ⟨w, rfl, hw⟩
      | .refused => exact if_neg ho
      | .appended none | .replaced | .unconfigured => rfl
    rw [same] at h
    simpa [here] using h

/-- A scene of another party after a run: its marks, and whether it is still live (R9, R11). -/
theorem State.placeEach_other_scene {s : State} (h : Table.InOrder s.circuits) {claims : List (Nat × Contribution)}
    (hn : (claims.map Prod.fst).Nodup) {o : Origin} (ho : ∀ e ∈ claims, e.2.origin = o) {m : Nat} (hm : o ≠ .scene m)
    {y : Scene} (hy : Table.at? s.scenes m = some y) : ∃ z, Table.at? (s.placeEach claims).scenes m = some z ∧
      y.AfterPlacements z (∃ v ∈ s.verdicts claims, v.Displaces (.scene m))
        ((s.placeEach claims).holds (.scene m) = 0) := by
  induction claims generalizing s y with
  | nil => exact ⟨y, hy, .refl y (by simp [State.verdicts])⟩
  | cons e claims ih =>
    obtain ⟨hc, hn⟩ := List.nodup_cons.1 hn
    obtain ⟨here, later⟩ := List.forall_mem_cons.1 ho
    have order := State.place_inOrder h e.1 e.2
    have first := s.place_scenes_at? e.1 e.2 m
    rw [hy, Option.map_some, here] at first
    obtain ⟨z, hz, after⟩ := ih order hn later first
    have foreign : ∀ e ∈ claims, Origin.scene m ≠ e.2.origin := fun e he => later e he ▸ hm.symm
    refine ⟨z, hz, ?_⟩
    rw [s.verdicts_place e.2 hc] at after
    have step := after.of_step hm (State.placeEach_holds_of_zero order foreign) fun none_later =>
      State.zero_of_placeEach_holds order hn foreign fun v hv hd =>
        none_later ⟨v, s.verdicts_place e.2 hc ▸ hv, hd⟩
    simpa [State.verdicts, State.placeEach_cons] using step

theorem State.placeEach_scene_of_none (s : State) (claims : List (Nat × Contribution)) {n : Nat}
    (h : Table.at? s.scenes n = none) : Table.at? (s.placeEach claims).scenes n = none := by
  induction claims generalizing s with
  | nil => exact h
  | cons e claims ih => exact ih _ (by rw [State.place_scenes_at?, h]; rfl)

end Sys2Proof.Machine
end

section
/-! SUPPORT. What a recall, a release and a placing action leave (R66 to R70, R75, R76, R88 to R92). -/

namespace Sys2Proof.Machine

/-! ## Recall -/

/-- A scene's marks judged after its last placement (R90). -/
def Scene.judged (refused : Bool) (held : Nat) (x : Scene) : Scene :=
  if refused then { x with partialMark := true }
  else { x with partialMark := false, displacedMark := x.displacedMark && held != x.definition.entries.length }

theorem State.judgeScene_at? (s : State) (n : Nat) (refused : Bool) (m : Nat) :
    Table.at? (s.judgeScene n refused).scenes m = (Table.at? s.scenes m).map fun x =>
      if m = n then x.judged refused (s.holds (.scene n)) else x := by
  by_cases h : m = n
  · simp [State.judgeScene, h]; rfl
  · simp [State.judgeScene, Table.at?_adjust, h]

/-- The placements of a recall, by circuit (R88). -/
def SceneDef.placements (d : SceneDef) (n tier : Nat) (r : Recaller) : List (Nat × Contribution) :=
  d.entries.map fun e => (e.1, sceneClaim n tier d (some r) e.2)

theorem SceneDef.placements_ids (d : SceneDef) (n tier : Nat) (r : Recaller) :
    (d.placements n tier r).map Prod.fst = d.entries.map Prod.fst := by simp [SceneDef.placements, Function.comp_def]

theorem SceneDef.placements_origin (d : SceneDef) (n tier : Nat) (r : Recaller) :
    ∀ e ∈ d.placements n tier r, e.2.origin = .scene n := by
  intro e he
  obtain ⟨e, _, rfl⟩ := List.mem_map.1 he
  rfl

/-- A scene with its recall begun: its tier and its recaller are known (R88). -/
def State.recallBegun (s : State) (n tier : Nat) (r : Recaller) : State :=
  s.onScene n fun x => { x with liveTier := some tier, recaller := some r }

theorem State.recall_eq {s : State} {n : Nat} {y : Scene} (hy : Table.at? s.scenes n = some y)
    (hn : (y.definition.entries.map Prod.fst).Nodup) (tier : Nat) (r : Recaller) :
    ∃ refused : Bool, (refused = true ↔ .refused ∈ s.verdicts (y.definition.placements n tier r)) ∧
      s.recall n tier r = ((((s.recallBegun n tier r).placeEach (y.definition.placements n tier r)).judgeScene n
        refused).judgeLive n) := by
  refine ⟨((s.verdicts (y.definition.placements n tier r)).foldl Tally.count ⟨false, false⟩).refused,
    by simp [Tally.foldl_count_refused], ?_⟩
  have run := (s.recallBegun n tier r).placeAll_eq (claims := y.definition.placements n tier r)
    ((SceneDef.placements_ids ..).symm ▸ hn)
  have same : (s.recallBegun n tier r).verdicts (y.definition.placements n tier r) =
      s.verdicts (y.definition.placements n tier r) :=
    List.map_congr_left fun e _ => State.place_verdict_congr (s := s) (t := s.recallBegun n tier r) rfl rfl e.2
  rw [same] at run
  rw [State.recall, hy]
  exact congrArg (fun r : State × Tally => (r.1.judgeScene n r.2.refused).judgeLive n) run

theorem SceneDef.refused_iff {s : State} {d : SceneDef} {n tier : Nat} {r : Recaller} :
    .refused ∈ s.verdicts (d.placements n tier r) ↔
      ∃ e ∈ d.entries, (s.place e.1 (sceneClaim n tier d (some r) e.2)).2 = .refused := by
  simp [State.verdicts, SceneDef.placements]

theorem SceneDef.displaces_iff {s : State} {d : SceneDef} {n tier : Nat} {r : Recaller} {o : Origin} :
    (∃ v ∈ s.verdicts (d.placements n tier r), v.Displaces o) ↔
      ∃ e ∈ d.entries, ∃ w, (s.place e.1 (sceneClaim n tier d (some r) e.2)).2 = .appended (some w) ∧ w.origin = o := by
  simp [State.verdicts, SceneDef.placements, Verdict.Displaces]

/-- The recalled scene itself at the end (R90, R91). -/
theorem State.recall_scene {s : State} {n : Nat} {y : Scene} {mark refused : Bool}
    (hy : Table.at? s.scenes n = some { y with partialMark := mark }) :
    ∃ z, Table.at? ((s.judgeScene n refused).judgeLive n).scenes n = some z ∧ z.definition = y.definition ∧
      (refused = true → z.partialMark = true ∧ z.displacedMark = y.displacedMark) ∧
      (refused = false → z.partialMark = false ∧
        (z.displacedMark = true ↔ y.displacedMark = true ∧ s.holds (.scene n) ≠ y.definition.entries.length)) ∧
      (0 < s.holds (.scene n) → z.liveTier = y.liveTier ∧ z.recaller = y.recaller) ∧
      (s.holds (.scene n) = 0 → z.liveTier = none ∧ z.recaller = none) := by
  have held : (s.judgeScene n refused).holds (.scene n) = s.holds (.scene n) := rfl
  rw [State.judgeLive_scenes_at?, State.judgeScene_at?, hy, held]
  refine ⟨_, rfl, ?_⟩
  cases refused <;> by_cases zero : s.holds (.scene n) = 0 <;> simp [Scene.judged, zero, Nat.pos_iff_ne_zero]

/-- What a recall leaves (R88 to R91). -/
theorem State.recall_recalled {s : State} {n : Nat} {y : Scene} (hy : Table.at? s.scenes n = some y)
    (hp : (y.definition.entries.map Prod.fst).Pairwise (· < ·)) (tier : Nat) (r : Recaller) :
    s.Recalled (s.recall n tier r) n y tier r := by
  have hn : (y.definition.entries.map Prod.fst).Nodup := hp.imp fun h => Nat.ne_of_lt h
  obtain ⟨refused, hr, e⟩ := State.recall_eq hy hn tier r
  have ids := y.definition.placements_ids n tier r
  have own := y.definition.placements_origin n tier r
  have distinct : ((y.definition.placements n tier r).map Prod.fst).Nodup := ids.symm ▸ hn
  let s' := s.recallBegun n tier r
  let p := s'.placeEach (y.definition.placements n tier r)
  have verdicts : s'.verdicts (y.definition.placements n tier r) = s.verdicts (y.definition.placements n tier r) :=
    List.map_congr_left fun e _ => State.place_verdict_congr (s := s) (t := s') rfl rfl e.2
  have circuits : (s.recall n tier r).circuits = p.circuits := by rw [e, State.judgeLive_circuits]; rfl
  have bindings : (s.recall n tier r).bindings = p.bindings := by rw [e, State.judgeLive_bindings]; rfl
  have others {m : Nat} (hm : m ≠ n) : Table.at? (s.recall n tier r).scenes m = Table.at? p.scenes m := by
    rw [e, State.judgeLive_scenes_at?, State.judgeScene_at?]
    simp [hm, p, s']
  have begun {m : Nat} (hm : m ≠ n) : Table.at? s'.scenes m = Table.at? s.scenes m := by
    simp [s', State.recallBegun, Table.at?_adjust, hm]
  refine ⟨?_, fun q hq => ?_, fun c hc => ?_, fun b => ?_, fun order m hm => ⟨fun hw => ?_, fun w hw => ?_⟩, ?_⟩
  · rw [e]
    exact ((((State.OnlyClaims.refl s).onScene ..).placeEach _).onScene ..).judgeLive n
  · rw [circuits]
    exact (s'.placeEach_at?_of_mem distinct (List.mem_map_of_mem hq)).trans
      (State.place_at?_congr (s := s) (t := s') rfl rfl rfl _)
  · rw [circuits]
    exact s'.placeEach_at?_of_not_mem (ids ▸ hc)
  · rw [bindings, s'.placeEach_bindings_at? distinct own, verdicts]
    refine ⟨fun hd => ?_, fun hd => ?_⟩
    · simp only [Binding.foldl_afterPlacement_of_displaced (nofun : Origin.scene n ≠ .binding b) (SceneDef.displaces_iff.2 hd)]
      rfl
    · have kept : ∀ v ∈ s.verdicts (y.definition.placements n tier r), ¬ v.Displaces (.binding b) :=
        fun v hv hd' => hd (SceneDef.displaces_iff.1 ⟨v, hv, hd'⟩)
      simp only [Binding.foldl_afterPlacement_of_kept kept fun _ => (nofun : Origin.scene n ≠ .binding b), Option.map_id']
      rfl
  · rw [others hm]
    exact s'.placeEach_scene_of_none _ ((begun hm).trans hw)
  · obtain ⟨z, hz, after⟩ := State.placeEach_other_scene (s := s') order distinct own
      (fun h => hm (Origin.scene.inj h).symm) ((begun hm).trans hw)
    refine ⟨z, (others hm).trans hz, ?_⟩
    rw [verdicts, SceneDef.displaces_iff] at after
    rw [State.holds_congr circuits]
    exact after
  · obtain ⟨mark, hp⟩ := s'.placeEach_own_scene own (x := { y with liveTier := some tier, recaller := some r })
      (by simp [s', State.recallBegun, hy])
    obtain ⟨z, hz, definition, whenRefused, whenNot, live, ended⟩ := State.recall_scene (refused := refused) hp
    rw [State.holds_congr circuits]
    refine ⟨z, e ▸ hz, definition, fun h => whenRefused (hr.2 (SceneDef.refused_iff.2 h)), fun h => whenNot ?_, live, ended⟩
    exact Bool.eq_false_iff.2 fun h' => h (SceneDef.refused_iff.1 (hr.1 h'))

end Sys2Proof.Machine
end

section
/-! SUPPORT. Removals of one origin from one circuit after another (R53, R73, R92). -/

namespace Sys2Proof.Machine

/-! ## A second removal finds nothing -/

theorem Circuit.removed_claims (master : Option Nat) (o : Origin) (x : Circuit) :
    (x.removed master o).claims = x.claims.eraseP fun k => k.origin == o := by
  unfold Circuit.removed
  split
  · rename_i absent
    exact (List.eraseP_of_forall_not (by simpa using absent)).symm
  · rfl

theorem Circuit.not_holds_removed {x : Circuit} (h : ListSound x.claims) (master : Option Nat) (o : Origin) :
    (x.removed master o).holds o = false := by
  rw [← Bool.not_eq_true, Circuit.holds_iff, Circuit.removed_claims]
  rintro ⟨k, hk, ho⟩
  exact origin_ne_of_mem_eraseP h.2 o k hk ho

theorem Circuit.removed_removed {x : Circuit} (h : ListSound x.claims) (master master' : Option Nat) (o : Origin) :
    (x.removed master o).removed master' o = x.removed master o := by
  refine Circuit.removed_of_absent (fun k hk ho => ?_) master'
  exact Bool.eq_false_iff.1 (Circuit.not_holds_removed h master o) (Circuit.holds_iff.2 ⟨k, hk, ho⟩)

theorem State.ListsSound.remove {s : State} (h : s.ListsSound) (byOther : Bool) (o : Origin) (c : Nat) :
    (s.remove byOther o c).ListsSound := ((Moves.refl s).remove byOther o c).keeps Move.listsSound h

/-! ## Removals in turn -/

/-- An origin removed from one circuit after another. -/
def State.removeEach (s : State) (byOther : Bool) (o : Origin) (ids : List Nat) : State :=
  ids.foldl (fun s c => s.remove byOther o c) s

theorem State.removeEach_cons (s : State) (byOther : Bool) (o : Origin) (c : Nat) (ids : List Nat) :
    s.removeEach byOther o (c :: ids) = (s.remove byOther o c).removeEach byOther o ids := rfl

theorem State.removeEach_onlyClaims (s : State) (byOther : Bool) (o : Origin) (ids : List Nat) :
    s.OnlyClaims (s.removeEach byOther o ids) :=
  (State.OnlyClaims.refl s).foldl ids fun _ c h => h.remove byOther o c

theorem State.removeEach_at? {s : State} (h : s.ListsSound) (byOther : Bool) (o : Origin) (ids : List Nat) (i : Nat) :
    Table.at? (s.removeEach byOther o ids).circuits i = (Table.at? s.circuits i).map fun x =>
      if i ∈ ids then x.removed (s.masterOf x.config) o else x := by
  induction ids generalizing s with
  | nil => simp [State.removeEach]
  | cons c ids ih =>
    have only := (State.OnlyClaims.refl s).remove byOther o c
    rw [State.removeEach_cons, ih (h.remove byOther o c), State.remove_at?]
    cases hx : Table.at? s.circuits i with
    | none => rfl
    | some x =>
      simp only [Option.map_some, only.masterOf]
      by_cases hc : i = c
      · subst hc
        by_cases hi : i ∈ ids <;> simp [hi, Circuit.removed_removed (h.at? hx)]
      · simp [hc]

/-- On each of its circuits a run of removals leaves what the removal alone leaves. -/
theorem State.removeEach_at?_eq {s : State} (h : s.ListsSound) (byOther : Bool) (o : Origin) (ids : List Nat) (i : Nat) :
    Table.at? (s.removeEach byOther o ids).circuits i =
      if i ∈ ids then Table.at? (s.remove byOther o i).circuits i else Table.at? s.circuits i := by
  rw [State.removeEach_at? h, State.remove_at?]
  by_cases hi : i ∈ ids <;> simp [hi]

/-- A removal of a scene's claim tells no binding. -/
theorem State.remove_scene_bindings (s : State) (byOther : Bool) (n c : Nat) :
    (s.remove byOther (.scene n) c).bindings = s.bindings := by
  have outcome := s.remove_outcome byOther (.scene n) c
  generalize s.remove byOther (.scene n) c = r at outcome
  cases outcome with
  | absent => rfl
  | taken => exact State.judgeLive_bindings ..

theorem State.removeEach_scene_bindings (s : State) (byOther : Bool) (n : Nat) (ids : List Nat) :
    (s.removeEach byOther (.scene n) ids).bindings = s.bindings := by
  induction ids generalizing s with
  | nil => rfl
  | cons c ids ih => rw [State.removeEach_cons, ih, State.remove_scene_bindings]

theorem State.removeEach_scenes_at?_ne (s : State) (byOther : Bool) {n m : Nat} (h : m ≠ n) (ids : List Nat) :
    Table.at? (s.removeEach byOther (.scene n) ids).scenes m = Table.at? s.scenes m := by
  induction ids generalizing s with
  | nil => rfl
  | cons c ids ih => rw [State.removeEach_cons, ih, State.remove_scenes_at?]; simp [Ne.symm h]

/-- A scene that has ceased to be live (R91). -/
def Scene.ended (y : Scene) : Scene := { y with liveTier := none, recaller := none }

/-- The scene whose claims are removed: it is as it was or has ended, and it has ended if it lost its last claim (R91). -/
theorem State.removeEach_own_scene (s : State) (byOther : Bool) {n : Nat} (ids : List Nat) {y : Scene}
    (hy : Table.at? s.scenes n = some y) : ∃ z, Table.at? (s.removeEach byOther (.scene n) ids).scenes n = some z ∧
      (z = y ∨ z = y.ended) ∧
      (0 < s.holds (.scene n) → (s.removeEach byOther (.scene n) ids).holds (.scene n) = 0 → z = y.ended) := by
  induction ids generalizing s y with
  | nil => exact ⟨y, hy, .inl rfl, fun held none => absurd none (Nat.ne_of_gt held)⟩
  | cons c ids ih =>
    have first := s.remove_scenes_at? byOther (.scene n) c n
    rw [hy, Option.map_some] at first
    by_cases last : s.heldOn (.scene n) c = true ∧ (s.remove byOther (.scene n) c).holds (.scene n) = 0
    · rw [if_pos ⟨last.1, rfl, last.2⟩] at first
      obtain ⟨z, hz, ends, _⟩ := ih (s.remove byOther (.scene n) c) first
      have ended : z = y.ended := ends.elim id id
      exact ⟨z, hz, .inr ended, fun _ _ => ended⟩
    · rw [if_neg fun h => last ⟨h.1, h.2.2⟩] at first
      obtain ⟨z, hz, ends, whenNone⟩ := ih (s.remove byOther (.scene n) c) first
      refine ⟨z, hz, ends, fun held => whenNone (Nat.pos_of_ne_zero fun zero => ?_)⟩
      have absent : s.heldOn (.scene n) c = false := Bool.eq_false_iff.2 fun h => last ⟨h, zero⟩
      rw [State.remove_of_not_heldOn absent] at zero
      omega

theorem State.remove_ids (s : State) (byOther : Bool) (o : Origin) (c : Nat) :
    Table.ids (s.remove byOther o c).circuits = Table.ids s.circuits := by
  have outcome := s.remove_outcome byOther o c
  generalize s.remove byOther o c = r at outcome
  cases outcome with
  | absent => rfl
  | taken => simp [State.resolve]

theorem State.removeEach_inOrder {s : State} (h : Table.InOrder s.circuits) (byOther : Bool) (o : Origin)
    (ids : List Nat) : Table.InOrder (s.removeEach byOther o ids).circuits := by
  induction ids generalizing s with
  | nil => exact h
  | cons c ids ih => exact ih (by rw [Table.InOrder, State.remove_ids]; exact h)

/-- Removals from every circuit that may hold a claim of an origin leave none of it. -/
theorem State.removeEach_holds {s : State} (h : s.ListsSound) (order : Table.InOrder s.circuits) (byOther : Bool)
    {o : Origin} {ids : List Nat} (all : ∀ c, s.heldOn o c = true → c ∈ ids) :
    (s.removeEach byOther o ids).holds o = 0 := by
  rw [State.holds_eq_zero (State.removeEach_inOrder order ..)]
  intro c
  rw [State.heldOn, State.removeEach_at? h]
  cases hx : Table.at? s.circuits c with
  | none => rfl
  | some x =>
    by_cases hc : c ∈ ids
    · simp [hc, Circuit.not_holds_removed (h.at? hx)]
    · have absent : s.heldOn o c = false := Bool.eq_false_iff.2 fun held => hc (all c held)
      rw [State.heldOn, hx] at absent
      simpa [hc] using absent

/-! ## The release of a scene -/

theorem State.releaseScene_eq {s : State} {n : Nat} {y : Scene} (hy : Table.at? s.scenes n = some y) :
    s.releaseScene n = s.removeEach true (.scene n) (y.definition.entries.map Prod.fst) := by
  rw [State.releaseScene, hy, State.removeEach, List.foldl_map]

theorem State.WithinEntries.mem {s : State} {n : Nat} {y : Scene} (h : s.WithinEntries n y) {c : Nat}
    (held : s.heldOn (.scene n) c = true) : c ∈ y.definition.entries.map Prod.fst := by
  obtain ⟨x, hx, k, hk, ho⟩ := State.heldOn_iff.1 held
  exact h (c, x) (Table.mem_of_at? hx) ⟨k, hk, ho⟩

theorem State.releaseScene_sceneEnded {s : State} (h : s.ListsSound) (order : Table.InOrder s.circuits) {n : Nat}
    {y : Scene} (hy : Table.at? s.scenes n = some y) (within : s.WithinEntries n y) :
    s.SceneEnded (s.releaseScene n) n := by
  rw [State.releaseScene_eq hy]
  have none_left := State.removeEach_holds h order true fun c => within.mem (c := c)
  obtain ⟨z, hz, _, ended⟩ := s.removeEach_own_scene true (y.definition.entries.map Prod.fst) hy
  exact ⟨none_left, fun held => ⟨z, hz, by rw [ended held none_left]; exact ⟨rfl, rfl⟩⟩⟩

end Sys2Proof.Machine
end

section
/-! SUPPORT. The actions a fired binding carries out (R66 to R70, R75 to R83, R110). -/

namespace Sys2Proof.Machine

/-! ## One contribution on each circuit of a target -/

/-- A contribution for each circuit of a list. -/
def Contribution.onEach (k : Contribution) (ids : List Nat) : List (Nat × Contribution) := ids.map fun c => (c, k)

section
variable {s : State} {k : Contribution} {ids : List Nat}

theorem Contribution.onEach_ids (k : Contribution) (ids : List Nat) : (k.onEach ids).map Prod.fst = ids := by
  simp [Contribution.onEach, Function.comp_def]

theorem Contribution.onEach_origin {e : Nat × Contribution} (he : e ∈ k.onEach ids) : e.2.origin = k.origin := by
  obtain ⟨c, _, rfl⟩ := List.mem_map.1 he
  rfl

theorem State.mem_verdicts_onEach {v : Verdict} : v ∈ s.verdicts (k.onEach ids) ↔ ∃ c ∈ ids, (s.place c k).2 = v := by
  simp [State.verdicts, Contribution.onEach]

theorem State.displaces_iff {o : Origin} :
    (∃ v ∈ s.verdicts (k.onEach ids), v.Displaces o) ↔ s.Displaces ids k o := by
  simp [State.verdicts, Contribution.onEach, Verdict.Displaces, State.Displaces]

theorem State.placeEach_placedOn (hn : ids.Nodup) : s.PlacedOn (s.placeEach (k.onEach ids)) ids k := by
  intro c
  have distinct : ((k.onEach ids).map Prod.fst).Nodup := (k.onEach_ids ids).symm ▸ hn
  by_cases hc : c ∈ ids
  · rw [if_pos hc]
    exact s.placeEach_at?_of_mem distinct (e := (c, k)) (List.mem_map_of_mem hc)
  · rw [if_neg hc]
    exact s.placeEach_at?_of_not_mem ((k.onEach_ids ids).symm ▸ hc)

end

/-! ## The judgement of a binding's marks -/

/-- A binding whose marks have been judged at the end of its firing (R69). -/
def Binding.judged (t : Tally) (x : Binding) : Binding :=
  if t.any = true then
    if t.refused = true then { x with partialMark := true } else { x with partialMark := false, displacedMark := false }
  else x

theorem State.judgeBinding_at? (s : State) (b : Nat) (t : Tally) (i : Nat) :
    Table.at? (s.judgeBinding b t).bindings i =
      (Table.at? s.bindings i).map fun x => if i = b then x.judged t else x := by
  by_cases hi : i = b <;> by_cases ha : t.any = true <;>
    simp [State.judgeBinding, Binding.judged, Table.at?_adjust, hi, ha]

theorem State.judgeBinding_at?_ne (s : State) {b i : Nat} (h : i ≠ b) (t : Tally) :
    Table.at? (s.judgeBinding b t).bindings i = Table.at? s.bindings i := by
  simp [State.judgeBinding_at?, h]

theorem State.judgeBinding_of_none {s : State} {b : Nat} {t : Tally} (h : t.any = false) : s.judgeBinding b t = s :=
  if_neg (by simp [h])

@[simp] theorem State.judgeBinding_circuits (s : State) (b : Nat) (t : Tally) :
    (s.judgeBinding b t).circuits = s.circuits := by unfold State.judgeBinding; split <;> rfl

@[simp] theorem State.judgeBinding_scenes (s : State) (b : Nat) (t : Tally) :
    (s.judgeBinding b t).scenes = s.scenes := by unfold State.judgeBinding; split <;> rfl

theorem State.OnlyClaims.judgeBinding {s t : State} (h : s.OnlyClaims t) (b : Nat) (tally : Tally) :
    s.OnlyClaims (t.judgeBinding b tally) := by
  unfold State.judgeBinding
  split
  · exact h.onBinding ..
  · exact h

/-! ## A firing whose contributions no key holds -/

theorem State.OnlyClaims.onlyLight {s t : State} (h : s.OnlyClaims t) : s.OnlyLight t :=
  ⟨by rw [h], by rw [h], by rw [h]⟩

theorem State.reached_nodup {s : State} (h : Table.InOrder s.circuits) (area : Area) : (s.reached area).Nodup := by
  cases area with
  | circuit c => exact List.nodup_singleton c
  | zone z => exact State.members_nodup h z

/-- What the placements of a firing have met. -/
def State.firingTally (s : State) (ids : List Nat) (k : Contribution) : Tally :=
  (s.verdicts (k.onEach ids)).foldl Tally.count ⟨false, false⟩

section
variable {s : State} {k : Contribution} {ids : List Nat}

theorem State.firingTally_refused :
    (s.firingTally ids k).refused = true ↔ ∃ c ∈ ids, (s.place c k).2 = .refused := by
  simp [State.firingTally, Tally.foldl_count_refused, State.mem_verdicts_onEach]

theorem State.firingTally_any :
    (s.firingTally ids k).any = true ↔ ∃ c ∈ ids, (s.place c k).2 ≠ .unconfigured := by
  simp [State.firingTally, Tally.foldl_count_any, State.mem_verdicts_onEach]

end

theorem State.firePlacing_eq {s : State} {area : Area} {k : Contribution} (hn : (s.reached area).Nodup)
    (hk : k.heldBy = none) (b : Nat) : s.firePlacing b area k =
      (s.placeEach (k.onEach (s.reached area))).judgeBinding b (s.firingTally (s.reached area) k) := by
  have distinct : ((k.onEach (s.reached area)).map Prod.fst).Nodup := (k.onEach_ids _).symm ▸ hn
  have all := s.placeAll_eq distinct
  rw [State.placeAll, Contribution.onEach, List.foldl_map] at all
  simp only [State.firePlacing, hk, State.recordHolding]
  rw [all]
  rfl

theorem State.firePlacing_fired {s : State} (order : Table.InOrder s.circuits) {b : Nat} {x : Binding}
    (hb : Table.at? s.bindings b = some x) (area : Area) {k : Contribution} (ho : k.origin = .binding b)
    (hk : k.heldBy = none) : s.Fired (s.firePlacing b area k) b x (s.reached area) k := by
  have hn := State.reached_nodup order area
  rw [State.firePlacing_eq hn hk]
  generalize s.reached area = ids at hn
  have distinct : ((k.onEach ids).map Prod.fst).Nodup := (k.onEach_ids ids).symm ▸ hn
  have own : ∀ e ∈ k.onEach ids, e.2.origin = .binding b := fun e he => (Contribution.onEach_origin he).trans ho
  let p := s.placeEach (k.onEach ids)
  have only : s.OnlyClaims (p.judgeBinding b (s.firingTally ids k)) :=
    ((State.OnlyClaims.refl s).placeEach _).judgeBinding ..
  have bindings (i : Nat) := s.placeEach_bindings_at? distinct own i
  have mine : Table.at? (p.judgeBinding b (s.firingTally ids k)).bindings b =
      some (((s.verdicts (k.onEach ids)).foldl (fun x v => x.afterPlacement (.binding b) v b) x).judged
        (s.firingTally ids k)) := by
    rw [State.judgeBinding_at?, bindings, hb]
    simp
  refine ⟨only.onlyLight, by rw [only], fun c => ?_, fun refused => ?_, fun kept placed => ?_, fun absent => ?_,
    fun i hi => ⟨fun hd => ?_, fun hd => ?_⟩, fun n hs => ?_, fun n y hs => ?_, fun _ => ⟨by rw [only], by rw [only]⟩,
    fun key _ => by rw [only]; rfl, fun key r held => ?_⟩
  · rw [State.judgeBinding_circuits]
    exact State.placeEach_placedOn hn c
  · have any : (s.firingTally ids k).any = true :=
      State.firingTally_any.2 (refused.imp fun c h => ⟨h.1, by rw [h.2]; exact nofun⟩)
    rw [mine, Binding.foldl_afterPlacement_of_refused (State.verdicts_own own) (State.mem_verdicts_onEach.2 refused)]
    simp [Binding.judged, any, State.firingTally_refused.2 refused]
  · have none_refused : .refused ∉ s.verdicts (k.onEach ids) := fun h =>
      have ⟨c, hc, hr⟩ := State.mem_verdicts_onEach.1 h
      kept c hc hr
    have not_refused : (s.firingTally ids k).refused = false :=
      Bool.eq_false_iff.2 fun h => none_refused (State.mem_verdicts_onEach.2 (State.firingTally_refused.1 h))
    rw [mine, Binding.foldl_afterPlacement_of_kept (State.verdicts_own own) (absurd · none_refused)]
    simp [Binding.judged, State.firingTally_any.2 placed, not_refused]
  · have none_placed : (s.firingTally ids k).any = false :=
      Bool.eq_false_iff.2 fun h => have ⟨c, hc, hv⟩ := State.firingTally_any.1 h; hv (absent c hc)
    rw [State.judgeBinding_of_none none_placed]
    exact s.placeEach_of_unconfigured fun e he => by obtain ⟨c, hc, rfl⟩ := List.mem_map.1 he; exact absent c hc
  · rw [State.judgeBinding_at?_ne _ hi, bindings]
    simp only [Binding.foldl_afterPlacement_of_displaced (fun e => hi (Origin.binding.inj e).symm)
      (State.displaces_iff.2 hd)]
  · have none_displaced : ∀ v ∈ s.verdicts (k.onEach ids), ¬ v.Displaces (.binding i) :=
      fun v hv h => hd (State.displaces_iff.1 ⟨v, hv, h⟩)
    rw [State.judgeBinding_at?_ne _ hi, bindings]
    simp only [Binding.foldl_afterPlacement_of_kept none_displaced fun _ e => hi (Origin.binding.inj e).symm,
      Option.map_id']
  · rw [State.judgeBinding_scenes]
    exact s.placeEach_scene_of_none _ hs
  · obtain ⟨z, hz, after⟩ := State.placeEach_other_scene order distinct own (nofun : Origin.binding b ≠ .scene n) hs
    rw [State.displaces_iff] at after
    rw [State.judgeBinding_scenes, State.holds_congr (State.judgeBinding_circuits ..)]
    exact ⟨z, hz, after⟩
  · exact absurd (hk.symm.trans held) nofun

/-! ## RAISE and LOWER -/

theorem State.masterChange_repeats {s : State} (h : Table.InOrder s.circuits) {z : Nat} {zone : Zone}
    (hz : Table.at? s.zones z = some zone) (value fade : Nat) (maker : Option Nat) :
    (s.masterChange z value fade maker).repeats = s.repeats := by
  obtain ⟨same, new⟩ := State.masterChange_masterChanged h hz value fade maker
  by_cases hv : value = zone.master
  · rw [same hv]
  · rw [(new hv).1]

/-- The repeat list after a RAISE or LOWER has fired: a key's firing restarts the record of its binding or enters one
(R78). -/
def State.repeatsFired (s : State) (b z : Nat) (upward : Bool) (n : Nat) : FiringSource → List Repeat
  | .host => s.repeats
  | .station key =>
    if ∃ r ∈ s.repeats, r.binding = b then s.repeats.map fun r => if r.binding = b then { r with timer := 100 } else r
    else s.repeats ++ [⟨b, z, upward, n, key, 100⟩]

theorem State.startRepeat_eq (s : State) (b z : Nat) (upward : Bool) (n : Nat) (key : StationInput) :
    s.startRepeat b z upward n key = s.withRepeats (s.repeatsFired b z upward n (.station key)) := by
  have known : (s.repeats.any fun r => r.binding == b) = true ↔ ∃ r ∈ s.repeats, r.binding = b := by simp
  simp only [State.startRepeat, State.repeatsFired]
  by_cases h : ∃ r ∈ s.repeats, r.binding = b
  · rw [if_pos (known.2 h), if_pos h]
  · rw [if_neg (known.not.2 h), if_neg h]

theorem State.fireRepeat_eq {s : State} (h : Table.InOrder s.circuits) {z : Nat} {zone : Zone}
    (hz : Table.at? s.zones z = some zone) (b : Nat) (upward : Bool) (n : Nat) (source : FiringSource) :
    s.fireRepeat b z upward n source = (s.masterChange z
      (if upward = true then min 1000 (zone.master + n) else zone.master - n) zone.masterFade none).withRepeats
        (s.repeatsFired b z upward n source) := by
  have step : s.stepMaster z upward n = s.masterChange z
      (if upward = true then min 1000 (zone.master + n) else zone.master - n) zone.masterFade none := by
    rw [State.stepMaster, hz]
  have repeats := State.masterChange_repeats h hz
    (if upward = true then min 1000 (zone.master + n) else zone.master - n) zone.masterFade none
  cases source with
  | host =>
    rw [State.repeatsFired, ← repeats]
    exact step
  | station key =>
    refine (State.startRepeat_eq ..).trans ?_
    rw [step, State.repeatsFired, State.repeatsFired, repeats]

theorem State.fireRepeat_masterChanged {s : State} (h : Table.InOrder s.circuits) {z : Nat} {zone : Zone}
    (hz : Table.at? s.zones z = some zone) (b : Nat) (upward : Bool) (n : Nat) (source : FiringSource) :
    s.MasterChanged { s.fireRepeat b z upward n source with repeats := s.repeats } z zone
      (if upward = true then min 1000 (zone.master + n) else zone.master - n) zone.masterFade none := by
  have same : { s.fireRepeat b z upward n source with repeats := s.repeats } = s.masterChange z
      (if upward = true then min 1000 (zone.master + n) else zone.master - n) zone.masterFade none := by
    rw [State.fireRepeat_eq h hz, ← State.masterChange_repeats h hz]
    rfl
  rw [same]
  exact State.masterChange_masterChanged h hz ..

/-! ## MODE -/

/-- What the exchange with the host knows of the mode, of notices and of the offered binding is as it was. -/
structure State.KeepsReports (s t : State) : Prop where
  mode : t.mode = s.mode
  notices : t.notices = s.notices
  offered : t.offered = s.offered

theorem State.KeepsReports.refl (s : State) : s.KeepsReports s := ⟨rfl, rfl, rfl⟩

section
variable {s t u : State}

theorem State.KeepsReports.trans (h : s.KeepsReports t) (k : t.KeepsReports u) : s.KeepsReports u :=
  ⟨k.mode.trans h.mode, k.notices.trans h.notices, k.offered.trans h.offered⟩

theorem State.OnlyClaims.keepsReports (h : s.OnlyClaims t) : s.KeepsReports t := ⟨by rw [h], by rw [h], by rw [h]⟩

theorem State.KeepsReports.foldl {α : Type} {f : State → α → State} (h : s.KeepsReports t) (xs : List α)
    (k : ∀ (u : State) x, u.KeepsReports (f u x)) : s.KeepsReports (xs.foldl f t) := by
  induction xs generalizing t with
  | nil => exact h
  | cons x xs ih => exact ih (h.trans (k t x))

end

theorem State.removeEverywhere_onlyClaims (s : State) (o : Origin) : s.OnlyClaims (s.removeEverywhere o) :=
  (State.OnlyClaims.refl s).foldl _ fun _ c h => h.remove false o c

theorem State.releaseScene_onlyClaims (s : State) (n : Nat) : s.OnlyClaims (s.releaseScene n) := by
  cases hn : Table.at? s.scenes n with
  | none => rw [State.releaseScene, hn]; exact State.OnlyClaims.refl s
  | some y => rw [State.releaseScene_eq hn]; exact s.removeEach_onlyClaims ..

theorem State.releaseLight_keepsReports (s : State) (b : Nat) : s.KeepsReports (s.releaseLight b) := by
  unfold State.releaseLight
  cases Table.at? s.bindings b with
  | none => exact .refl s
  | some x =>
    dsimp only
    have claims := (s.removeEverywhere_onlyClaims (.binding b)).keepsReports
    have scenes := claims.foldl ((s.removeEverywhere (.binding b)).recalledBy b) (f := fun s n => s.releaseScene n)
      fun u n => (u.releaseScene_onlyClaims n).keepsReports
    exact scenes.trans ⟨by simp, by simp, by simp⟩

theorem State.redormBeforeReport_keepsReports (s : State) : s.KeepsReports s.redormBeforeReport := by
  rw [State.redormBeforeReport_frame]
  exact ⟨rfl, rfl, rfl⟩

/-- Steps 2 to 4 of a mode change leave the reports as the change of the mode itself left them. -/
theorem State.changeMode_keepsReports {s : State} {m : HouseMode} (h : m ≠ s.mode) :
    (s.withMode m).KeepsReports (s.changeMode m) := by
  unfold State.changeMode
  rw [if_neg h]
  have released := (State.KeepsReports.refl (s.withMode m)).foldl ((s.withMode m).leaving s.mode m)
    (f := fun s b => s.releaseLight b) fun u b => u.releaseLight_keepsReports b
  dsimp only
  generalize ((s.withMode m).leaving s.mode m).foldl (fun s b => s.releaseLight b) (s.withMode m) = u at released
  have report (u : State) : u.KeepsReports (u.reportFeed m.requires) := ⟨rfl, rfl, rfl⟩
  split <;> split
  · exact released.trans ⟨rfl, rfl, rfl⟩
  · exact released
  · exact (released.trans u.redormBeforeReport_keepsReports).trans (report _)
  · exact released.trans (report _)

theorem modeOfNat_code (m : HouseMode) : modeOfNat m.code.toNat = some m := by cases m <;> rfl

/-- SetMode to a mode leaves what the mode change leaves. -/
theorem exec_setMode_of_code {s : State} (h : s.TakesRequests) (tag : Byte) {m : HouseMode} (hm : m ≠ s.mode) :
    exec (.setMode tag [m.code]) s = .next ((s.changeMode m).answered 1 tag .ok false []) := by
  have work : setMode [m.code] (s.taken 0x50 tag [m.code]) = .done ((s.changeMode m).taken 0x50 tag [m.code]) := by
    rw [setMode, modeOfNat_code]
    exact congrArg Work.done (State.taken_comm (f := fun s => s.changeMode m) (State.changeMode_keepsReports hm).offered
      (by simp) ..)
  exact congrArg Host.Outcome.next (h.done (by simp) work)

theorem State.fireMode_performance {s : State} (h : s.mode = .performance) (m : HouseMode) (source : FiringSource) :
    s.fireMode m source = s.raise .mode := if_pos h

theorem State.fireMode_present {s : State} (h : s.mode ≠ .performance) (source : FiringSource) :
    s.fireMode s.mode source = s := by rw [State.fireMode, if_neg h, if_pos rfl]

/-- A mode change that a binding asks for: that of SetMode, with notice MODE where a key asked (R82, R142). -/
theorem State.fireMode_other {s : State} {m : HouseMode} (h : s.mode ≠ .performance) (hm : m ≠ s.mode)
    (source : FiringSource) : s.fireMode m source = { s.changeMode m with
      notices := match source with | .station _ => { s.notices with mode := true } | .host => s.notices } := by
  rw [State.fireMode, if_neg h, if_neg hm, ← show (s.changeMode m).notices = s.notices from
    (State.changeMode_keepsReports hm).notices]
  cases source <;> rfl

end Sys2Proof.Machine
end

section
/-! SUPPORT. The firing of scenes, masters, modes and notices (R75 to R83, R110). -/

namespace Sys2Proof.Machine

/-! ## What each action does -/

section
variable {s : State} {b : Nat} {x : Binding} {source : FiringSource} {p : Option Nat} {q : Nat}

theorem State.perform_scene {n tier : Nat} (h : x.record.action = .scene n tier) :
    s.perform b x source p q = s.recall n tier (.binding b) := by simp only [State.perform, h]

theorem State.perform_sceneOff {n : Nat} (h : x.record.action = .sceneOff n) :
    s.perform b x source p q = s.releaseScene n := by simp only [State.perform, h]

theorem State.perform_master {z level : Nat} {zone : Zone} (h : x.record.action = .master z level)
    (hz : Table.at? s.zones z = some zone) :
    s.perform b x source p q = s.masterChange z level zone.masterFade none := by
  simp only [State.perform, h, State.masterFade, State.zoneRecord_of_configured hz]

theorem State.perform_raise {z n : Nat} (h : x.record.action = .raise z n) :
    s.perform b x source p q = s.fireRepeat b z true n source := by simp only [State.perform, h]

theorem State.perform_lower {z n : Nat} (h : x.record.action = .lower z n) :
    s.perform b x source p q = s.fireRepeat b z false n source := by simp only [State.perform, h]

theorem State.perform_followMaster_host {z : Nat} (h : x.record.action = .followMaster z) :
    s.perform b x .host p q = s.masterChange z q 0 (some b) := by simp only [State.perform, h, State.applyPosition]

theorem State.perform_followLevel_host {area : Area} {tier fade : Nat} (h : x.record.action = .followLevel area tier fade) :
    s.perform b x .host p q = s.firePlacing b area (bindingClaim b tier q 0 fade none) := by
  simp only [State.perform, h, State.applyPosition]

theorem State.perform_mode {m : HouseMode} (h : x.record.action = .mode m) :
    s.perform b x source p q = s.fireMode m source := by simp only [State.perform, h]

theorem State.perform_notify (h : x.record.action = .notify) : s.perform b x source p q =
    (s.onBinding b fun y => { y with notifyPending := true }).raise .notify := by simp only [State.perform, h]

end

/-- Settles O54: a firing is its action, and each action is one operation of the model. -/
theorem firingsOfScenesMastersAndModes : Obligations.FiringsOfScenesMastersAndModes := by
  intro s b x source p q idle sound tables hb t
  have order := tables.circuits
  have acts : t = s.perform b x source p (q.getD 0) := State.fire_eq_perform idle b x source p q
  refine ⟨fun n tier y ha hy sorted => ?_, fun n y ha hy => ?_, fun z level zone ha hz => ?_, fun z n zone ha hz => ?_,
    fun z zone host ha hz => ?_, fun area tier fade host ha => ?_, fun m ha => ⟨fun hp => ?_, fun hp hm => ?_,
      fun hp hm => ?_⟩, fun ha => ?_⟩
  · rw [acts, State.perform_scene ha]
    exact State.recall_recalled hy sorted tier (.binding b)
  · rw [acts, State.perform_sceneOff ha]
    refine ⟨s.releaseScene_onlyClaims n, ?_, fun c => ?_, fun m hm => ?_, ?_,
      State.releaseScene_sceneEnded sound order hy⟩ <;> rw [State.releaseScene_eq hy]
    · exact s.removeEach_scene_bindings ..
    · exact State.removeEach_at?_eq sound ..
    · exact s.removeEach_scenes_at?_ne true hm _
    · obtain ⟨z, hz, same | ended, _⟩ := s.removeEach_own_scene true (y.definition.entries.map Prod.fst) hy
      · exact ⟨z, hz, by rw [same]; exact ⟨rfl, rfl, rfl⟩⟩
      · exact ⟨z, hz, by rw [ended]; exact ⟨rfl, rfl, rfl⟩⟩
  · rw [acts, State.perform_master ha hz]
    exact State.masterChange_masterChanged order hz ..
  · rw [acts]
    rcases ha with ha | ha
    · rw [State.perform_raise ha, if_pos ha, decide_eq_true ha]
      refine ⟨State.fireRepeat_masterChanged order hz b true n source, ?_⟩
      rw [State.fireRepeat_eq order hz]
      cases source <;> rfl
    · have lowers : x.record.action ≠ .raise z n := by rw [ha]; exact nofun
      rw [State.perform_lower ha, if_neg lowers, decide_eq_false lowers]
      refine ⟨State.fireRepeat_masterChanged order hz b false n source, ?_⟩
      rw [State.fireRepeat_eq order hz]
      cases source <;> rfl
  · subst host
    rw [acts, State.perform_followMaster_host ha]
    exact State.masterChange_masterChanged order hz ..
  · subst host
    rw [acts, State.perform_followLevel_host ha]
    exact State.firePlacing_fired order hb area rfl rfl
  · rw [acts, State.perform_mode ha, State.fireMode_performance hp]
    rfl
  · rw [acts, State.perform_mode ha, hm, State.fireMode_present hp]
  · have change := State.changeMode_keepsReports hm
    rw [acts, State.perform_mode ha, State.fireMode_other hp hm]
    refine ⟨change.mode, rfl, fun take tag => ?_⟩
    rw [exec_setMode_of_code take tag hm, ← show (s.changeMode m).notices = s.notices from change.notices]
  · rw [acts, State.perform_notify ha]
    rfl

end Sys2Proof.Machine
end

section
/-! SUPPORT. What the Transition Unit's operations leave of a circuit's fields, an equation for each case (R26 to R37), and
the fade and output arithmetic (R26, R28, R29). -/

namespace Sys2Proof.Machine

/-! ## Fade and output -/

theorem fadeLevel_rising {d0 e : Nat} (h : d0 ≤ e) (k n : Nat) : fadeLevel d0 e k n = d0 + (e - d0) * k / n := by
  have quotient : Int.tdiv (((e : Int) - d0) * k) n = ((e - d0) * k / n : Nat) := by
    rw [← Int.ofNat_sub h, ← Int.natCast_mul, ← Int.ofNat_tdiv]
  rw [fadeLevel, quotient, ← Int.natCast_add, Int.toNat_natCast]

theorem fadeLevel_falling {d0 e : Nat} (h : e ≤ d0) (k n : Nat) : fadeLevel d0 e k n = d0 - (d0 - e) * k / n := by
  have negated : ((e : Int) - d0) * k = -(((d0 - e) * k : Nat) : Int) := by
    rw [Int.natCast_mul, Int.ofNat_sub h, ← Int.neg_mul, Int.neg_sub]
  have quotient : Int.tdiv (((e : Int) - d0) * k) n = -(((d0 - e) * k / n : Nat) : Int) := by
    rw [negated, Int.neg_tdiv, ← Int.ofNat_tdiv]
  rw [fadeLevel, quotient]
  generalize (d0 - e) * k / n = q
  omega

/-- A part of a distance that a fade has covered is at most the distance. -/
theorem mul_div_le_of_le {k n : Nat} (h : k ≤ n) (d : Nat) : d * k / n ≤ d :=
  Nat.div_le_of_le_mul (by rw [Nat.mul_comm n]; exact Nat.mul_le_mul_left d h)

/-- At each step the level lies between the ends of its fade (R26). -/
theorem fadeLevel_between (d0 e : Nat) {k n : Nat} (h : k ≤ n) :
    min d0 e ≤ fadeLevel d0 e k n ∧ fadeLevel d0 e k n ≤ max d0 e := by
  rcases Nat.le_total d0 e with rising | falling
  · have part := mul_div_le_of_le h (e - d0)
    rw [fadeLevel_rising rising]
    generalize (e - d0) * k / n = q at part ⊢
    omega
  · have part := mul_div_le_of_le h (d0 - e)
    rw [fadeLevel_falling falling]
    generalize (d0 - e) * k / n = q at part ⊢
    omega

/-- A fade ends at its fade end (R26). -/
theorem fadeLevel_last (d0 e : Nat) {n : Nat} (hn : 0 < n) : fadeLevel d0 e n n = e := by
  rcases Nat.le_total d0 e with rising | falling
  · rw [fadeLevel_rising rising, Nat.mul_div_cancel _ hn]
    omega
  · rw [fadeLevel_falling falling, Nat.mul_div_cancel _ hn]
    omega

section
variable {c : CircuitConfig} {t : Transition}

theorem outputLevel_of_switched (h : c.kind = .switched) :
    outputLevel c t = if c.threshold ≤ t.level then 1000 else 0 := if_pos h

theorem outputLevel_of_egress (h : c.kind ≠ .switched) (he : t.egressFlag = true) : outputLevel c t = t.level := by
  simp [outputLevel, h, he]

theorem outputLevel_of_dark (h : c.kind ≠ .switched) (he : t.egressFlag = false) (hl : t.level = 0) :
    outputLevel c t = 0 := by simp [outputLevel, h, he, hl]

theorem outputLevel_of_lit (h : c.kind ≠ .switched) (he : t.egressFlag = false) (hl : 0 < t.level) :
    outputLevel c t = c.minTrim + t.level * (c.maxTrim - c.minTrim) / 1000 := by
  simp [outputLevel, h, he, Nat.ne_of_gt hl]

/-- Without the egress flag the output is 0 or between the trims (R28). -/
theorem outputLevel_trimmed (h : c.kind ≠ .switched) (he : t.egressFlag = false) (hm : c.minTrim < c.maxTrim)
    (hl : t.level ≤ 1000) : outputLevel c t = 0 ∨ c.minTrim ≤ outputLevel c t ∧ outputLevel c t ≤ c.maxTrim := by
  rcases Nat.eq_zero_or_pos t.level with dark | lit
  · exact .inl (outputLevel_of_dark h he dark)
  · have part := mul_div_le_of_le hl (c.maxTrim - c.minTrim)
    rw [Nat.mul_comm] at part
    rw [outputLevel_of_lit h he lit]
    omega

theorem outputLevel_le (hm : c.minTrim < c.maxTrim) (hx : c.maxTrim ≤ 1000) (hl : t.level ≤ 1000) :
    outputLevel c t ≤ 1000 := by
  by_cases h : c.kind = .switched
  · rw [outputLevel_of_switched h]
    split <;> omega
  · cases he : t.egressFlag with
    | true => rwa [outputLevel_of_egress h he]
    | false => rcases outputLevel_trimmed h he hm hl with dark | ⟨_, bound⟩ <;> omega

end

/-- Settles O18: the fade arithmetic in its two directions, and the output level in its cases. -/
theorem fadeAndOutputArithmetic : Obligations.FadeAndOutputArithmetic := by
  refine ⟨⟨fun t e tenths => ⟨rfl, rfl, rfl, rfl, rfl⟩, fun d0 e k n hn hk => ?_⟩, fun c t => ?_⟩
  · obtain ⟨low, high⟩ := fadeLevel_between d0 e hk
    exact ⟨fun rising => fadeLevel_rising rising k n, fun falling => fadeLevel_falling falling k n, low, high,
      fadeLevel_last d0 e hn⟩
  · exact ⟨outputLevel_of_switched, outputLevel_of_egress, outputLevel_of_dark, outputLevel_of_lit,
      fun hm hx hl => ⟨outputLevel_le hm hx hl, fun h he => outputLevel_trimmed h he hm hl⟩⟩

/-! ## Handovers -/

section
variable (c : CircuitConfig) (target : Nat) (egress : Bool) (tenths : Nat) {t : Transition}

/-- A handover touches neither the drive level, the feed, the relay flag nor the block timer, and recomputes the output (R27,
R30). -/
theorem Transition.handover_frame (t : Transition) :
    let u := t.handover c target egress tenths
    u = { t with
      phase := u.phase, target := target, egressFlag := egress, origin := u.origin, fadeEnd := u.fadeEnd,
      stepCount := u.stepCount, stepTotal := u.stepTotal, pendingTransfer := u.pendingTransfer,
      output := outputLevel c u } := by
  unfold Transition.handover
  cases t.phase with
  | block => rfl
  | steady => dsimp only; split <;> rfl
  | fading => dsimp only; split <;> rfl
  | downslope => cases egress <;> rfl
  | upslope => cases egress <;> rfl

theorem Transition.handover_relay (t : Transition) : (t.handover c target egress tenths).relay = t.relay := by
  rw [t.handover_frame c target egress tenths]

theorem Transition.handover_blockTimer (t : Transition) :
    (t.handover c target egress tenths).blockTimer = t.blockTimer := by
  rw [t.handover_frame c target egress tenths]

theorem Transition.handover_arrived (hp : t.phase = .steady ∨ t.phase = .fading) (ht : target = t.level) :
    t.handover c target egress tenths =
      .refresh c { t with target := target, egressFlag := egress, phase := .steady } := by
  rcases hp with hp | hp <;> simp [Transition.handover, hp, ht]

theorem Transition.handover_fades (hp : t.phase = .steady ∨ t.phase = .fading) (ht : target ≠ t.level) :
    t.handover c target egress tenths =
      .refresh c { t.beginFade target tenths with target := target, egressFlag := egress, phase := .fading } := by
  rcases hp with hp | hp <;> simp [Transition.handover, hp, ht, Transition.beginFade]

/-- In DOWNSLOPE and BLOCK without EGRESS, and in BLOCK with it, the phase goes on (R35, R36, R37). -/
theorem Transition.handover_goesOn (hp : t.phase = .downslope ∧ egress = false ∨ t.phase = .block) :
    t.handover c target egress tenths = .refresh c { t with target := target, egressFlag := egress } := by
  rcases hp with ⟨hp, he⟩ | hp
  · simp [Transition.handover, hp, he]
  · simp [Transition.handover, hp]

/-- EGRESS abandons a downslope, and the transfer is pending (R37). -/
theorem Transition.handover_abandons (hp : t.phase = .downslope) :
    t.handover c target true tenths =
      .refresh c { t.beginFade target tenths with
        target := target, egressFlag := true, phase := .fading, pendingTransfer := some t.feed.other } := by
  simp [Transition.handover, hp, Transition.beginFade]

theorem Transition.handover_restarts (hp : t.phase = .upslope) :
    t.handover c target false tenths =
      .refresh c { t.beginFade target c.upslope with target := target, egressFlag := false } := by
  simp [Transition.handover, hp, Transition.beginFade]

theorem Transition.handover_overrides (hp : t.phase = .upslope) :
    t.handover c target true tenths =
      .refresh c { t.beginFade target tenths with target := target, egressFlag := true, phase := .fading } := by
  simp [Transition.handover, hp, Transition.beginFade]

end

/-- Settles O19: the frame of a handover, and its equation in each phase. -/
theorem handoverByPhase : Obligations.HandoverByPhase := by
  intro c t target tenths egress u fade goesOn
  have frame := t.handover_frame c target egress tenths
  refine ⟨congrArg Transition.target frame, congrArg Transition.egressFlag frame, congrArg Transition.output frame,
    t.handover_level .., t.handover_feed .., t.handover_relay .., t.handover_blockTimer ..,
    fun hp ht => ?_, fun hp ht => ?_, fun hp he => ?_, fun hp he => ?_, fun hp => ?_, fun hp he => ?_, fun hp he => ?_⟩
  · simp only [u, Transition.handover_arrived c target egress tenths hp ht]
    exact ⟨rfl, rfl⟩
  · simp only [fade, u, Transition.handover_fades c target egress tenths hp ht]
    exact ⟨rfl, rfl, rfl, rfl, rfl, rfl⟩
  · simp only [goesOn, u, Transition.handover_goesOn c target egress tenths (.inl ⟨hp, he⟩)]
    rfl
  · subst he
    simp only [fade, u, Transition.handover_abandons c target tenths hp]
    exact ⟨rfl, rfl, rfl, rfl, rfl, rfl⟩
  · simp only [goesOn, u, Transition.handover_goesOn c target egress tenths (.inr hp)]
    rfl
  · subst he
    simp only [fade, u, Transition.handover_restarts c target tenths hp]
    exact ⟨hp, rfl, rfl, rfl, rfl, rfl⟩
  · subst he
    simp only [fade, u, Transition.handover_overrides c target tenths hp]
    exact ⟨rfl, rfl, rfl, rfl, rfl, rfl⟩

end Sys2Proof.Machine
end

section
/-! SUPPORT. The steps of the step timer and the end of a BLOCK, an equation for each case (R25, R26, R33, R34). -/

namespace Sys2Proof.Machine

theorem State.whileRunning_of_running {s : State} (h : s.power = .running) (f : State → State) :
    s.whileRunning f = f s := if_pos h

/-! ## Steps of the step timer -/

/-- The next step of a fade, with its drive level (R26). -/
def Transition.advanced (t : Transition) : Transition :=
  { t with
    stepCount := t.stepCount + 1, level := fadeLevel t.origin t.fadeEnd (t.stepCount + 1) t.stepTotal }

theorem CircuitPhase.moves_iff {p : CircuitPhase} : p.moves = true ↔ p = .fading ∨ p = .downslope ∨ p = .upslope := by
  cases p <;> simp [CircuitPhase.moves]

theorem CircuitPhase.moves_eq_false {p : CircuitPhase} : p.moves = false ↔ p = .steady ∨ p = .block := by
  cases p <;> simp [CircuitPhase.moves]

section
variable {c : CircuitConfig} {t : Transition}

theorem Transition.step_rests (h : t.phase.moves = false) : t.step c = .refresh c t := by simp [Transition.step, h]

theorem Transition.step_goesOn (h : t.phase.moves = true) (hn : t.stepCount + 1 < t.stepTotal) :
    t.step c = .refresh c t.advanced := by simp [Transition.step, h, hn, Transition.advanced]

theorem Transition.step_arrives (h : t.phase.moves = true) (hn : t.stepTotal ≤ t.stepCount + 1)
    (hp : t.phase ≠ .downslope) : t.step c = .refresh c { t.advanced with phase := .steady } := by
  simp [Transition.step, h, Nat.not_lt.2 hn, hp, Transition.advanced]

theorem Transition.step_blocks (hp : t.phase = .downslope) (hn : t.stepTotal ≤ t.stepCount + 1) :
    t.step c = t.advanced.beginBlock c t.feed.other := by
  simp [Transition.step, CircuitPhase.moves, hp, Nat.not_lt.2 hn, Transition.advanced]

/-- What a step can do to the phase (R25). -/
inductive Transition.Stepped (c : CircuitConfig) (t : Transition) : Transition → Prop
  | rests (h : t.phase.moves = false) : Stepped c t (.refresh c t)
  | goesOn (h : t.phase.moves = true) (hn : t.stepCount + 1 < t.stepTotal) : Stepped c t (.refresh c t.advanced)
  | arrives (h : t.phase.moves = true) (hp : t.phase ≠ .downslope) :
      Stepped c t (.refresh c { t.advanced with phase := .steady })
  | blocks (hp : t.phase = .downslope) : Stepped c t (t.advanced.beginBlock c t.feed.other)

theorem Transition.step_stepped (c : CircuitConfig) (t : Transition) : t.Stepped c (t.step c) := by
  cases h : t.phase.moves with
  | false => exact Transition.step_rests h ▸ .rests h
  | true =>
    by_cases hn : t.stepCount + 1 < t.stepTotal
    · exact Transition.step_goesOn h hn ▸ .goesOn h hn
    · by_cases hp : t.phase = .downslope
      · exact Transition.step_blocks hp (Nat.not_lt.1 hn) ▸ .blocks hp
      · exact Transition.step_arrives h (Nat.not_lt.1 hn) hp ▸ .arrives h hp

theorem Transition.step_output (c : CircuitConfig) (t : Transition) : (t.step c).output = outputLevel c (t.step c) := by
  have outcome := t.step_stepped c
  generalize t.step c = u at outcome
  cases outcome <;> rfl

end

/-- Settles O20: each circuit takes the step of its transition fields, by the equation of its case. -/
theorem stepTimerTakesOneStep : Obligations.StepTimerTakesOneStep := by
  intro s running
  refine ⟨s.stepExpiry, congrArg Host.Outcome.next (State.whileRunning_of_running running _), rfl,
    fun c hx => by rw [State.stepExpiry_at?, hx]; rfl, fun c x hx => ?_⟩
  refine ⟨x.transition.step x.config, by rw [State.stepExpiry_at?, hx]; rfl, x.transition.step_output x.config,
    fun rests => ?_, fun moves => ⟨fun goesOn => ?_, fun last hp => ?_, fun last hp => ?_⟩⟩
  · rw [Transition.step_rests (CircuitPhase.moves_eq_false.2 rests)]
    rfl
  · rw [Transition.step_goesOn (CircuitPhase.moves_iff.2 moves) goesOn]
    rfl
  · rw [Transition.step_arrives (CircuitPhase.moves_iff.2 moves) last hp]
    rfl
  · rw [Transition.step_blocks hp last]
    rfl

/-! ## The end of a BLOCK -/

/-- A circuit that has left BLOCK on the feed it was bound for, with the required feed pending where that is another
(R33, R34). -/
def Transition.onDestination (required : Feed) (t : Transition) : Transition :=
  { t with
    feed := t.feed.other, blockTimer := none,
    pendingTransfer := if required = t.feed.other then t.pendingTransfer else some required }

section
variable {c : CircuitConfig} {required : Feed} {ready : Bool} {t : Transition}

theorem Transition.endBlock_blocks (hf : required ≠ t.feed.other) (hr : ready = true) : t.endBlock c required ready =
    Transition.beginBlock c required { t with feed := t.feed.other, blockTimer := none } := by
  simp [Transition.endBlock, hf, hr]

theorem Transition.endBlock_eq_onDestination (h : required = t.feed.other ∨ ready = false) :
    t.endBlock c required ready = .refresh c
      (if t.egressFlag then { (t.onDestination required).beginFade t.target 0 with phase := .fading }
        else { (t.onDestination required).beginFade t.target c.upslope with phase := .upslope }) := by
  have noBlock : ¬ (required ≠ t.feed.other ∧ ready = true) := by
    rintro ⟨hf, hr⟩
    exact h.elim hf (by simp [hr])
  have pending : (if required ≠ t.feed.other then
      { t with feed := t.feed.other, blockTimer := none, pendingTransfer := some required }
      else { t with feed := t.feed.other, blockTimer := none }) = t.onDestination required := by
    by_cases hf : required = t.feed.other <;> simp [Transition.onDestination, hf]
  simp only [Transition.endBlock, noBlock, if_false, pending]
  cases he : t.egressFlag <;> simp [Transition.onDestination, he]

/-- What the end of a BLOCK can do (R33, R34). -/
theorem Transition.endBlock_cases (c : CircuitConfig) (required : Feed) (ready : Bool) (t : Transition) :
    t.endBlock c required ready = Transition.beginBlock c required { t with feed := t.feed.other, blockTimer := none } ∨
    t.endBlock c required ready = .refresh c { (t.onDestination required).beginFade t.target 0 with phase := .fading } ∨
    t.endBlock c required ready =
      .refresh c { (t.onDestination required).beginFade t.target c.upslope with phase := .upslope } := by
  by_cases h : required ≠ t.feed.other ∧ ready = true
  · exact .inl (Transition.endBlock_blocks h.1 h.2)
  · have h : required = t.feed.other ∨ ready = false := by simpa [or_iff_not_imp_left] using h
    rw [Transition.endBlock_eq_onDestination h]
    cases t.egressFlag
    · exact .inr (.inr rfl)
    · exact .inr (.inl rfl)

end

theorem State.blockExpiry_at? (s : State) (c i : Nat) :
    Table.at? (s.blockExpiry c).circuits i = (Table.at? s.circuits i).map fun x =>
      if i = c ∧ x.transition.phase = .block then
        { x with transition := x.transition.endBlock x.config s.requiredFeed (s.transferReady x.config s.requiredFeed) }
      else x := by
  by_cases h : i = c
  · subst h
    simp only [State.blockExpiry, State.onTransition, State.onCircuit_circuits, Table.at?_adjust_self, true_and]
    congr 1
    funext x
    split <;> rfl
  · simp [State.blockExpiry, State.onTransition, Table.at?_adjust, h]

/-- Settles O21: a circuit in BLOCK ends it by the equation of its case, and no other circuit changes. -/
theorem blockTimerEndsTheBlock : Obligations.BlockTimerEndsTheBlock := by
  intro s c running
  refine ⟨s.blockExpiry c, congrArg Host.Outcome.next (State.whileRunning_of_running running _), rfl,
    fun i hi => by simp [State.blockExpiry_at?, hi], fun hx => by simp [State.blockExpiry_at?, hx], fun x hx => ?_⟩
  have here := s.blockExpiry_at? c c
  rw [hx, Option.map_some] at here
  by_cases hp : x.transition.phase = .block
  · rw [if_pos ⟨rfl, hp⟩] at here
    refine ⟨_, here, fun other => absurd hp other, fun _ => ?_⟩
    intro feed rackOnline
    have ready : s.transferReady x.config s.requiredFeed = true ↔ s.latchCopy = false ∧ rackOnline :=
      State.transferReady_iff.trans (and_congr_right fun _ => State.feedOnline_iff)
    generalize s.transferReady x.config s.requiredFeed = r at ready
    by_cases again : s.requiredFeed ≠ feed ∧ r = true
    · rw [Transition.endBlock_blocks again.1 again.2]
      obtain ⟨clear, online⟩ := ready.1 again.2
      refine ⟨rfl, rfl, rfl, rfl, fun _ _ _ => ⟨rfl, rfl, rfl, rfl, rfl⟩, fun h => ?_⟩
      simp [again.1, clear, online] at h
    · have ends : s.requiredFeed = feed ∨ r = false := by simpa [or_iff_not_imp_left] using again
      rw [Transition.endBlock_eq_onDestination ends]
      cases he : x.transition.egressFlag <;>
        exact ⟨rfl, rfl, rfl, he, fun hf clear online => absurd ⟨hf, ready.2 ⟨clear, online⟩⟩ again,
          fun _ => ⟨rfl, rfl, rfl, rfl, rfl, rfl, rfl, rfl, rfl⟩⟩
  · rw [if_neg fun h => hp h.2] at here
    exact ⟨x.transition, here, fun _ => rfl, fun block => absurd block hp⟩

end Sys2Proof.Machine
end

section
/-! SUPPORT. The block timers and the parts of a transfer: what happens to one circuit keeps them sound, and so does every
move (R24, R31, R33, R41). -/

namespace Sys2Proof.Machine

/-! ## The report of a required feed -/

section
variable (c : CircuitConfig) (required : Feed) (ready : Bool) {t : Transition}

theorem Transition.feedReport_of_mayTransfer (h : t.phase.mayTransfer = true) : t.feedReport c required ready =
    if required = t.feed then { t with pendingTransfer := none } else t.need c ready required := by
  cases hp : t.phase <;> simp_all [Transition.feedReport, CircuitPhase.mayTransfer]

theorem Transition.feedReport_of_downslope (h : t.phase = .downslope) : t.feedReport c required ready =
    if required = t.feed then .refresh c { t.beginFade t.target c.upslope with phase := .fading } else t := by
  simp [Transition.feedReport, h]

theorem Transition.feedReport_of_block (h : t.phase = .block) : t.feedReport c required ready = t := by
  simp [Transition.feedReport, h]

/-- What the report of a required feed can do (R38). -/
inductive Transition.Reported (c : CircuitConfig) (required : Feed) (t : Transition) : Transition → Prop
  | kept : Reported c required t t
  | satisfied : Reported c required t { t with pendingTransfer := none }
  | waits : Reported c required t { t with pendingTransfer := some required }
  | begins (h : t.phase.mayTransfer = true) : Reported c required t (t.beginTransfer c)
  | returns (h : t.phase = .downslope) :
      Reported c required t (.refresh c { t.beginFade t.target c.upslope with phase := .fading })

theorem Transition.feedReport_reported (t : Transition) : t.Reported c required (t.feedReport c required ready) := by
  cases hp : t.phase with
  | block =>
    rw [t.feedReport_of_block c required ready hp]
    exact .kept
  | downslope =>
    rw [t.feedReport_of_downslope c required ready hp]
    split
    · exact .returns hp
    · exact .kept
  | _ =>
    have may : t.phase.mayTransfer = true := by rw [hp]; rfl
    rw [t.feedReport_of_mayTransfer c required ready may]
    split
    · exact .satisfied
    · cases ready
      · exact .waits
      · exact .begins may

end

/-! ## Block timers -/

/-- The block timer runs in BLOCK and in no other phase (R24). -/
def Transition.BlockTimed (t : Transition) : Prop := t.phase = .block ↔ t.blockTimer.isSome = true

theorem Transition.BlockTimed.of_idle {t : Transition} (hp : t.phase ≠ .block) (ht : t.blockTimer = none) :
    t.BlockTimed := by simp [Transition.BlockTimed, hp, ht]

section
variable {t : Transition} (h : t.BlockTimed)
include h

theorem Transition.BlockTimed.timer_none (hp : t.phase ≠ .block) : t.blockTimer = none := by
  simpa [hp] using h.not.1 hp

theorem Transition.BlockTimed.handover (c : CircuitConfig) (target : Nat) (egress : Bool) (tenths : Nat) :
    (t.handover c target egress tenths).BlockTimed := by
  have phase : (t.handover c target egress tenths).phase = .block ↔ t.phase = .block := by
    unfold Transition.handover
    cases hp : t.phase with
    | block => simp [Transition.refresh]
    | steady => dsimp only; split <;> simp [Transition.refresh]
    | fading => dsimp only; split <;> simp [Transition.refresh]
    | downslope => cases egress <;> simp [Transition.refresh]
    | upslope => cases egress <;> simp [Transition.refresh, Transition.beginFade]
  rw [Transition.BlockTimed, phase, t.handover_blockTimer]
  exact h

theorem Transition.BlockTimed.step (c : CircuitConfig) : (t.step c).BlockTimed := by
  have outcome := t.step_stepped c
  generalize t.step c = u at outcome
  cases outcome with
  | rests => exact h
  | goesOn => exact h
  | arrives hm =>
    have idle : t.phase ≠ .block := fun hp => by simp [hp, CircuitPhase.moves] at hm
    exact .of_idle (by simp [Transition.refresh]) (h.timer_none idle)
  | blocks => simp [Transition.BlockTimed, Transition.beginBlock, Transition.refresh]

theorem Transition.BlockTimed.beginTransfer (may : t.phase.mayTransfer = true) (c : CircuitConfig) :
    (t.beginTransfer c).BlockTimed := by
  have idle : t.phase ≠ .block := fun hp => by simp [hp, CircuitPhase.mayTransfer] at may
  exact .of_idle (by simp [Transition.beginTransfer_eq]) (h.timer_none idle)

theorem Transition.BlockTimed.feedReport (c : CircuitConfig) (required : Feed) (ready : Bool) :
    (t.feedReport c required ready).BlockTimed := by
  have outcome := t.feedReport_reported c required ready
  generalize t.feedReport c required ready = u at outcome
  cases outcome with
  | kept => exact h
  | satisfied => exact h
  | waits => exact h
  | begins may => exact h.beginTransfer may c
  | returns hp => exact .of_idle (by simp [Transition.refresh]) (h.timer_none (by simp [hp]))

end

theorem Transition.endBlock_blockTimed (c : CircuitConfig) (required : Feed) (ready : Bool) (t : Transition) :
    (t.endBlock c required ready).BlockTimed := by
  rcases t.endBlock_cases c required ready with e | e | e <;> rw [e]
  · simp [Transition.BlockTimed, Transition.beginBlock, Transition.refresh]
  · exact .of_idle (by simp [Transition.refresh]) rfl
  · exact .of_idle (by simp [Transition.refresh]) rfl

theorem CircuitStep.blockTimed {x y : Circuit} (h : CircuitStep x y) (hx : x.transition.BlockTimed) :
    y.transition.BlockTimed := by
  induction h with
  | trans _ _ ih₁ ih₂ => exact ih₂ (ih₁ hx)
  | resolve => exact hx.handover ..
  | step => exact hx.step _
  | begin x may => exact hx.beginTransfer may _
  | feedReport => exact hx.feedReport ..
  | endBlock => exact Transition.endBlock_blockTimed ..
  | tick x => simpa [Transition.BlockTimed, Circuit.tick, tickDown] using hx
  | _ => exact hx

theorem Circuit.atStart_blockTimed (required : Feed) (c : CircuitConfig) :
    (Circuit.atStart required c).transition.BlockTimed := .of_idle (by simp [Circuit.atStart, Transition.fresh]) rfl

theorem Transition.BlockTimed.reconfigured {t : Transition} (h : t.BlockTimed) (old new : CircuitConfig) :
    (t.reconfigured old new).BlockTimed := by
  rw [Transition.reconfigured_eq]
  split <;> exact h

theorem State.BlockTimersSound.onCircuit {s : State} (h : s.BlockTimersSound) (c : Nat) {f : Circuit → Circuit}
    (hf : ∀ x, x.transition.BlockTimed → (f x).transition.BlockTimed) : (s.onCircuit c f).BlockTimersSound :=
  Table.forall_mem_adjust (p := fun (e : Nat × Circuit) => e.2.transition.BlockTimed) h hf

theorem Move.blockTimersSound {s t : State} (m : Move s t) (h : s.BlockTimersSound) : t.BlockTimersSound := by
  cases m with
  | plain e =>
    have circuits : t.circuits = s.circuits := congrArg Prod.fst e
    exact fun e he => h e (circuits ▸ he)
  | circuit c f hf => exact h.onCircuit c fun x => (hf x).blockTimed
  | circuits f hf =>
    exact Table.forall_mem_mapAll (p := fun (e : Nat × Circuit) => e.2.transition.BlockTimed) h
      fun i x => (hf i x).blockTimed
  | claim c => exact h.onCircuit c fun _ hx => hx
  | newCircuit c cfg =>
    exact Table.forall_mem_put (p := fun (e : Nat × Circuit) => e.2.transition.BlockTimed) h
      (Circuit.atStart_blockTimed .house cfg)
  | reconfigure c x new => exact h.onCircuit c fun y hy => hy.reconfigured y.config new
  | dropCircuit c => exact Table.forall_mem_remove h c
  | unit l => cases l <;> exact h
  | load cause =>
    intro e he
    obtain ⟨_, _, rfl⟩ := List.mem_map.1 he
    exact Circuit.atStart_blockTimed ..
  | _ => exact h

/-! ## Feeds and relays -/

/-- The fields of a circuit that takes no part in a transfer, on its house feed (R24). -/
def Transition.NoTransfer (t : Transition) : Prop :=
  t.feed = .house ∧ t.pendingTransfer = none ∧ t.relay = none ∧ t.phase.inTransfer = false

/-- A TRANSFER circuit has a relay flag; another takes no part in a transfer (R24, R31). -/
def Circuit.FeedSound (x : Circuit) : Prop :=
  (x.config.kind = .transfer → x.transition.relay.isSome = true) ∧ (x.config.kind ≠ .transfer → x.transition.NoTransfer)

section
variable {t : Transition}

theorem Transition.NoTransfer.handover (h : t.NoTransfer) (c : CircuitConfig) (target : Nat) (egress : Bool)
    (tenths : Nat) : (t.handover c target egress tenths).NoTransfer := by
  obtain ⟨feed, pending, relay, settled⟩ := h
  refine ⟨(t.handover_feed ..).trans feed, ?_, (t.handover_relay ..).trans relay, t.handover_settled _ _ _ _ settled⟩
  have resting : t.phase = .steady ∨ t.phase = .fading := by
    cases hp : t.phase <;> simp_all [CircuitPhase.inTransfer]
  by_cases arrived : target = t.level
  · rw [t.handover_arrived c target egress tenths resting arrived]
    exact pending
  · rw [t.handover_fades c target egress tenths resting arrived]
    exact pending

theorem Transition.NoTransfer.step (h : t.NoTransfer) (c : CircuitConfig) : (t.step c).NoTransfer := by
  obtain ⟨feed, pending, relay, settled⟩ := h
  have outcome := t.step_stepped c
  generalize t.step c = u at outcome
  cases outcome with
  | rests => exact ⟨feed, pending, relay, settled⟩
  | goesOn => exact ⟨feed, pending, relay, settled⟩
  | arrives => exact ⟨feed, pending, relay, rfl⟩
  | blocks hp => simp [hp, CircuitPhase.inTransfer] at settled

theorem Transition.step_relay (h : t.relay.isSome = true) (c : CircuitConfig) : (t.step c).relay.isSome = true := by
  have outcome := t.step_stepped c
  generalize t.step c = u at outcome
  cases outcome with
  | blocks => rfl
  | _ => exact h

theorem Transition.feedReport_relay (c : CircuitConfig) (required : Feed) (ready : Bool) (t : Transition) :
    (t.feedReport c required ready).relay = t.relay := by
  have outcome := t.feedReport_reported c required ready
  generalize t.feedReport c required ready = u at outcome
  cases outcome <;> rfl

theorem Transition.endBlock_relay (h : t.relay.isSome = true) (c : CircuitConfig) (required : Feed) (ready : Bool) :
    (t.endBlock c required ready).relay.isSome = true := by
  rcases t.endBlock_cases c required ready with e | e | e <;> rw [e]
  · rfl
  · exact h
  · exact h

end

theorem CircuitStep.feedSound {x y : Circuit} (h : CircuitStep x y) (hx : x.FeedSound) : y.FeedSound := by
  induction h with
  | trans _ _ ih₁ ih₂ => exact ih₂ (ih₁ hx)
  | resolve x master =>
    exact ⟨fun k => (congrArg _ (x.transition.handover_relay ..)).trans (hx.1 k), fun k => (hx.2 k).handover ..⟩
  | step x => exact ⟨fun k => Transition.step_relay (hx.1 k) _, fun k => (hx.2 k).step _⟩
  | begin x _ either =>
    refine ⟨hx.1, fun k => ?_⟩
    obtain ⟨_, pending, _⟩ := hx.2 k
    simp [pending] at either
    exact absurd either k
  | pend x dest kind => exact ⟨hx.1, fun k => absurd kind k⟩
  | feedReport x required ready kind =>
    exact ⟨fun k => (congrArg _ (x.transition.feedReport_relay ..)).trans (hx.1 k), fun k => absurd kind k⟩
  | endBlock x required ready block =>
    refine ⟨fun k => Transition.endBlock_relay (hx.1 k) .., fun k => ?_⟩
    obtain ⟨_, _, _, settled⟩ := hx.2 k
    simp [block, CircuitPhase.inTransfer] at settled
  | _ => exact hx

theorem Circuit.atStart_feedSound (required : Feed) (c : CircuitConfig) : (Circuit.atStart required c).FeedSound := by
  by_cases k : c.kind = .transfer <;>
    simp [Circuit.FeedSound, Circuit.atStart, Transition.fresh, Transition.NoTransfer, CircuitPhase.inTransfer, k]

/-- A new configuration that may change the kind only outside a transfer (R2, R3, R41). -/
theorem Circuit.FeedSound.reconfigured {x : Circuit} (h : x.FeedSound) {new : CircuitConfig}
    (free : x.transition.phase.inTransfer = false ∨ x.config.kind = new.kind) :
    Circuit.FeedSound { x with config := new, transition := x.transition.reconfigured x.config new } := by
  rw [Circuit.FeedSound, Transition.reconfigured_eq]
  by_cases both : new.kind = .transfer ∧ x.config.kind = .transfer
  · rw [if_pos both]
    exact ⟨fun _ => h.1 both.2, fun k => absurd both.1 k⟩
  · rw [if_neg both]
    refine ⟨fun (k : new.kind = .transfer) => by simp [k], fun (k : new.kind ≠ .transfer) => ⟨rfl, rfl, by simp [k], ?_⟩⟩
    rcases free with settled | kind
    · exact settled
    · obtain ⟨_, _, _, settled⟩ := h.2 (kind ▸ k)
      exact settled

theorem State.FeedsSound.onCircuit {s : State} (h : s.FeedsSound) (c : Nat) {f : Circuit → Circuit}
    (hf : ∀ x, (c, x) ∈ s.circuits → x.FeedSound → (f x).FeedSound) : (s.onCircuit c f).FeedsSound := by
  intro e he
  obtain ⟨e', he', rfl⟩ := List.mem_map.1 he
  split
  · rename_i hc
    exact hf _ (hc ▸ he') (h e' he')
  · exact h e' he'

/-- In order, a circuit that is configured again is the one that was read (R3). -/
theorem Move.feedsSound {s t : State} (m : Move s t) (order : s.TablesInOrder) (h : s.FeedsSound) : t.FeedsSound := by
  cases m with
  | plain e =>
    have circuits : t.circuits = s.circuits := congrArg Prod.fst e
    exact fun e he => h e (circuits ▸ he)
  | circuit c f hf => exact h.onCircuit c fun x _ => (hf x).feedSound
  | circuits f hf =>
    exact Table.forall_mem_mapAll (p := fun (e : Nat × Circuit) => e.2.FeedSound) h fun i x => (hf i x).feedSound
  | claim c => exact h.onCircuit c fun _ _ hx => hx
  | newCircuit c cfg =>
    exact Table.forall_mem_put (p := fun (e : Nat × Circuit) => e.2.FeedSound) h (Circuit.atStart_feedSound .house cfg)
  | reconfigure c x new hx free =>
    refine h.onCircuit c fun y hy sound => ?_
    obtain rfl : y = x := Option.some.inj ((Table.at?_of_mem order.circuits hy).symm.trans hx)
    exact sound.reconfigured (free.imp_right And.left)
  | dropCircuit c => exact Table.forall_mem_remove h c
  | unit l => cases l <;> exact h
  | load cause =>
    intro e he
    obtain ⟨_, _, rfl⟩ := List.mem_map.1 he
    exact Circuit.atStart_feedSound ..
  | _ => exact h

/-- Settles O17: every move keeps the block timers, and with the order of the tables the feeds; every step is a chain of
moves. -/
theorem transfersStaySound : Obligations.TransfersStaySound := by
  intro s t h
  refine ⟨fun timers => step_keeps Move.blockTimersSound (fun _ hs => hs) timers h, fun order feeds => ?_⟩
  exact (step_keeps (P := fun s => s.TablesInOrder ∧ s.FeedsSound)
    (fun m hs => ⟨m.tablesInOrder hs.1, m.feedsSound hs.1 hs.2⟩) (fun _ hs => hs) ⟨order, feeds⟩ h).2

end Sys2Proof.Machine
end

section
/-! SUPPORT. The setting and the clearing of the egress latch, and the PANIC filter (R39, R144, R145, R147). -/

namespace Sys2Proof.Machine

/-! ## The EGRESS contribution on a circuit -/

/-- A claim no other stands above is never refused (R6, R7, R8). -/
theorem insertClaim_of_highest {k : Contribution} {claims : List Contribution} (h : ∀ y ∈ claims, y.tier ≤ k.tier) :
    ∃ rest v, insertClaim k claims = (rest ++ [k], v) ∧ v ≠ .refused := by
  by_cases held : ∃ y ∈ claims, y.origin = k.origin
  · exact ⟨_, _, insertClaim_of_held held, nofun⟩
  have fresh : ∀ y ∈ claims, y.origin ≠ k.origin := fun y hy e => held ⟨y, hy, e⟩
  by_cases room : claims.length < 8
  · exact ⟨_, _, insertClaim_of_room fresh room, nofun⟩
  have full : 8 ≤ claims.length := Nat.not_lt.1 room
  cases hlow : lowestTier claims with
  | none => simp_all [lowestTier]
  | some low =>
    obtain ⟨y, hy, hyt⟩ := List.mem_map.1 (List.min?_mem hlow)
    rw [insertClaim_of_full fresh full hlow, if_pos (hyt ▸ h y hy)]
    exact ⟨_, _, rfl, nofun⟩

/-- A placement that is not refused gives the circuit its list, and resolves it (R6, R7, R8, R9). -/
theorem Circuit.placed_of_taken {mode : HouseMode} {k : Contribution} {x : Circuit} {claims : List Contribution}
    {v : Verdict} (hi : insertClaim { k with dormant := dormantIn mode x.config k.tier } x.claims = (claims, v))
    (hv : v ≠ .refused) (master : Option Nat) :
    ∃ flag, x.placed mode master k = { Circuit.resolve master k.arrival { x with claims := claims } with
      resolved := { (Circuit.resolve master k.arrival { x with claims := claims }).resolved with hostDisplaced := flag } } := by
  unfold Circuit.placed
  rw [hi]
  cases v with
  | refused => exact absurd rfl hv
  | _ => exact ⟨_, rfl⟩

theorem egressClaim_awake (mode : HouseMode) (c : CircuitConfig) :
    { egressClaim with dormant := dormantIn mode c egressClaim.tier } = egressClaim := rfl

theorem winningTier_of_egress {claims : List Contribution} (h : ∀ k ∈ claims, k.tier ≤ 3) (he : egressClaim ∈ claims) :
    winningTier claims = some 3 :=
  winningTier_eq_some.2 ⟨⟨egressClaim, he, rfl, rfl⟩, fun k hk _ => h k hk⟩

/-- A circuit on which the EGRESS contribution is placed holds it as its newest, and follows it (R14, R15, R145). -/
theorem Circuit.placed_egress {x : Circuit} (h : ∀ k ∈ x.claims, k.tier ≤ 3) (mode : HouseMode) (master : Option Nat) :
    let y := x.placed mode master egressClaim
    y.config = x.config ∧ y.resolved.winning = some 3 ∧ y.resolved.target = 1000 ∧
      y.claims.getLast? = some egressClaim := by
  obtain ⟨rest, v, hi, hv⟩ := insertClaim_of_highest (k := egressClaim) h
  obtain ⟨flag, e⟩ := Circuit.placed_of_taken (egressClaim_awake mode x.config ▸ hi) hv master
  have tiers : ∀ k ∈ rest ++ [egressClaim], k.tier ≤ 3 := fun k hk => by
    have outcome := hi ▸ insertClaim_inserted egressClaim x.claims
    rcases outcome.mem hk with old | rfl
    · exact h k old
    · exact le_rfl
  have wins := winningTier_of_egress tiers (by simp)
  rw [e]
  exact ⟨rfl, wins, if_pos wins, List.getLast?_concat ..⟩

/-! ## The setting of the latch -/

theorem State.mem_egressCircuits {s : State} (h : Table.InOrder s.circuits) {c : Nat} {x : Circuit}
    (hx : Table.at? s.circuits c = some x) : c ∈ s.egressCircuits ↔ x.config.egress = true :=
  Table.mem_idsWhere_of_at? h hx

/-- The placements that the setting of the latch makes (R145). -/
theorem State.setLatch_eq (s : State) : s.setLatch =
    (({ s with latch := true, latchCopy := true } : State).placeEach (egressClaim.onEach s.egressCircuits)).raise .egress := by
  rw [State.placeEach, Contribution.onEach, List.foldl_map]
  rfl

theorem State.setLatch_frame (s : State) : s.setLatch = { s with
    latch := true, latchCopy := true, circuits := s.setLatch.circuits, bindings := s.setLatch.bindings,
    scenes := s.setLatch.scenes, notices := { s.notices with egress := true } } := by
  rw [State.setLatch_eq]
  exact congrArg (fun u => State.raise u .egress)
    ((State.OnlyClaims.refl ({ s with latch := true, latchCopy := true } : State)).placeEach
      (egressClaim.onEach s.egressCircuits))

theorem State.setLatch_at? {s : State} (h : Table.InOrder s.circuits) {c : Nat} {x : Circuit}
    (hx : Table.at? s.circuits c = some x) : Table.at? s.setLatch.circuits c =
      some (if x.config.egress = true then x.placed s.mode (s.masterOf x.config) egressClaim else x) := by
  have ids := egressClaim.onEach_ids s.egressCircuits
  have distinct : s.egressCircuits.Nodup := (Table.inOrder_idsWhere h _).imp (fun h => Nat.ne_of_lt h)
  rw [State.setLatch_eq]
  by_cases egress : x.config.egress = true
  · have placed := State.placeEach_at?_of_mem { s with latch := true, latchCopy := true } (ids.symm ▸ distinct)
      (List.mem_map_of_mem (f := fun c => (c, egressClaim)) ((State.mem_egressCircuits h hx).2 egress))
    refine placed.trans ?_
    simp [State.place_at?, hx, egress]
    rfl
  · rw [if_neg egress]
    refine (State.placeEach_at?_of_not_mem _ fun hc => egress ?_).trans hx
    exact (State.mem_egressCircuits h hx).1 (ids ▸ hc)

/-! ## Handovers without EGRESS and pending transfers -/

section
variable (c : CircuitConfig) (target tenths : Nat) (t : Transition)

/-- A handover without EGRESS lets every transfer and every pending one go on (R27, R35, R36). -/
theorem Transition.handover_calm_pending :
    (t.handover c target false tenths).pendingTransfer = t.pendingTransfer ∧
      (t.handover c target false tenths).phase.mayTransfer = t.phase.mayTransfer := by
  have resting (hp : t.phase = .steady ∨ t.phase = .fading) :
      (t.handover c target false tenths).pendingTransfer = t.pendingTransfer ∧
        (t.handover c target false tenths).phase.mayTransfer = t.phase.mayTransfer := by
    have may : t.phase.mayTransfer = true := by rcases hp with hp | hp <;> rw [hp] <;> rfl
    rw [may]
    by_cases arrived : target = t.level
    · rw [t.handover_arrived c target false tenths hp arrived]
      exact ⟨rfl, rfl⟩
    · rw [t.handover_fades c target false tenths hp arrived]
      exact ⟨rfl, rfl⟩
  cases hp : t.phase with
  | steady => exact hp ▸ resting (.inl hp)
  | fading => exact hp ▸ resting (.inr hp)
  | downslope =>
    rw [t.handover_goesOn c target false tenths (.inl ⟨hp, rfl⟩), ← hp]
    exact ⟨rfl, rfl⟩
  | block =>
    rw [t.handover_goesOn c target false tenths (.inr hp), ← hp]
    exact ⟨rfl, rfl⟩
  | upslope =>
    rw [t.handover_restarts c target tenths hp, ← hp]
    exact ⟨rfl, rfl⟩

/-- A transfer that begins takes no notice of the fade in progress, so it may begin before a handover or after it (R32,
R39). -/
theorem Transition.handover_beginTransfer (h : t.phase.mayTransfer = true) :
    (t.beginTransfer c).handover c target false tenths = (t.handover c target false tenths).beginTransfer c := by
  rw [(t.beginTransfer c).handover_goesOn c target false tenths (.inl ⟨rfl, rfl⟩)]
  have resting (hp : t.phase = .steady ∨ t.phase = .fading) :
      Transition.refresh c { t.beginTransfer c with target := target, egressFlag := false } =
        (t.handover c target false tenths).beginTransfer c := by
    by_cases arrived : target = t.level
    · rw [t.handover_arrived c target false tenths hp arrived]
      rfl
    · rw [t.handover_fades c target false tenths hp arrived]
      rfl
  cases hp : t.phase with
  | steady => exact resting (.inl hp)
  | fading => exact resting (.inr hp)
  | upslope =>
    rw [t.handover_restarts c target tenths hp]
    rfl
  | downslope => simp [hp, CircuitPhase.mayTransfer] at h
  | block => simp [hp, CircuitPhase.mayTransfer] at h

end

/-- Where EGRESS does not win, a pending transfer may begin before a resolution or after it (R39, R147). -/
theorem Circuit.resolve_beginPending {x : Circuit} (h : winningTier x.claims ≠ some 3) (test : CircuitConfig → Feed → Bool)
    (master : Option Nat) (tenths : Nat) :
    (x.beginPending test).resolve master tenths = (x.resolve master tenths).beginPending test := by
  let target := targetOf (winningTier x.claims) (rawValue x.config.rest x.claims) master
  have calm : (winningTier x.claims == some 3) = false := by simpa using h
  have after : (x.resolve master tenths).transition = x.transition.handover x.config target false tenths :=
    congrArg (fun e => x.transition.handover x.config target e tenths) calm
  obtain ⟨pending, may⟩ := x.transition.handover_calm_pending x.config target tenths
  by_cases begins : ∃ dest, x.transition.pendingTransfer = some dest ∧ x.transition.phase.mayTransfer = true ∧
      test x.config dest = true
  · obtain ⟨dest, hd, hp, ht⟩ := begins
    rw [Circuit.beginPending_of_ready hd hp ht, Circuit.beginPending_of_ready (x := x.resolve master tenths)
      (by rw [after, pending, hd]) (by rw [after, may, hp]) ht]
    simp only [Circuit.resolve, calm]
    rw [Transition.handover_beginTransfer _ _ _ _ hp]
  · have waits : ∀ dest, x.transition.pendingTransfer = some dest →
        x.transition.phase.mayTransfer = false ∨ test x.config dest = false := fun dest hd => by
      by_contra both
      simp only [not_or, Bool.not_eq_false] at both
      exact begins ⟨dest, hd, both⟩
    rw [Circuit.beginPending_of_not_ready waits, Circuit.beginPending_of_not_ready (x := x.resolve master tenths)]
    intro dest hd
    rw [after, pending] at hd
    rw [after, may]
    exact waits dest hd

/-- The claims and the configuration of a circuit take no notice of a transfer that begins. -/
theorem Circuit.beginPending_claims (test : CircuitConfig → Feed → Bool) (x : Circuit) :
    (x.beginPending test).claims = x.claims := by rw [x.beginPending_eq test]

theorem Circuit.beginPending_config (test : CircuitConfig → Feed → Bool) (x : Circuit) :
    (x.beginPending test).config = x.config := by rw [x.beginPending_eq test]

theorem Circuit.beginPending_withClaims (test : CircuitConfig → Feed → Bool) (x : Circuit) (l : List Contribution) :
    Circuit.beginPending test { x with claims := l } = { x.beginPending test with claims := l } := by
  unfold Circuit.beginPending
  dsimp only
  split
  · split <;> rfl
  · rfl

theorem Circuit.removed_of_found {x : Circuit} {o : Origin} {k : Contribution}
    (h : x.claims.find? (fun k => k.origin == o) = some k) (master : Option Nat) : x.removed master o =
      Circuit.resolve master k.release { x with claims := x.claims.eraseP fun k => k.origin == o } := by
  rw [Circuit.removed, h]

/-- Where EGRESS no longer wins once an origin is removed, a pending transfer may begin before the removal or after it. -/
theorem Circuit.removed_beginPending {x : Circuit} {o : Origin}
    (h : winningTier (x.claims.eraseP fun k => k.origin == o) ≠ some 3 ∨ ∀ k ∈ x.claims, k.origin ≠ o)
    (test : CircuitConfig → Feed → Bool) (master : Option Nat) :
    (x.beginPending test).removed master o = (x.removed master o).beginPending test := by
  cases hf : x.claims.find? (fun k => k.origin == o) with
  | none =>
    have absent : ∀ k ∈ x.claims, k.origin ≠ o := by simpa using hf
    rw [Circuit.removed_of_absent absent, Circuit.removed_of_absent (x.beginPending_claims test ▸ absent)]
  | some k =>
    have calm : winningTier (x.claims.eraseP fun k => k.origin == o) ≠ some 3 :=
      h.resolve_right fun absent => absent k (List.mem_of_find?_eq_some hf) (by simpa using List.find?_some hf)
    have found : (x.beginPending test).claims.find? (fun k => k.origin == o) = some k :=
      (congrArg _ (x.beginPending_claims test)).trans hf
    rw [Circuit.removed_of_found found, Circuit.removed_of_found hf, Circuit.beginPending_claims,
      ← Circuit.resolve_beginPending (x := { x with claims := x.claims.eraseP _ }) calm,
      Circuit.beginPending_withClaims test x (x.claims.eraseP _)]

/-! ## The clearing of the latch -/

theorem State.remove_egress_frame (s : State) (byOther : Bool) (c : Nat) :
    s.remove byOther .egress c = { s with circuits := (s.remove byOther .egress c).circuits } := by
  have outcome := s.remove_outcome byOther .egress c
  generalize s.remove byOther .egress c = r at outcome
  cases outcome <;> rfl

/-- The removal of EGRESS from every circuit tells no owner (R147). -/
theorem State.removeEach_egress_frame (s : State) (byOther : Bool) (ids : List Nat) :
    s.removeEach byOther .egress ids = { s with circuits := (s.removeEach byOther .egress ids).circuits } := by
  induction ids generalizing s with
  | nil => rfl
  | cons c ids ih =>
    rw [State.removeEach_cons, ih, s.remove_egress_frame byOther c]

theorem State.removeEverywhere_at? {s : State} (h : s.ListsSound) (o : Origin) (i : Nat) :
    Table.at? (s.removeEverywhere o).circuits i =
      (Table.at? s.circuits i).map fun x => x.removed (s.masterOf x.config) o := by
  rw [show s.removeEverywhere o = s.removeEach false o (s.holders o) from rfl, State.removeEach_at? h]
  cases hx : Table.at? s.circuits i with
  | none => rfl
  | some x =>
    by_cases held : i ∈ s.holders o
    · simp [held]
    · have absent : ∀ k ∈ x.claims, k.origin ≠ o := fun k hk ho =>
        held (Table.mem_idsWhere.2 ⟨x, Table.mem_of_at? hx, by simpa using ⟨k, hk, ho⟩⟩)
      simp [held, Circuit.removed_of_absent absent]

theorem State.reportLatchClear_at? (s : State) (i : Nat) :
    Table.at? s.reportLatchClear.circuits i = (Table.at? s.circuits i).map (Circuit.beginPending s.feedOnline) := by
  simp [State.reportLatchClear]

theorem State.ListsSound.reportLatchClear {s : State} (h : s.ListsSound) : s.reportLatchClear.ListsSound :=
  (Moves.refl s).reportLatchClear.keeps Move.listsSound h

/-- The clearing touches nothing but the latch and its copy, the circuits, the notices and the count of free choices
(R147). -/
theorem State.clearLatch_frame (s : State) : s.clearLatch = { s with
    latch := false, latchCopy := false, circuits := s.clearLatch.circuits,
    notices := { s.notices with egress := true }, freeUses := s.freeUses + 1 } := by
  have removes (u : State) : u.removeEverywhere .egress = { u with circuits := (u.removeEverywhere .egress).circuits } :=
    u.removeEach_egress_frame false _
  unfold State.clearLatch
  cases Config.latchReportFirst s.freeUses
  · simp only [Bool.false_eq_true, if_false]
    rw [removes]
    rfl
  · simp only [if_true]
    rw [removes]
    rfl

/-- A circuit after the clearing: the removal and the report of the latch, in either order (R39, R147, log entry 7). -/
theorem State.clearLatch_at? {s : State} (h : s.ListsSound) (i : Nat) :
    Table.at? s.clearLatch.circuits i = (Table.at? s.circuits i).map fun x =>
      if Config.latchReportFirst s.freeUses = true then
        (x.beginPending s.feedOnline).removed (s.masterOf x.config) .egress
      else (x.removed (s.masterOf x.config) .egress).beginPending s.feedOnline := by
  let cleared : State := { s with latch := false, freeUses := s.freeUses + 1 }
  have sound : cleared.ListsSound := h
  unfold State.clearLatch
  cases Config.latchReportFirst s.freeUses
  · have removes : cleared.removeEverywhere .egress = _ := cleared.removeEach_egress_frame false _
    have online : (cleared.removeEverywhere .egress).feedOnline = s.feedOnline := by rw [removes]; rfl
    simp only [Bool.false_eq_true, if_false]
    refine ((cleared.removeEverywhere .egress).reportLatchClear_at? i).trans ?_
    rw [State.removeEverywhere_at? sound, Option.map_map, online]
    rfl
  · simp only [if_true]
    refine (State.removeEverywhere_at? (s := cleared.reportLatchClear) sound.reportLatchClear .egress i).trans ?_
    rw [State.reportLatchClear_at?, Option.map_map]
    congr 1
    funext x
    exact congrArg (fun c => Circuit.removed (s.masterOf c) .egress (x.beginPending s.feedOnline))
      (x.beginPending_config s.feedOnline)

/-- The clearing of the latch leaves no EGRESS contribution (R147). -/
theorem State.clearLatch_origin {s : State} (h : s.ListsSound) (order : s.TablesInOrder) {e : Nat × Circuit}
    (he : e ∈ s.clearLatch.circuits) {k : Contribution} (hk : k ∈ e.2.claims) : k.origin ≠ .egress := by
  have after : s.clearLatch.TablesInOrder := (Moves.refl s).clearLatch.keeps Move.tablesInOrder order
  have here := Table.at?_of_mem after.circuits he
  rw [State.clearLatch_at? h, Option.map_eq_some_iff] at here
  obtain ⟨x, hx, e⟩ := here
  have claims := congrArg Circuit.claims e
  split at claims <;> simp only [Circuit.removed_claims, Circuit.beginPending_claims] at claims
  all_goals exact origin_ne_of_mem_eraseP (h.at? hx).2 .egress k (claims ▸ hk)

@[simp] theorem State.withExchange_clearLatch (s : State) (a : List Byte) (h : HostSlot) (f : Option Firing) :
    (s.withExchange a h f).clearLatch = s.clearLatch.withExchange a h f := by
  have reports (u : State) : (u.withExchange a h f).reportLatchClear = u.reportLatchClear.withExchange a h f := rfl
  have cleared : ({ s.withExchange a h f with latch := false, freeUses := s.freeUses + 1 } : State) =
      State.withExchange { s with latch := false, freeUses := s.freeUses + 1 } a h f := rfl
  unfold State.clearLatch
  simp only [State.withExchange_freeUses, cleared]
  cases Config.latchReportFirst s.freeUses <;> simp [reports]

/-! ## ClearEgress -/

theorem clearEgress_badRequest {body : List Byte} (h : body ≠ []) (s : State) :
    clearEgress body s = .refuse .badRequest s := by
  cases body with
  | nil => exact absurd rfl h
  | cons => rfl

theorem clearEgress_active {s : State} (h : s.panicFiltered = true) : clearEgress [] s = .refuse .active s := by
  rw [clearEgress, h, State.inOrder_cons_true]

theorem clearEgress_of_released {s : State} (h : s.panicFiltered = false) :
    clearEgress [] s = .done (if s.latch then s.clearLatch else s) := by
  rw [clearEgress, h, State.inOrder_cons_false, State.inOrder_nil]

theorem clearEgress_of_latched {s : State} (h : s.panicFiltered = false) (hl : s.latch = true) (code tag : Byte)
    (body : List Byte) : clearEgress [] (s.taken code tag body) = .done (s.clearLatch.taken code tag body) := by
  have offered : s.clearLatch.offered = s.offered := by rw [s.clearLatch_frame]
  rw [clearEgress_of_released (s := s.taken ..) h]
  exact congrArg Work.done ((if_pos hl).trans
    (State.taken_comm (f := State.clearLatch) offered (fun a k o => s.withExchange_clearLatch a k o) ..))

/-! ## The PANIC filter -/

theorem State.panicExpiry_of_stopped {s : State} (h : s.panicTimer = none) : s.panicExpiry = s := by
  simp [State.panicExpiry, h]

theorem State.panicExpiry_raises {s : State} {n : Nat} (h : s.panicTimer = some n)
    (hl : s.panicInput = false ∨ s.latch = true) : s.panicExpiry =
      ({ s with panicTimer := none, panicFiltered := s.panicInput } : State).raise .egress := by
  rcases hl with hl | hl <;> simp [State.panicExpiry, h, hl]

theorem State.panicExpiry_sets {s : State} {n : Nat} (h : s.panicTimer = some n) (hi : s.panicInput = true)
    (hl : s.latch = false) :
    s.panicExpiry = ({ s with panicTimer := none, panicFiltered := true } : State).setLatch := by
  simp [State.panicExpiry, h, hi, hl]

theorem State.panicChange_of_same (s : State) : s.panicChange s.panicInput = s := if_pos rfl

theorem State.panicChange_of_changed (s : State) : s.panicChange (!s.panicInput) = { s with
    panicInput := !s.panicInput, panicTimer := if (!s.panicInput) = s.panicFiltered then none else some 50 } :=
  if_neg (by simp)

theorem State.panicLevel_of_running {s : State} (h : s.power = .running) (asserted : Bool) :
    s.panicLevel asserted = s.panicChange asserted := if_pos h

/-- Settles O46: the filter by its equations, the circuits by `setLatch_at?`, and the two orders of ClearEgress by
`removed_beginPending`. -/
theorem panicAndTheEgressLatch : Obligations.PanicAndTheEgressLatch := by
  intro s
  refine ⟨fun asserted inReset => congrArg Host.Outcome.next (if_neg inReset), fun running => ⟨?_, ?_, fun stopped => ?_,
    fun n timed => ⟨fun quiet => ?_, fun hi hl => ?_⟩⟩, fun tag body take hb => ⟨fun hbody => ?_, fun active => ?_,
    fun released hl => ?_, fun released hl => ?_⟩⟩
  · exact congrArg Host.Outcome.next ((State.panicLevel_of_running running _).trans s.panicChange_of_same)
  · exact congrArg Host.Outcome.next ((State.panicLevel_of_running running _).trans s.panicChange_of_changed)
  · exact congrArg Host.Outcome.next
      ((State.whileRunning_of_running running _).trans (State.panicExpiry_of_stopped stopped))
  · exact congrArg Host.Outcome.next
      ((State.whileRunning_of_running running _).trans (State.panicExpiry_raises timed quiet))
  · let filtered : State := { s with panicTimer := none, panicFiltered := true }
    refine ⟨filtered.setLatch, congrArg Host.Outcome.next
      ((State.whileRunning_of_running running _).trans (State.panicExpiry_sets timed hi hl)), filtered.setLatch_frame,
      fun order c x hx egress tiers => ?_, fun c x hx plain order => ?_⟩
    · have here := State.setLatch_at? (s := filtered) order.circuits hx
      rw [if_pos egress] at here
      exact ⟨_, here, Circuit.placed_egress tiers ..⟩
    · have here := State.setLatch_at? (s := filtered) order.circuits hx
      rwa [if_neg (by simp [plain])] at here
  · exact congrArg Host.Outcome.next (take.refused hb (clearEgress_badRequest hbody _))
  · exact congrArg Host.Outcome.next (take.refused (Nat.zero_le _) (clearEgress_active (s := s.taken ..) active))
  · refine congrArg Host.Outcome.next (take.done (t := s) (Nat.zero_le _) ?_)
    rw [clearEgress_of_released (s := s.taken ..) released, if_neg]
    simpa [State.taken] using hl
  · refine ⟨s.clearLatch,
      congrArg Host.Outcome.next (take.done (Nat.zero_le _) (clearEgress_of_latched released hl ..)), s.clearLatch_frame,
      fun sound order => ⟨fun e he k hk => State.clearLatch_origin sound order he hk, fun c x hx => ?_⟩⟩
    intro cleared
    have leaves (calm : winningTier (x.claims.eraseP fun k => k.origin == .egress) ≠ some 3 ∨
        ∀ k ∈ x.claims, k.origin ≠ .egress) : cleared (x.removed (s.masterOf x.config) .egress) := by
      have here := State.clearLatch_at? sound c
      rw [hx, Option.map_some, Circuit.removed_beginPending calm, ite_self] at here
      have config := x.removed_config (s.masterOf x.config) .egress
      generalize x.removed (s.masterOf x.config) .egress = r at here config
      refine ⟨fun ⟨dest, hd, hp, ht⟩ => ?_, fun waits => ?_⟩
      · rw [here, Circuit.beginPending_of_ready hd hp (config.symm ▸ ht), config]
        rfl
      · rw [here, Circuit.beginPending_of_not_ready fun dest hd => ?_]
        by_contra both
        simp only [not_or, Bool.not_eq_false, config] at both
        exact waits ⟨dest, hd, both⟩
    refine ⟨fun absent => ?_, fun older k newer hc ho fade tiers => ?_⟩
    · have same := leaves (.inr absent)
      rwa [Circuit.removed_of_absent absent] at same
    · have distinct : k.origin ∉ (older ++ newer).map (·.origin) := by
        have origins := (sound.at? hx).2
        rw [hc, List.map_append, List.map_cons, List.nodup_middle, ← List.map_append] at origins
        exact (List.nodup_cons.1 origins).1
      have before : ∀ y ∈ older, y.origin ≠ .egress := fun y hy e =>
        distinct (List.mem_map.2 ⟨y, List.mem_append_left _ hy, e.trans ho.symm⟩)
      have left : x.claims.eraseP (fun k => k.origin == .egress) = older ++ newer := by
        rw [hc, eraseP_append_cons (by simp [ho]) (by simpa using before)]
      have calm : winningTier (older ++ newer) ≠ some 3 := fun wins => by
        obtain ⟨⟨j, hj, _, ht⟩, _⟩ := winningTier_eq_some.1 wins
        have low := tiers j hj
        omega
      have resolved := leaves (.inl (left ▸ calm))
      rwa [Circuit.removed_of_split hc ho before, fade] at resolved

end Sys2Proof.Machine
end

section
/-! SUPPORT. Rounds, slots and replies of the rack link (R40, R150, R153 to R155). -/

namespace Sys2Proof.Machine

/-! ## Rounds -/

section
variable {s : State}

theorem State.roundExpiry_of_stopped (h : s.roundTimer = none) : s.roundExpiry = s := by simp [State.roundExpiry, h]

theorem State.roundExpiry_of_idle (h : s.roundTimer.isSome = true) (hs : s.rackSlot = none) :
    s.roundExpiry = s.beginRound := by simp [State.roundExpiry, Option.isNone_eq_false_iff.2 h, hs]

theorem State.roundExpiry_of_inRound (h : s.roundTimer.isSome = true) (hs : s.rackSlot.isSome = true) :
    s.roundExpiry = s.withRoundTimer none := by simp [State.roundExpiry, Option.isNone_eq_false_iff.2 h, hs]

/-- After a slot the next configured rack above is served, or the round ends, or the next begins at once (R150). -/
theorem State.endRackSlot_eq (s : State) (rack : Nat) : s.endRackSlot rack =
    if ((s.rackAbove rack).isNone && s.roundTimer.isNone) = true then s.beginRound
    else s.serveRack (s.rackAbove rack) := by
  unfold State.endRackSlot
  cases s.rackAbove rack with
  | none => cases s.roundTimer <;> rfl
  | some r => rfl

/-! ## Level frames -/

theorem State.levelFrameSent_of_none (h : s.rackSlot = none) : s.levelFrameSent = s := by simp [State.levelFrameSent, h]

theorem State.levelFrameSent_of_sending {x : RackSlot} (h : s.rackSlot = some x) (hw : x.window = none) :
    s.levelFrameSent = (s.onRack x.rack fun r => if r.configured then { r with last := some x.frame } else r).withRackSlot
      (some { x with window := some 10 }) := by simp [State.levelFrameSent, h, hw]

/-! ## Reply windows -/

theorem State.listening_of_none (h : s.rackSlot = none) : s.listening = none := by simp [State.listening, h]

theorem State.listening_of_open {x : RackSlot} {n : Nat} (h : s.rackSlot = some x) (hw : x.window = some n) :
    s.listening = some x := by simp [State.listening, h, hw]

theorem State.slotServes_of_void {x : RackSlot} (h : x.voided = true) : s.slotServes x = false := by
  simp [State.slotServes, h]

theorem State.slotServes_of_configured {x : RackSlot} {r : Rack} (h : x.voided = false)
    (hr : Table.at? s.racks x.rack = some r) (ha : r.state ≠ .absent) : s.slotServes x = true := by
  simp [State.slotServes, State.rackConfigured, Rack.configured, h, hr, ha]

theorem State.replyHeard_of_closed (h : s.listening = none) (chars : List Character) : s.replyHeard chars = s := by
  simp [State.replyHeard, h]

/-- A reply in a void slot, one that is not sound, and one of another rack are discarded (R153). -/
theorem State.replyHeard_discarded {x : RackSlot} {chars : List Character} (h : s.listening = some x)
    (hd : s.slotServes x = false ∨ ∀ f, decodeReply chars = some f → f.rack ≠ x.rack) : s.replyHeard chars = s := by
  unfold State.replyHeard
  rw [h]
  cases hf : decodeReply chars with
  | none => rfl
  | some f =>
    refine if_neg fun ⟨serves, here⟩ => ?_
    rcases hd with void | other
    · simp [void] at serves
    · exact other f hf here

theorem State.replyHeard_taken {x : RackSlot} {chars : List Character} {f : RackReplyFrame} (h : s.listening = some x)
    (hs : s.slotServes x = true) (hf : decodeReply chars = some f) (here : f.rack = x.rack) :
    s.replyHeard chars = (s.takeReply x.rack f).endRackSlot x.rack := by
  simp [State.replyHeard, h, hf, hs, here]

theorem State.replyWindowExpiry_of_closed (h : s.listening = none) : s.replyWindowExpiry = s := by
  simp [State.replyWindowExpiry, h]

theorem State.replyWindowExpiry_of_void {x : RackSlot} (h : s.listening = some x) (hs : s.slotServes x = false) :
    s.replyWindowExpiry = s.endRackSlot x.rack := by simp [State.replyWindowExpiry, h, hs]

theorem State.replyWindowExpiry_of_missed {x : RackSlot} (h : s.listening = some x) (hs : s.slotServes x = true) :
    s.replyWindowExpiry = (s.missReply x.rack).endRackSlot x.rack := by simp [State.replyWindowExpiry, h, hs]

/-! ## Replies -/

/-- A state in which a reply has been recorded, and the notices of what it changed raised, but for the entry into ONLINE
(R153, R158). -/
def State.recorded (s : State) (rack : Nat) (r : Rack) (f : RackReplyFrame) (entered : Bool) : State :=
  { s.onRack rack fun r => { r with status := some f.status, faults := f.faults, missCount := 0, state := .online } with
    notices := { s.notices with
      racks := s.notices.racks || (decide (r.status ≠ some f.status) || entered)
      faults := s.notices.faults || decide (r.faults ≠ f.faults) } }

section
variable {rack : Nat} {r : Rack} (hr : Table.at? s.racks rack = some r)
include hr

theorem State.takeReply_of_online (h : r.state = .online) (f : RackReplyFrame) :
    s.takeReply rack f = s.recorded rack r f false := by
  unfold State.takeReply State.recorded
  rw [hr]
  by_cases hs : r.status = some f.status <;> by_cases hf : r.faults = f.faults <;> simp [h, hs, hf] <;> rfl

theorem State.takeReply_of_entry (h : r.state ≠ .online) (f : RackReplyFrame) :
    s.takeReply rack f = (s.recorded rack r f true).reportRackOnline rack := by
  unfold State.takeReply State.recorded
  rw [hr]
  by_cases hs : r.status = some f.status <;> by_cases hf : r.faults = f.faults <;> simp [h, hs, hf] <;> rfl

theorem State.recorded_racks_at? (f : RackReplyFrame) (entered : Bool) (i : Nat) :
    Table.at? (s.recorded rack r f entered).racks i = if i = rack then
      some { r with status := some f.status, faults := f.faults, missCount := 0, state := .online }
    else Table.at? s.racks i := by
  by_cases hi : i = rack
  · subst hi; simp [State.recorded, hr]
  · simp [State.recorded, Table.at?_adjust, hi]

/-! ## Misses -/

theorem State.missReply_of_offline (h : r.state ≠ .online) : s.missReply rack = s := by simp [State.missReply, hr, h]

theorem State.missReply_counts (h : r.state = .online) (hm : r.missCount < 2) :
    s.missReply rack = s.onRack rack fun r => { r with missCount := r.missCount + 1 } := by
  have early : ¬ 3 ≤ r.missCount + 1 := by omega
  simp only [State.missReply, hr, h, early, if_true, if_false]

theorem State.missReply_loses (h : r.state = .online) (hm : 2 ≤ r.missCount) :
    s.missReply rack = (s.onRack rack fun r => { r with state := .lost, missCount := 3 }).raise .racks := by
  have third : 3 ≤ r.missCount + 1 := by omega
  simp only [State.missReply, hr, h, third, if_true]

end

/-! ## The entry into ONLINE -/

/-- The conditions for a pending transfer as a rack enters ONLINE (R31, R40). -/
theorem State.readyAtEntry_iff {rack : Nat} {r : Rack} (hr : Table.at? s.racks rack = some r) (h : r.state = .online)
    {c : CircuitConfig} {f : Feed} :
    (s.transferReady c f && ((c.channelOf f).map (·.rack) == some rack)) = true ↔
      s.latchCopy = false ∧ ∃ ch, c.channelOf f = some ch ∧ ch.rack = rack := by
  rw [Bool.and_eq_true, State.transferReady_iff, State.feedOnline_iff, beq_iff_eq, Option.map_eq_some_iff]
  constructor
  · rintro ⟨⟨clear, _⟩, toward⟩
    exact ⟨clear, toward⟩
  · rintro ⟨clear, ch, hch, here⟩
    exact ⟨⟨clear, ch, r, hch, here ▸ hr, h⟩, ch, hch, here⟩

theorem State.reportRackOnline_at? (s : State) (rack i : Nat) : Table.at? (s.reportRackOnline rack).circuits i =
    (Table.at? s.circuits i).map (Circuit.beginPending fun c f =>
      s.transferReady c f && ((c.channelOf f).map (·.rack) == some rack)) := by
  simp [State.reportRackOnline]

end

/-- What a reply that is taken leaves of the racks, the notices and the circuits (R40, R153). -/
theorem State.takeReply_leaves {s : State} {rack : Nat} {r : Rack} (hr : Table.at? s.racks rack = some r)
    (f : RackReplyFrame) :
    let t := s.takeReply rack f
    t = { s with racks := t.racks, circuits := t.circuits, notices := t.notices } ∧
    t.racks = (s.recorded rack r f (decide (r.state ≠ .online))).racks ∧
    t.notices = (s.recorded rack r f (decide (r.state ≠ .online))).notices ∧
    (r.state = .online → t.circuits = s.circuits) ∧
    (r.state ≠ .online → ∀ c, Table.at? t.circuits c = (Table.at? s.circuits c).map (Circuit.beginPending fun cfg d =>
      (s.recorded rack r f true).transferReady cfg d && ((cfg.channelOf d).map (·.rack) == some rack))) := by
  by_cases h : r.state = .online
  · rw [State.takeReply_of_online hr h f, decide_eq_false fun other => other h]
    exact ⟨rfl, rfl, rfl, fun _ => rfl, fun other => absurd h other⟩
  · rw [State.takeReply_of_entry hr h f, decide_eq_true h]
    exact ⟨rfl, rfl, rfl, fun online => absurd online h, fun _ c => State.reportRackOnline_at? ..⟩

/-- Settles O48: each event by its own equation, `endRackSlot_eq` for what comes after a slot, and `takeReply_leaves` for a
reply. -/
theorem rackLinkSlots : Obligations.RackLinkSlots := by
  intro s running serve above goesOn
  have leads {f : State → State} {t : State} (h : f s = t) :
      (Host.Outcome.next (s.whileRunning f) : Host.Outcome State Fault Refusal) = .next t :=
    congrArg Host.Outcome.next ((State.whileRunning_of_running running f).trans h)
  have onward (t : State) (rack : Nat) : t.endRackSlot rack = goesOn t rack := t.endRackSlot_eq rack
  refine ⟨fun stopped => leads (State.roundExpiry_of_stopped stopped),
    fun timed idle => leads (State.roundExpiry_of_idle timed idle),
    fun timed slot => leads (State.roundExpiry_of_inRound timed slot), fun idle => ?_,
    fun x r hx hw hr present => ?_, fun x n hx hw => ⟨fun void => ?_, fun r sound hr present => ?_⟩⟩
  · have closed := State.listening_of_none idle
    exact ⟨leads (State.levelFrameSent_of_none idle), leads (State.replyWindowExpiry_of_closed closed),
      fun chars => leads (State.replyHeard_of_closed closed chars)⟩
  · refine ⟨_, leads (State.levelFrameSent_of_sending hx hw), rfl, fun _ i => ?_⟩
    by_cases hi : i = x.rack
    · subst hi; simp [hr, Rack.configured, present]
    · simp [Table.at?_adjust, hi]
  · have window := State.listening_of_open hx hw
    have idle := State.slotServes_of_void (s := s) void
    exact ⟨fun chars => leads (State.replyHeard_discarded window (.inl idle)),
      leads ((State.replyWindowExpiry_of_void window idle).trans (onward s x.rack))⟩
  · have window := State.listening_of_open hx hw
    have serves := State.slotServes_of_configured sound hr present
    refine ⟨fun chars other => leads (State.replyHeard_discarded window (.inr other)), fun chars f hf here => ?_, ?_⟩
    · obtain ⟨frame, racks, notices, kept, entry⟩ := State.takeReply_leaves hr f
      refine ⟨s.takeReply x.rack f,
        leads ((State.replyHeard_taken window serves hf here).trans (onward _ x.rack)), frame, fun i => ?_, ?_, kept,
        fun offline c y hy => ?_⟩
      · rw [racks, State.recorded_racks_at? hr]
      · rw [notices]
        simp [State.recorded]
      · intro begins
        have enters := entry offline c
        rw [hy, Option.map_some] at enters
        have recorded := State.recorded_racks_at? hr f true x.rack
        rw [if_pos rfl] at recorded
        have ready (cfg : CircuitConfig) (d : Feed) := State.readyAtEntry_iff (c := cfg) (f := d) recorded rfl
        refine ⟨fun ⟨clear, may, dest, ch, hd, toward⟩ => ?_, fun waits => ?_⟩
        · rw [enters, Circuit.beginPending_of_ready hd may ((ready _ _).2 ⟨clear, ch, toward⟩)]
          rfl
        · rw [enters, Circuit.beginPending_of_not_ready fun dest hd => ?_]
          by_contra both
          simp only [not_or, Bool.not_eq_false] at both
          obtain ⟨clear, ch, toward⟩ := (ready _ _).1 both.2
          exact waits ⟨clear, both.1, dest, ch, hd, toward⟩
    · refine ⟨s.missReply x.rack, leads ((State.replyWindowExpiry_of_missed window serves).trans (onward _ x.rack)), ?_⟩
      by_cases online : r.state = .online
      · by_cases early : r.missCount < 2
        · rw [State.missReply_counts hr online early]
          refine ⟨rfl, fun i hi => by simp [Table.at?_adjust, hi], fun other => absurd online other,
            fun _ _ => ⟨by simp [hr], rfl⟩, fun _ late => absurd early (Nat.not_lt.2 late)⟩
        · rw [State.missReply_loses hr online (Nat.not_lt.1 early)]
          refine ⟨rfl, fun i hi => by simp [Table.at?_adjust, hi], fun other => absurd online other,
            fun _ h => absurd h early, fun _ _ => ⟨by simp [hr], rfl⟩⟩
      · rw [State.missReply_of_offline hr online]
        exact ⟨rfl, fun _ _ => rfl, fun _ => ⟨hr, rfl⟩, fun h => absurd h online, fun h => absurd h online⟩

end Sys2Proof.Machine
end

section
/-! SUPPORT. The circuit a rack channel feeds, and the Level frame (R151, R152). -/

namespace Sys2Proof.Machine

/-! ## Sets of bits -/

theorem testBit_foldl_setBit (bits : List Nat) (n j : Nat) :
    (bits.foldl (fun n i => n ||| (1 <<< i)) n).testBit j = (n.testBit j || decide (j ∈ bits)) := by
  induction bits generalizing n with
  | nil => simp
  | cons i bits ih =>
    rw [List.foldl_cons, ih, Nat.testBit_or, Nat.one_shiftLeft, Nat.testBit_two_pow]
    simp [eq_comm, Bool.or_assoc]

theorem testBit_bitsOf (bits : List Nat) (j : Nat) : (bitsOf bits).testBit j = decide (j ∈ bits) := by
  simp [bitsOf, testBit_foldl_setBit]

/-! ## The circuit of a channel -/

theorem channelOf_eq_some {c : CircuitConfig} {ch : RackChannel} :
    (∃ f, c.channelOf f = some ch) ↔ c.house = ch ∨ c.stage = some ch := by
  constructor
  · rintro ⟨f, hf⟩
    cases f with
    | house => exact .inl (Option.some.inj hf)
    | stage => exact .inr hf
  · rintro (house | stage)
    · exact ⟨.house, congrArg some house⟩
    · exact ⟨.stage, stage⟩

/-- The circuit found for a channel is one of the table, and the channel is the feed found (R151). -/
theorem State.feedAt_sound {s : State} {ch : RackChannel} {i : Nat} {x : Circuit} {f : Feed}
    (h : s.feedAt ch = some (i, x, f)) : (i, x) ∈ s.circuits ∧ x.config.channelOf f = some ch := by
  obtain ⟨e, he, hf⟩ := List.exists_of_findSome?_eq_some h
  by_cases house : e.2.config.house = ch
  · rw [if_pos house] at hf
    cases hf
    exact ⟨he, congrArg some house⟩
  · by_cases stage : e.2.config.stage = some ch
    · rw [if_neg house, if_pos stage] at hf
      cases hf
      exact ⟨he, stage⟩
    · rw [if_neg house, if_neg stage] at hf
      cases hf

theorem State.feedAt_eq_none {s : State} {ch : RackChannel} :
    s.feedAt ch = none ↔ ∀ e ∈ s.circuits, e.2.config.house ≠ ch ∧ e.2.config.stage ≠ some ch := by
  rw [State.feedAt, List.findSome?_eq_none_iff]
  refine forall₂_congr fun e _ => ?_
  by_cases house : e.2.config.house = ch <;> by_cases stage : e.2.config.stage = some ch <;> simp [house, stage]

/-- No channel feeds two circuits, and none is both feeds of one (R2). -/
def State.FeedsApart (s : State) : Prop :=
  (∀ i x j y, Table.at? s.circuits i = some x → Table.at? s.circuits j = some y →
    ∀ q, (x.config.house = q ∨ x.config.stage = some q) → (y.config.house = q ∨ y.config.stage = some q) → i = j) ∧
  ∀ i x, Table.at? s.circuits i = some x → x.config.stage ≠ some x.config.house

section
variable {s : State} (order : Table.InOrder s.circuits) (apart : s.FeedsApart)
include order apart

/-- Where feeds are apart, a channel that is a feed of a circuit is found as that feed of that circuit. -/
theorem State.feedAt_of_channelOf {i : Nat} {x : Circuit} {f : Feed} {ch : RackChannel}
    (hx : Table.at? s.circuits i = some x) (hf : x.config.channelOf f = some ch) : s.feedAt ch = some (i, x, f) := by
  have uses := channelOf_eq_some.1 ⟨f, hf⟩
  cases found : s.feedAt ch with
  | none =>
    obtain ⟨house, stage⟩ := State.feedAt_eq_none.1 found (i, x) (Table.mem_of_at? hx)
    exact absurd uses (not_or.2 ⟨house, stage⟩)
  | some e =>
    obtain ⟨j, y, g⟩ := e
    obtain ⟨hy, hg⟩ := State.feedAt_sound found
    obtain rfl : i = j := apart.1 i x j y hx (Table.at?_of_mem order hy) ch uses (channelOf_eq_some.1 ⟨g, hg⟩)
    obtain rfl : x = y := Option.some.inj (hx.symm.trans (Table.at?_of_mem order hy))
    have alone := apart.2 i x hx
    have same : f = g := by
      cases f <;> cases g <;> simp_all [CircuitConfig.channelOf]
    rw [same]

theorem State.levelAt_of_channelOf {i : Nat} {x : Circuit} {f : Feed} {ch : RackChannel}
    (hx : Table.at? s.circuits i = some x) (hf : x.config.channelOf f = some ch) : s.levelAt ch =
      if x.transition.phase = .block then 0 else if x.transition.feed = f then x.transition.output else 0 := by
  rw [State.levelAt, State.feedAt_of_channelOf order apart hx hf]

/-- The transfer flag is set exactly at the stage feed of a TRANSFER circuit whose relay flag is STAGE (R152). -/
theorem State.transferFlagAt_iff {ch : RackChannel} : s.transferFlagAt ch = true ↔
    ∃ i x, Table.at? s.circuits i = some x ∧ x.config.stage = some ch ∧ x.config.kind = .transfer ∧
      x.transition.relay = some .stage := by
  constructor
  · intro h
    unfold State.transferFlagAt at h
    split at h
    · rename_i i x found
      obtain ⟨hx, hf⟩ := State.feedAt_sound found
      obtain ⟨kind, relay⟩ := Bool.and_eq_true_iff.1 h
      exact ⟨i, x, Table.at?_of_mem order hx, hf, beq_iff_eq.1 kind, beq_iff_eq.1 relay⟩
    · cases h
  · rintro ⟨i, x, hx, hf, kind, relay⟩
    rw [State.transferFlagAt, State.feedAt_of_channelOf order apart (f := .stage) hx hf]
    simp [kind, relay]

end

theorem State.levelAt_of_unused {s : State} {ch : RackChannel} (h : s.feedAt ch = none) : s.levelAt ch = 0 := by
  rw [State.levelAt, h]

/-! ## The frame -/

theorem identifiers_getElem? {n ch : Nat} (h1 : 1 ≤ ch) (h2 : ch ≤ n) : (identifiers n)[ch - 1]? = some ch := by
  rw [identifiers, List.getElem?_map, List.getElem?_range (by omega), Option.map_some, Nat.sub_add_cancel h1]

section
variable (s : State) (rack : Nat) {ch : Nat} (h1 : 1 ≤ ch) (h2 : ch ≤ 32)
include h1 h2

theorem State.buildFrame_level : (s.buildFrame rack).levels[ch - 1]? = some (s.levelAt ⟨rack, ch⟩) := by
  rw [State.buildFrame, List.getElem?_map, identifiers_getElem? h1 h2, Option.map_some]

theorem State.buildFrame_flag : (s.buildFrame rack).flags.getLsbD (ch - 1) = s.transferFlagAt ⟨rack, ch⟩ := by
  have inRange : ch - 1 < 32 := by omega
  simp only [State.buildFrame, BitVec.getLsbD_ofNat, testBit_bitsOf]
  simp [inRange, Nat.sub_add_cancel h1]

end

/-- Settles O49: the frame carries each channel's level and flag, which `feedAt_of_channelOf` gives by its circuit. -/
theorem levelFrameCarriesTheOutputs : Obligations.LevelFrameCarriesTheOutputs := by
  intro s rack ch h1 h2 order once alone f here
  have apart : s.FeedsApart := ⟨once, alone⟩
  have level : f.levels[ch - 1]? = some (s.levelAt here) := s.buildFrame_level rack h1 h2
  have flag : f.flags.getLsbD (ch - 1) = s.transferFlagAt here := s.buildFrame_flag rack h1 h2
  refine ⟨by simp [f, State.buildFrame, identifiers], fun i x hx hf => ?_, fun i x hx hf => ?_, fun unused => ?_, ?_⟩
  · rw [level, State.levelAt_of_channelOf order apart hx hf, if_pos rfl]
  · have other : x.transition.feed ≠ x.transition.feed.other := by cases x.transition.feed <;> exact nofun
    rw [level, State.levelAt_of_channelOf order apart hx hf, if_neg other, ite_self]
  · rw [level, State.levelAt_of_unused (State.feedAt_eq_none.2 fun e he => unused e.1 e.2 (Table.at?_of_mem order he))]
  · rw [flag, State.transferFlagAt_iff order apart]

end Sys2Proof.Machine
end

section
/-! SUPPORT. What stands until a request changes it: the settings, the protect size, the house lock and the records of the
bindings. Claims, scenes, modes, gestures, groups, the lines and the racks leave it as it is. -/

namespace Sys2Proof.Machine

/-- What stands until a request changes it: the settings, the protect size, the house lock and the binding records (R60, R61,
R166). The marks of a binding are no part of its record (R45). -/
def State.standing (s : State) : Settings × Nat × Bool × Table BindingRecord :=
  (s.settings, s.protectSize, s.houseLock, Table.mapAll s.bindings fun _ b => b.record)

section
variable {s t : State} (h : t.standing = s.standing)
include h

theorem State.settings_of_standing : t.settings = s.settings := congrArg (·.1) h

theorem State.protectSize_of_standing : t.protectSize = s.protectSize := congrArg (·.2.1) h

theorem State.houseLock_of_standing : t.houseLock = s.houseLock := congrArg (·.2.2.1) h

theorem State.record_of_standing (b : Nat) :
    (Table.at? t.bindings b).map (·.record) = (Table.at? s.bindings b).map (·.record) := by
  have records : Table.mapAll t.bindings (fun _ x => x.record) = Table.mapAll s.bindings fun _ x => x.record :=
    congrArg (·.2.2.2) h
  simpa only [Table.at?_mapAll] using congrArg (Table.at? · b) records

theorem State.indexList_of_standing (key : StationInput) (g : Gesture) : t.indexList key g = s.indexList key g := by
  have records : Table.mapAll t.bindings (fun _ x => x.record) = Table.mapAll s.bindings fun _ x => x.record :=
    congrArg (·.2.2.2) h
  have listed (u : State) : u.indexList key g =
      Table.idsWhere (Table.mapAll u.bindings fun _ x => x.record) fun r => r.source == key && r.gesture == g := by
    simp [State.indexList, Table.idsWhere, Table.mapAll, List.filter_map, Function.comp_def]
  rw [listed, listed, records]

theorem State.inOrder_of_standing (order : Table.InOrder s.bindings) : Table.InOrder t.bindings := by
  have records : Table.mapAll t.bindings (fun _ x => x.record) = Table.mapAll s.bindings fun _ x => x.record :=
    congrArg (·.2.2.2) h
  have ids := congrArg Table.ids records
  rw [Table.ids_mapAll, Table.ids_mapAll] at ids
  rwa [Table.InOrder, ids]

end

namespace State

section
variable (s : State)

/-! ## Fields and tables -/

theorem standing_foldl {α : Type} {f : State → α → State} (hf : ∀ s x, (f s x).standing = s.standing) (xs : List α) :
    (xs.foldl f s).standing = s.standing := by
  induction xs generalizing s with
  | nil => rfl
  | cons x xs ih => rw [List.foldl_cons, ih, hf]

/-- The same for a run that also counts. -/
theorem standing_foldlFst {α β : Type} {f : State × β → α → State × β}
    (hf : ∀ acc x, (f acc x).1.standing = acc.1.standing) (xs : List α) (acc : State × β) :
    (xs.foldl f acc).1.standing = acc.1.standing := by
  induction xs generalizing acc with
  | nil => rfl
  | cons x xs ih => rw [List.foldl_cons, ih, hf]

@[simp] theorem standing_ite (p : Prop) [Decidable p] (t u : State) :
    (if p then t else u).standing = if p then t.standing else u.standing := apply_ite ..

@[simp] theorem standing_withCircuits (x : Table Circuit) : (s.withCircuits x).standing = s.standing := rfl
@[simp] theorem standing_withZones (x : Table Zone) : (s.withZones x).standing = s.standing := rfl
@[simp] theorem standing_withScenes (x : Table Scene) : (s.withScenes x).standing = s.standing := rfl
@[simp] theorem standing_withGroups (x : Table Group) : (s.withGroups x).standing = s.standing := rfl
@[simp] theorem standing_withRepeats (x : List Repeat) : (s.withRepeats x).standing = s.standing := rfl
@[simp] theorem standing_withOffered (x : Option Firing) : (s.withOffered x).standing = s.standing := rfl
@[simp] theorem standing_withRackSlot (x : Option RackSlot) : (s.withRackSlot x).standing = s.standing := rfl
@[simp] theorem standing_withRoundTimer (x : Option Nat) : (s.withRoundTimer x).standing = s.standing := rfl
@[simp] theorem standing_withHostSlot (x : HostSlot) : (s.withHostSlot x).standing = s.standing := rfl
@[simp] theorem standing_withMode (x : HouseMode) : (s.withMode x).standing = s.standing := rfl
@[simp] theorem standing_seeInstall (x : Bool) : (s.seeInstall x).standing = s.standing := rfl
@[simp] theorem standing_shiftZeros (n : Nat) : (s.shiftZeros n).standing = s.standing := rfl
@[simp] theorem standing_placeAnswer (tag : Byte) (r : Reply) : (s.placeAnswer tag r).standing = s.standing := rfl
@[simp] theorem standing_raise (n : Notice) : (s.raise n).standing = s.standing := rfl
@[simp] theorem standing_beginSave : s.beginSave.standing = s.standing := rfl
@[simp] theorem standing_onCircuit (c : Nat) (f : Circuit → Circuit) : (s.onCircuit c f).standing = s.standing := rfl
@[simp] theorem standing_onTransition (c : Nat) (f : CircuitConfig → Transition → Transition) :
    (s.onTransition c f).standing = s.standing := rfl
@[simp] theorem standing_onScene (n : Nat) (f : Scene → Scene) : (s.onScene n f).standing = s.standing := rfl
@[simp] theorem standing_onGroup (g : Nat) (f : Group → Group) : (s.onGroup g f).standing = s.standing := rfl
@[simp] theorem standing_onRack (r : Nat) (f : Rack → Rack) : (s.onRack r f).standing = s.standing := rfl

@[simp] theorem standing_onUnit (l : Line) (f : LineUnit → LineUnit) : (s.onUnit l f).standing = s.standing := by
  cases l <;> rfl

@[simp] theorem standing_onStation (l : Line) (a : Nat) (f : Station → Station) :
    (s.onStation l a f).standing = s.standing := standing_onUnit ..

@[simp] theorem standing_onKey (k : StationInput) (f : KeyRecord → KeyRecord) : (s.onKey k f).standing = s.standing :=
  standing_onStation ..

/-- A change of marks leaves the records. -/
theorem standing_mapBindings {f : Nat → Binding → Binding} (hf : ∀ i x, (f i x).record = x.record) :
    (s.withBindings (Table.mapAll s.bindings f)).standing = s.standing := by
  simp [standing, Table.mapAll, Function.comp_def, hf]

@[simp] theorem standing_onBinding (b : Nat) {f : Binding → Binding} (hf : ∀ x, (f x).record = x.record) :
    (s.onBinding b f).standing = s.standing := by
  refine Eq.trans (congrArg standing ?_) (s.standing_mapBindings (f := fun i x => if i = b then f x else x) ?_)
  · simp only [onBinding, Table.adjust, Table.mapAll]
    congr 1
    refine List.map_congr_left fun e _ => ?_
    split <;> rfl
  · intro i x
    split
    · exact hf x
    · rfl

/-! ## Claims -/

@[simp] theorem standing_resolve (c tenths : Nat) : (s.resolve c tenths).standing = s.standing := rfl

@[simp] theorem standing_markDisplaced (c : Nat) (o : Origin) : (s.markDisplaced c o).standing = s.standing := by
  cases o <;> simp [markDisplaced]

@[simp] theorem standing_markRefused (o : Origin) : (s.markRefused o).standing = s.standing := by
  cases o <;> simp [markRefused]

@[simp] theorem standing_judgeLive (n : Nat) : (s.judgeLive n).standing = s.standing := by simp [judgeLive]

@[simp] theorem standing_departed (byOther : Bool) (o : Origin) : (s.departed byOther o).standing = s.standing := by
  cases o <;> simp [departed]

@[simp] theorem standing_place (c : Nat) (k : Contribution) : (s.place c k).1.standing = s.standing := by
  have outcome := s.place_outcome c k
  generalize s.place c k = r at outcome
  cases outcome with
  | displaced => simp [withClaims]
  | refused => simp
  | _ => rfl

@[simp] theorem standing_remove (byOther : Bool) (o : Origin) (c : Nat) :
    (s.remove byOther o c).standing = s.standing := by
  have outcome := s.remove_outcome byOther o c
  generalize s.remove byOther o c = r at outcome
  cases outcome with
  | absent => rfl
  | taken => simp

@[simp] theorem standing_removeEverywhere (o : Origin) : (s.removeEverywhere o).standing = s.standing :=
  s.standing_foldl (by simp) _

@[simp] theorem standing_redormWhere (test : Nat → Bool) : (s.redormWhere test).standing = s.standing := rfl

@[simp] theorem standing_redormAll : s.redormAll.standing = s.standing := rfl

@[simp] theorem standing_masterChange (z v tenths : Nat) (maker : Option Nat) :
    (s.masterChange z v tenths maker).standing = s.standing := by
  unfold masterChange
  split
  · rfl
  · split
    · rfl
    · exact (standing_mapBindings _ fun _ _ => by split <;> rfl).trans (standing_foldl _ (by simp) _)

/-! ## Scenes and bindings -/

@[simp] theorem standing_placeAll (claims : List (Nat × Contribution)) : (s.placeAll claims).1.standing = s.standing :=
  standing_foldlFst (by simp) claims (s, _)

@[simp] theorem standing_judgeScene (n : Nat) (refused : Bool) : (s.judgeScene n refused).standing = s.standing := rfl

@[simp] theorem standing_recall (n tier : Nat) (r : Recaller) : (s.recall n tier r).standing = s.standing := by
  unfold State.recall
  split <;> simp

@[simp] theorem standing_releaseScene (n : Nat) : (s.releaseScene n).standing = s.standing := by
  unfold releaseScene
  split
  · rfl
  · exact s.standing_foldl (by simp) _

@[simp] theorem standing_rewriteLive (n : Nat) (sc : Scene) (new : SceneDef) :
    (s.rewriteLive n sc new).standing = s.standing := by simp [rewriteLive, standing_foldl]

@[simp] theorem standing_releaseLight (b : Nat) : (s.releaseLight b).standing = s.standing := by
  unfold releaseLight
  split
  · rfl
  · simp [standing_foldl]

/-! ## Modes -/

@[simp] theorem standing_reportFeed (r : Feed) : (s.reportFeed r).standing = s.standing := rfl

@[simp] theorem standing_reportLatchClear : s.reportLatchClear.standing = s.standing := rfl

@[simp] theorem standing_reportRackOnline (r : Nat) : (s.reportRackOnline r).standing = s.standing := rfl

@[simp] theorem standing_stepExpiry : s.stepExpiry.standing = s.standing := rfl

@[simp] theorem standing_redormBeforeReport : s.redormBeforeReport.standing = s.standing := by
  rw [redormBeforeReport_frame]; rfl

@[simp] theorem standing_changeMode (m : HouseMode) : (s.changeMode m).standing = s.standing := by
  simp [changeMode, standing_foldl]

@[simp] theorem standing_setLatch : s.setLatch.standing = s.standing := by
  simp only [setLatch, standing_raise]
  exact standing_foldl _ (by simp) _

@[simp] theorem standing_clearLatch : s.clearLatch.standing = s.standing := by
  unfold clearLatch
  cases Config.latchReportFirst s.freeUses <;> simp <;> rfl

@[simp] theorem standing_panicChange (asserted : Bool) : (s.panicChange asserted).standing = s.standing := by
  simp only [panicChange, standing_ite]
  exact ite_self _

@[simp] theorem standing_panicExpiry : s.panicExpiry.standing = s.standing := by
  unfold panicExpiry
  split
  · rfl
  · simp; rfl

@[simp] theorem standing_panicLevel (asserted : Bool) : (s.panicLevel asserted).standing = s.standing := by
  unfold panicLevel
  split
  · exact s.standing_panicChange asserted
  · rfl

/-! ## The image and the resets -/

@[simp] theorem standing_completeSave : s.completeSave.standing = s.standing := by
  unfold completeSave
  split <;> rfl

@[simp] theorem standing_beginPinReset : s.beginPinReset.standing = s.standing := by
  unfold beginPinReset
  split <;> rfl

/-! ## Actions -/

@[simp] theorem standing_recordHolding (b c : Nat) (key : Option StationInput) (v : Verdict) :
    (s.recordHolding b c key v).standing = s.standing := by
  unfold recordHolding
  split <;> simp

@[simp] theorem standing_judgeBinding (b : Nat) (tally : Tally) : (s.judgeBinding b tally).standing = s.standing := by
  have judged : ∀ x : Binding, (if tally.refused = true then { x with partialMark := true }
      else { x with partialMark := false, displacedMark := false }).record = x.record := by
    intro x
    split <;> rfl
  simp [judgeBinding, judged]

@[simp] theorem standing_firePlacing (b : Nat) (area : Area) (k : Contribution) :
    (s.firePlacing b area k).standing = s.standing := by
  simp only [firePlacing, standing_judgeBinding]
  exact standing_foldlFst (by simp) _ (s, _)

@[simp] theorem standing_releaseTier (b tier c : Nat) : (s.releaseTier b tier c).standing = s.standing :=
  s.standing_foldl (by simp) _

@[simp] theorem standing_stepMaster (z : Nat) (upward : Bool) (n : Nat) :
    (s.stepMaster z upward n).standing = s.standing := by
  unfold stepMaster
  split <;> simp

@[simp] theorem standing_fireRepeat (b z : Nat) (upward : Bool) (n : Nat) (source : FiringSource) :
    (s.fireRepeat b z upward n source).standing = s.standing := by
  cases source <;> simp [fireRepeat, startRepeat]

@[simp] theorem standing_repeatExpiry (b : Nat) : (s.repeatExpiry b).standing = s.standing := by
  unfold repeatExpiry
  split <;> simp

@[simp] theorem standing_applyPosition (b q : Nat) (a : Action) : (s.applyPosition b q a).standing = s.standing := by
  cases a <;> simp [applyPosition]

@[simp] theorem standing_pickup (b : Nat) (captured : Bool) (a : Action) (p : Option Nat) (q : Nat) :
    (s.pickup b captured a p q).standing = s.standing := by
  unfold pickup
  split
  · simp
  · split <;> simp

@[simp] theorem standing_fireMode (m : HouseMode) (source : FiringSource) :
    (s.fireMode m source).standing = s.standing := by
  cases source <;> simp [fireMode]

/-- No action changes a record. -/
@[simp] theorem standing_perform (b : Nat) (x : Binding) (source : FiringSource) (p : Option Nat) (q : Nat) :
    (s.perform b x source p q).standing = s.standing := by
  unfold perform
  split
  case h_3 => exact s.standing_foldl (by simp) _
  case h_9 | h_10 => cases source <;> simp
  all_goals simp

@[simp] theorem standing_fire (b : Nat) (x : Binding) (source : FiringSource) (p q : Option Nat) :
    (s.fire b x source p q).standing = s.standing := by simp [fire]

@[simp] theorem standing_offer (key : StationInput) (p q : Option Nat) (b : Nat) :
    (s.offer key p q b).standing = s.standing := by
  unfold offer
  split <;> simp

@[simp] theorem standing_report (key : StationInput) (g : Gesture) (p q : Option Nat) :
    (s.report key g p q).standing = s.standing := s.standing_foldl (by simp) _

/-! ## Gestures -/

@[simp] theorem standing_dropHoldings (key : StationInput) : (s.dropHoldings key).standing = s.standing := by
  unfold dropHoldings
  split
  · rfl
  · simp [standing_foldl]

@[simp] theorem standing_letGo (key : StationInput) : (s.letGo key).standing = s.standing := by simp [letGo, dropRepeats]

@[simp] theorem standing_firstPress (key : StationInput) (stamp : Option Stamp) :
    (s.firstPress key stamp).standing = s.standing := by simp [firstPress]

@[simp] theorem standing_secondPress (key : StationInput) (stamp : Option Stamp) :
    (s.secondPress key stamp).standing = s.standing := by simp [secondPress]

@[simp] theorem standing_pressNow (key : StationInput) : (s.pressNow key).standing = s.standing := by simp [pressNow]

@[simp] theorem standing_synthesizedUp (key : StationInput) (was : KeyState) :
    (s.synthesizedUp key was).standing = s.standing := by cases was <;> simp [synthesizedUp]

@[simp] theorem standing_keyDown (key : StationInput) (r : KeyRecord) (stamp : Stamp) :
    (s.keyDown key r stamp).standing = s.standing := by
  unfold keyDown
  split <;> simp

@[simp] theorem standing_keyUp (key : StationInput) (r : KeyRecord) (stamp : Stamp) :
    (s.keyUp key r stamp).standing = s.standing := by
  unfold keyUp
  dsimp only
  split <;> simp

@[simp] theorem standing_holdExpiry (key : StationInput) : (s.holdExpiry key).standing = s.standing := by
  unfold holdExpiry
  split <;> simp

@[simp] theorem standing_doubleExpiry (key : StationInput) : (s.doubleExpiry key).standing = s.standing := by
  unfold doubleExpiry
  split <;> simp

@[simp] theorem standing_stuckExpiry (key : StationInput) : (s.stuckExpiry key).standing = s.standing := by
  unfold stuckExpiry
  split <;> simp

@[simp] theorem standing_contactEvent (key : StationInput) (edge : EdgeMode) (closing : Bool) :
    (s.contactEvent key edge closing).standing = s.standing := by simp [contactEvent, dropRepeats]

@[simp] theorem standing_faderMove (key : StationInput) (r : KeyRecord) (q : Nat) :
    (s.faderMove key r q).standing = s.standing := by simp [faderMove]

@[simp] theorem standing_stationEvent (l : Line) (a : Nat) (e : StationEvent) :
    (s.stationEvent l a e).standing = s.standing := by
  unfold stationEvent
  dsimp only
  split
  · rfl
  · split <;> simp

@[simp] theorem standing_compareInput (l : Line) (a : Nat) (reading : Nat × InputReading) :
    (s.compareInput l a reading).standing = s.standing := by
  unfold compareInput
  dsimp only
  split
  · rfl
  · split
    · split <;> simp
    · split <;> simp
    all_goals simp

@[simp] theorem standing_compareSnapshot (l : Line) (a : Nat) (inputs : List (Nat × InputReading)) :
    (s.compareSnapshot l a inputs).standing = s.standing := s.standing_foldl (by simp) _

@[simp] theorem standing_clearCaptures (l : Line) (a : Nat) : (s.clearCaptures l a).standing = s.standing :=
  s.standing_mapBindings fun _ x => by split <;> rfl

@[simp] theorem standing_gestureMissing (l : Line) (a : Nat) : (s.gestureMissing l a).standing = s.standing := by
  simp [gestureMissing, standing_foldl]

@[simp] theorem standing_gestureReturn (l : Line) (a : Nat) : (s.gestureReturn l a).standing = s.standing :=
  s.standing_foldl (by simp) _

@[simp] theorem standing_discardKeys (l : Line) (a : Nat) : (s.discardKeys l a).standing = s.standing := by
  simp [discardKeys, standing_foldl]

/-! ## Groups -/

@[simp] theorem standing_pruneWaiting (group : Nat) (g : Group) (l : Line) :
    (s.pruneWaiting group g l).standing = s.standing := by simp [pruneWaiting]

@[simp] theorem standing_onDelivery (group : Nat) (f : DeliveryEntry → DeliveryEntry) :
    (s.onDelivery group f).standing = s.standing := by
  unfold onDelivery
  split <;> simp

@[simp] theorem standing_offlineWhere (test : Member → Bool) : (s.offlineWhere test).standing = s.standing :=
  s.standing_foldl (by simp) _

@[simp] theorem standing_wait (group : Nat) (l : Line) : (s.wait group l).standing = s.standing := standing_onUnit ..

@[simp] theorem standing_settleQuery (group : Nat) (m : Member) (how : QueryEnd) :
    (s.settleQuery group m how).standing = s.standing := by simp [settleQuery]

@[simp] theorem standing_deliver (group : Nat) (banner : LampState) : (s.deliver group banner).standing = s.standing := by
  unfold deliver
  split <;> simp [forgetQueries]

@[simp] theorem standing_setMembers (group : Nat) (members : List Member) :
    (s.setMembers group members).standing = s.standing := by
  unfold setMembers
  split <;> simp [forgetQueries]

@[simp] theorem standing_leaveGroups (m : Member) : (s.leaveGroups m).standing = s.standing := by simp [leaveGroups]

@[simp] theorem standing_complete (r : Reply) : (s.complete r).standing = s.standing := by
  unfold complete
  split <;> simp

/-! ## Station lines -/

@[simp] theorem standing_deriveLamps (l : Line) (a : Nat) : (s.deriveLamps l a).standing = s.standing :=
  standing_onStation ..

@[simp] theorem standing_enterOnline (l : Line) (a : Nat) : (s.enterOnline l a).standing = s.standing := by
  simp [enterOnline]

@[simp] theorem standing_enterMissing (l : Line) (a : Nat) : (s.enterMissing l a).standing = s.standing := by
  simp [enterMissing, offlineStation]

@[simp] theorem standing_enterMismatch (l : Line) (a : Nat) : (s.enterMismatch l a).standing = s.standing := by
  simp [enterMismatch, offlineStation]

@[simp] theorem standing_stationMiss (l : Line) (a : Nat) : (s.stationMiss l a).standing = s.standing := by
  unfold stationMiss
  dsimp only
  split <;> simp

@[simp] theorem standing_acceptEvents (l : Line) (a : Nat) (es : List StationEvent) :
    (s.acceptEvents l a es).standing = s.standing := by
  induction es generalizing s with
  | nil => rfl
  | cons e es ih => simp [acceptEvents, ih]

@[simp] theorem standing_noteAnswered (l : Line) (c : StationCall) (side : LineEnd) :
    (s.noteAnswered l c side).standing = s.standing := standing_onStation ..

@[simp] theorem standing_wrongKind (l : Line) (a : Nat) (state : StationState) :
    (s.wrongKind l a state).standing = s.standing := by simp [wrongKind]

@[simp] theorem standing_takeAnswer (l : Line) (c : StationCall) (side : LineEnd) (f : AnswerFrame) :
    (s.takeAnswer l c side f).standing = s.standing := by
  unfold takeAnswer
  dsimp only
  split
  · simp
  · split
    · simp
    · split
      case h_5 => split <;> simp
      all_goals simp

@[simp] theorem standing_takeSnapshot (l : Line) (c : StationCall) (side : LineEnd) (f : SnapshotFrame) :
    (s.takeSnapshot l c side f).standing = s.standing := by
  unfold takeSnapshot
  dsimp only
  split <;> simp

@[simp] theorem standing_missedCall (l : Line) (c : StationCall) (how : QueryEnd) :
    (s.missedCall l c how).standing = s.standing := by
  unfold missedCall
  dsimp only
  split <;> simp

@[simp] theorem standing_endCall (l : Line) (c : StationCall) (how : SlotEnd) :
    (s.endCall l c how).standing = s.standing := by
  unfold endCall
  dsimp only
  cases how <;> simp

@[simp] theorem standing_endSurveySlot (l : Line) (a : Nat) (how : SlotEnd) :
    (s.endSurveySlot l a how).standing = s.standing := by
  unfold endSurveySlot
  split <;> simp

@[simp] theorem standing_endSlot (l : Line) (x : Slot) (how : SlotEnd) : (s.endSlot l x how).standing = s.standing := by
  unfold endSlot
  dsimp only
  split <;> simp

@[simp] theorem standing_answerHeard (l : Line) (heard : List Heard) : (s.answerHeard l heard).standing = s.standing := by
  unfold answerHeard
  split
  · rfl
  · split <;> simp

@[simp] theorem standing_snapshotHeard (l : Line) (heard : List Heard) :
    (s.snapshotHeard l heard).standing = s.standing := by
  unfold snapshotHeard
  split
  · rfl
  · split <;> simp

@[simp] theorem standing_windowExpiry (l : Line) : (s.windowExpiry l).standing = s.standing := by
  unfold windowExpiry
  split
  · rfl
  · split <;> simp

@[simp] theorem standing_loseLine (l : Line) : (s.loseLine l).standing = s.standing := by simp [loseLine, standing_foldl]

@[simp] theorem standing_enterSplit (l : Line) : (s.enterSplit l).standing = s.standing := standing_onUnit ..

@[simp] theorem standing_heal (l : Line) : (s.heal l).standing = s.standing := standing_onUnit ..

@[simp] theorem standing_bringIntact (l : Line) : (s.bringIntact l).standing = s.standing := by
  simp [bringIntact, standing_foldl]

@[simp] theorem standing_foreignHeard (l : Line) : (s.foreignHeard l).standing = s.standing := by
  unfold foreignHeard
  dsimp only
  split <;> simp

@[simp] theorem standing_markedSent (l : Line) (echo : Bool) : (s.markedSent l echo).standing = s.standing := by
  unfold markedSent
  dsimp only
  split
  · rfl
  · split
    · rfl
    · split <;> simp

@[simp] theorem standing_frameSent (l : Line) : (s.frameSent l).standing = s.standing := by
  unfold frameSent
  split
  · rfl
  · split
    case h_3 => split <;> simp
    all_goals simp

@[simp] theorem standing_beginSlot (l : Line) (carries : SlotUse) (content : List (List Byte))
    (sides : LineEnd × Option LineEnd) : (s.beginSlot l carries content sides).standing = s.standing :=
  standing_onUnit ..

@[simp] theorem standing_beginCall (l : Line) (a : Nat) (fromProbeList : Bool) :
    (s.beginCall l a fromProbeList).standing = s.standing := by
  unfold beginCall
  dsimp only
  split
  · simp
  · split <;> simp

@[simp] theorem standing_beginStationCall (l : Line) : (s.beginStationCall l).standing = s.standing := by
  unfold beginStationCall
  dsimp only
  split <;> simp

@[simp] theorem standing_startSlot (l : Line) : (s.startSlot l).standing = s.standing := by
  unfold startSlot
  dsimp only
  split
  · rfl
  · split
    · simp
    · split
      · simp
      · split <;> simp

@[simp] theorem standing_probeExpiry (l : Line) : (s.probeExpiry l).standing = s.standing := by simp [probeExpiry]

@[simp] theorem standing_healExpiry (l : Line) : (s.healExpiry l).standing = s.standing := by simp [healExpiry]

@[simp] theorem standing_listenExpiry (l : Line) : (s.listenExpiry l).standing = s.standing := by simp [listenExpiry]

/-! ## The rack link -/

@[simp] theorem standing_serveRack (r : Option Nat) : (s.serveRack r).standing = s.standing := rfl

@[simp] theorem standing_beginRound : s.beginRound.standing = s.standing := rfl

@[simp] theorem standing_endRackSlot (r : Nat) : (s.endRackSlot r).standing = s.standing := by
  unfold endRackSlot
  split <;> simp

@[simp] theorem standing_roundExpiry : s.roundExpiry.standing = s.standing := by simp [roundExpiry]

@[simp] theorem standing_levelFrameSent : s.levelFrameSent.standing = s.standing := by
  unfold levelFrameSent
  split
  · split <;> simp
  · rfl

@[simp] theorem standing_takeReply (r : Nat) (f : RackReplyFrame) : (s.takeReply r f).standing = s.standing := by
  unfold takeReply
  split <;> simp

@[simp] theorem standing_replyHeard (chars : List Character) : (s.replyHeard chars).standing = s.standing := by
  unfold replyHeard
  split <;> simp

@[simp] theorem standing_missReply (r : Nat) : (s.missReply r).standing = s.standing := by
  unfold missReply
  split <;> simp

@[simp] theorem standing_replyWindowExpiry : s.replyWindowExpiry.standing = s.standing := by
  unfold replyWindowExpiry
  split <;> simp

end

end State

end Sys2Proof.Machine
end

section
/-! SUPPORT. What a request that is taken leaves standing, and the house partition under the house lock (R60, R62). -/

namespace Sys2Proof.Machine

/-! ## Requests that change nothing that stands -/

/-- What comes of checks in their order: a refusal with nothing changed, or the work where none of them fails (R161). -/
theorem State.inOrder_cases (s : State) (checks : List (Bool × Result)) (taken : Work) :
    (s.inOrder checks taken).state = s ∨
      ((∀ c ∈ checks, c.1 = false) ∧ (s.inOrder checks taken).state = taken.state) := by
  unfold State.inOrder
  cases h : checks.find? (·.1) with
  | some c => exact .inl rfl
  | none => exact .inr ⟨by simpa using h, rfl⟩

@[simp] theorem Work.state_done (s : State) : (Work.done s).state = s := rfl
@[simp] theorem Work.state_refuse (r : Result) (s : State) : (Work.refuse r s).state = s := rfl
@[simp] theorem Work.state_read (body : List Byte) (s : State) : (Work.read body s).state = s := rfl
@[simp] theorem Work.state_answered (r : Reply) (s : State) : (Work.answered r s).state = s := rfl
@[simp] theorem Work.state_inWork (s : State) : (Work.inWork s).state = s := rfl
@[simp] theorem Work.state_ended (s : State) : (Work.ended s).state = s := rfl

/-- The work of a request leaves what stands. -/
def LeavesStanding (work : State → Work) : Prop := ∀ s, (work s).state.standing = s.standing

section
variable {s : State}

theorem State.standing_inOrder {checks : List (Bool × Result)} {taken : Work}
    (h : taken.state.standing = s.standing) : (s.inOrder checks taken).state.standing = s.standing := by
  rcases s.inOrder_cases checks taken with same | ⟨_, same⟩
  · rw [same]
  · rw [same, h]

/-- A decoded body is refused with nothing changed, or its request is carried out. -/
theorem State.parsed_cases {α : Type} (s : State) (p : Parsed α) (taken : α → Work) :
    (s.parsed p taken).state = s ∨ ∃ v, p = .ok v ∧ (s.parsed p taken).state = (taken v).state := by
  unfold State.parsed
  split
  · exact .inl rfl
  · cases p with
    | malformed => exact .inl rfl
    | outOfRange => exact .inl rfl
    | ok v => exact .inr ⟨v, rfl, rfl⟩

theorem State.standing_parsed {α : Type} {p : Parsed α} {taken : α → Work}
    (h : ∀ v, (taken v).state.standing = s.standing) : (s.parsed p taken).state.standing = s.standing := by
  rcases s.parsed_cases p taken with same | ⟨v, _, same⟩
  · rw [same]
  · rw [same, h]

end

theorem leavesStanding_identify (body : List Byte) : LeavesStanding (identify body) := fun _ => State.standing_inOrder rfl

theorem leavesStanding_readAttention (body : List Byte) : LeavesStanding (readAttention body) :=
  fun _ => State.standing_inOrder rfl

@[simp] theorem State.standing_afterConfigure (s : State) (id : Nat) (became : Bool) :
    (s.afterConfigure id became).standing = s.standing := by simp [State.afterConfigure]

@[simp] theorem State.standing_newCircuit (s : State) (id : Nat) (c : CircuitConfig) :
    (s.newCircuit id c).standing = s.standing := by simp [State.newCircuit]

@[simp] theorem State.standing_changeCircuit (s : State) (id : Nat) (old new : CircuitConfig) :
    (s.changeCircuit id old new).standing = s.standing := by simp [State.changeCircuit]

theorem leavesStanding_configureCircuit (body : List Byte) : LeavesStanding (configureCircuit body) :=
  fun s => State.standing_parsed fun (id, c) => State.standing_inOrder (by
    dsimp only [Work.state_done]
    split <;> simp)

theorem leavesStanding_unconfigureCircuit (body : List Byte) : LeavesStanding (unconfigureCircuit body) := fun s => by
  unfold unconfigureCircuit
  split
  · exact State.standing_inOrder (State.standing_foldl _ (by simp) _)
  · rfl

theorem leavesStanding_readCircuit (body : List Byte) : LeavesStanding (readCircuit body) := fun s => by
  unfold readCircuit
  split
  · dsimp only
    split
    · rfl
    · split <;> rfl
  · rfl

theorem State.standing_placeHost (s : State) (id tier level fade : Nat) :
    (s.placeHost id tier level fade).state.standing = s.standing := by
  by_cases refused : (s.place id (hostClaim tier (min 1000 level) (min 6000 fade))).2 = .refused
  · rw [State.placeHost_of_refused refused, Work.state_answered]
  · rw [State.placeHost_of_taken refused, Work.state_answered, State.clearHostDisplaced, State.standing_onCircuit,
      State.standing_place]

theorem leavesStanding_setHostLevel (body : List Byte) : LeavesStanding (setHostLevel body) := fun s => by
  unfold setHostLevel
  split
  · exact State.standing_inOrder (s.standing_placeHost ..)
  · rfl

theorem leavesStanding_releaseHostLevel (body : List Byte) : LeavesStanding (releaseHostLevel body) := fun s => by
  unfold releaseHostLevel
  split
  · dsimp only
    split
    · rfl
    · split
      · rfl
      · split <;> simp [State.clearHostDisplaced]
  · rfl

theorem leavesStanding_configureZone (body : List Byte) : LeavesStanding (configureZone body) :=
  fun s => State.standing_parsed fun (id, configured, fade) => by
    cases configured with
    | true => rfl
    | false => exact State.standing_inOrder rfl

theorem leavesStanding_setMaster (body : List Byte) : LeavesStanding (setMaster body) := fun s => by
  unfold setMaster
  split
  · exact State.standing_inOrder (by simp)
  · rfl

theorem leavesStanding_readZone (body : List Byte) : LeavesStanding (readZone body) := fun s => by
  unfold readZone
  split
  · split
    · rfl
    · split <;> rfl
  · rfl

theorem leavesStanding_readBinding (body : List Byte) : LeavesStanding (readBinding body) := fun s => by
  unfold readBinding
  split
  · dsimp only
    split
    · rfl
    · split <;> rfl
  · rfl

theorem leavesStanding_fireFromHost (id : Nat) (position : Option Nat) :
    LeavesStanding fun s => s.fireFromHost id position := fun s => by
  dsimp only [State.fireFromHost]
  split
  · rfl
  · split
    · rfl
    · split
      · rfl
      · exact State.standing_inOrder (by simp)

theorem leavesStanding_fireBinding (body : List Byte) : LeavesStanding (fireBinding body) := fun s => by
  unfold fireBinding
  split
  · exact leavesStanding_fireFromHost _ _ s
  · exact leavesStanding_fireFromHost _ _ s
  · rfl

theorem leavesStanding_readNotified (body : List Byte) : LeavesStanding (readNotified body) := fun s => by
  unfold readNotified
  split
  · exact State.standing_foldl _ (by simp) _
  · rfl

theorem leavesStanding_writeScene (body : List Byte) : LeavesStanding (writeScene body) :=
  fun s => State.standing_parsed fun (n, d) => State.standing_inOrder (by
    dsimp only [Work.state_done]
    split
    · split <;> simp
    · rfl)

theorem leavesStanding_readScene (body : List Byte) : LeavesStanding (readScene body) := fun s => by
  unfold readScene
  split
  · split
    · rfl
    · split <;> rfl
  · rfl

theorem leavesStanding_deleteScene (body : List Byte) : LeavesStanding (deleteScene body) := fun s => by
  unfold deleteScene
  split
  · exact State.standing_inOrder (by simp)
  · rfl

theorem leavesStanding_recallScene (body : List Byte) : LeavesStanding (recallScene body) := fun s => by
  unfold recallScene
  split
  · exact State.standing_inOrder (by simp)
  · rfl

theorem leavesStanding_releaseScene (body : List Byte) : LeavesStanding (releaseScene body) := fun s => by
  unfold releaseScene
  split
  · exact State.standing_inOrder (by simp)
  · rfl

@[simp] theorem State.standing_configureStation (s : State) (l : Line) (a : Nat) (setup : StationSetup) :
    (s.configureStation l a setup).standing = s.standing := by
  unfold State.configureStation
  split
  · simp
  · split <;> simp [State.offlineStation]

theorem leavesStanding_configureStation (body : List Byte) : LeavesStanding (configureStation body) :=
  fun s => State.standing_parsed fun (l, a, setup) => s.standing_configureStation l a setup

theorem leavesStanding_removeStation (body : List Byte) : LeavesStanding (removeStation body) := fun s => by
  unfold removeStation
  split
  · split
    · rfl
    · exact State.standing_inOrder (by simp [State.removeStation])
  · rfl

theorem leavesStanding_readStation (body : List Byte) : LeavesStanding (readStation body) := fun s => by
  unfold readStation
  split
  · split
    · rfl
    · split
      · rfl
      · split <;> rfl
  · rfl

theorem leavesStanding_configureGroup (body : List Byte) : LeavesStanding (configureGroup body) :=
  fun s => State.standing_parsed fun (group, members) => State.standing_inOrder (s.standing_setMembers group members)

theorem leavesStanding_sendGroupLamp (body : List Byte) : LeavesStanding (sendGroupLamp body) := fun s => by
  unfold sendGroupLamp
  split
  · split
    · rfl
    · exact State.standing_inOrder (by simp)
  · rfl

theorem leavesStanding_readGroupResult (body : List Byte) : LeavesStanding (readGroupResult body) := fun s => by
  unfold readGroupResult
  split
  · split <;> rfl
  · rfl

theorem leavesStanding_survey (body : List Byte) : LeavesStanding (survey body) := fun s => by
  unfold survey
  split
  · split
    · rfl
    · exact State.standing_inOrder (by simp)
  · rfl

@[simp] theorem State.standing_turnOff (s : State) (l : Line) : (s.turnOff l).standing = s.standing := by
  simp [State.turnOff]

theorem leavesStanding_lineControl (body : List Byte) : LeavesStanding (lineControl body) := fun s => by
  unfold lineControl
  split
  · split
    · refine State.standing_inOrder ?_
      split
      · unfold State.turnOn
        split <;> simp
      · simp
    · rfl
  · rfl

theorem leavesStanding_selectEnd (body : List Byte) : LeavesStanding (selectEnd body) := fun s => by
  unfold selectEnd
  split
  · split
    · split <;> simp
    · rfl
  · rfl

theorem leavesStanding_lineRestart (body : List Byte) : LeavesStanding (lineRestart body) := fun s => by
  unfold lineRestart
  split
  · split
    · rfl
    · exact State.standing_inOrder (by simp [State.beginRestart])
  · rfl

theorem leavesStanding_readLine (body : List Byte) : LeavesStanding (readLine body) := fun s => by
  unfold readLine
  split
  · split <;> simp
  · rfl

theorem leavesStanding_setMode (body : List Byte) : LeavesStanding (setMode body) := fun s => by
  unfold setMode
  split
  · split <;> simp
  · rfl

theorem leavesStanding_readMode (body : List Byte) : LeavesStanding (readMode body) := fun s => by
  unfold readMode
  split <;> rfl

theorem leavesStanding_clearEgress (body : List Byte) : LeavesStanding (clearEgress body) := fun s => by
  unfold clearEgress
  split
  · exact State.standing_inOrder (by simp)
  · rfl

theorem leavesStanding_configureRack (body : List Byte) : LeavesStanding (configureRack body) :=
  fun s => State.standing_parsed fun (id, configured) => by
    cases configured with
    | true => simp [State.configureRack]
    | false => exact State.standing_inOrder (by simp [State.unconfigureRack])

theorem leavesStanding_readRack (body : List Byte) : LeavesStanding (readRack body) := fun s => by
  unfold readRack
  split
  · split <;> rfl
  · rfl

theorem leavesStanding_saveImage (body : List Byte) : LeavesStanding (saveImage body) :=
  fun _ => State.standing_inOrder rfl

/-! ## The house partition under the lock -/

/-- The house lock stays set, the protect size stays, and every id of the house partition keeps its record or stays free
(R62). -/
def State.HouseKept (s t : State) : Prop :=
  t.houseLock = true ∧ t.protectSize = s.protectSize ∧
    ∀ b ≤ s.protectSize, (Table.at? t.bindings b).map (·.record) = (Table.at? s.bindings b).map (·.record)

section
variable {s t u : State}

theorem State.HouseKept.of_standing (lock : s.houseLock = true) (h : t.standing = s.standing) : s.HouseKept t :=
  ⟨(State.houseLock_of_standing h).trans lock, State.protectSize_of_standing h, fun b _ => State.record_of_standing h b⟩

theorem State.HouseKept.trans (h : s.HouseKept t) (k : t.HouseKept u) : s.HouseKept u :=
  have ⟨_, size, kept⟩ := h
  have ⟨lock, size', kept'⟩ := k
  ⟨lock, size'.trans size, fun b hb => (kept' b (size ▸ hb)).trans (kept b hb)⟩

theorem State.HouseKept.standing (h : s.HouseKept t) (k : u.standing = t.standing) : s.HouseKept u :=
  h.trans (.of_standing h.1 k)

end

/-- The work of a request keeps the house partition while the lock is set. -/
def KeepsHouse (work : State → Work) : Prop := ∀ s : State, s.houseLock = true → s.HouseKept (work s).state

theorem LeavesStanding.keepsHouse {work : State → Work} (h : LeavesStanding work) : KeepsHouse work :=
  fun s lock => .of_standing lock (h s)

theorem KeepsHouse.seeInstall {work : State → Work} (h : KeepsHouse work) (install : Bool) :
    KeepsHouse fun s => work (s.seeInstall install) := fun s lock => h (s.seeInstall install) lock

section
variable {s : State} (lock : s.houseLock = true)
include lock

/-- Checks in their order keep the house partition if the work that passes them all does. -/
theorem State.inOrder_houseKept {checks : List (Bool × Result)} {taken : Work}
    (kept : (∀ c ∈ checks, c.1 = false) → s.HouseKept taken.state) : s.HouseKept (s.inOrder checks taken).state := by
  rcases s.inOrder_cases checks taken with same | ⟨pass, same⟩ <;> rw [same]
  · exact .of_standing lock rfl
  · exact kept pass

theorem State.parsed_houseKept {α : Type} {p : Parsed α} {taken : α → Work}
    (kept : ∀ v, s.HouseKept (taken v).state) : s.HouseKept (s.parsed p taken).state := by
  rcases s.parsed_cases p taken with same | ⟨v, _, same⟩ <;> rw [same]
  · exact .of_standing lock rfl
  · exact kept v

/-- Where the check for the lock passes under the lock, the id lies in the show partition (R50, check 4; R54 to R56). -/
theorem State.show_of_unlocked {b : Nat} {checks : List (Bool × Result)}
    (guarded : (s.inHouse b && s.houseLock, .locked) ∈ checks) (pass : ∀ c ∈ checks, c.1 = false) :
    s.protectSize < b := by
  simpa [State.inHouse, lock] using pass _ guarded

end

/-- A change at one id of the show partition keeps the house partition. -/
theorem State.HouseKept.of_show {s t : State} (lock : s.houseLock = true) {b : Nat} (hb : s.protectSize < b)
    (hl : t.houseLock = s.houseLock) (hp : t.protectSize = s.protectSize)
    (others : ∀ i, i ≠ b → (Table.at? t.bindings i).map (·.record) = (Table.at? s.bindings i).map (·.record)) :
    s.HouseKept t := ⟨hl.trans lock, hp, fun i hi => others i (by omega)⟩

theorem State.writeBinding_record_ne (s : State) {b i : Nat} (h : i ≠ b) (r : BindingRecord) :
    (Table.at? (s.writeBinding b r).bindings i).map (·.record) = (Table.at? s.bindings i).map (·.record) := by
  rw [State.writeBinding, State.withBindings_bindings, Table.at?_put, if_neg h]
  exact State.record_of_standing (s.standing_releaseLight b) i

theorem State.retire_record_ne (s : State) {b i : Nat} (h : i ≠ b) :
    (Table.at? (s.retire b).bindings i).map (·.record) = (Table.at? s.bindings i).map (·.record) := by
  rw [State.retire, State.withBindings_bindings, Table.at?_remove, if_neg h]
  exact State.record_of_standing (s.standing_releaseLight b) i

theorem State.suspend_record_ne (s : State) {b i : Nat} (h : i ≠ b) :
    (Table.at? (s.suspend b).bindings i).map (·.record) = (Table.at? s.bindings i).map (·.record) := by
  rw [State.suspend, State.onBinding_bindings, Table.at?_adjust_ne _ _ h]
  exact State.record_of_standing (s.standing_releaseLight b) i

theorem State.resume_record_ne (s : State) {b i : Nat} (h : i ≠ b) :
    (Table.at? (s.resume b).bindings i).map (·.record) = (Table.at? s.bindings i).map (·.record) := by
  rw [State.resume, State.onBinding_bindings, Table.at?_adjust_ne _ _ h]

theorem State.releaseLight_houseLock (s : State) (b : Nat) : (s.releaseLight b).houseLock = s.houseLock :=
  State.houseLock_of_standing (s.standing_releaseLight b)

theorem State.releaseLight_protectSize (s : State) (b : Nat) : (s.releaseLight b).protectSize = s.protectSize :=
  State.protectSize_of_standing (s.standing_releaseLight b)

theorem keepsHouse_writeBinding (body : List Byte) : KeepsHouse (writeBinding body) := fun s lock =>
  State.parsed_houseKept lock fun (id, r) => State.inOrder_houseKept lock fun pass =>
    .of_show lock (State.show_of_unlocked lock (by simp [State.houseRefusals]) pass) (s.releaseLight_houseLock id)
      (s.releaseLight_protectSize id) fun i hi => s.writeBinding_record_ne hi r

theorem State.lock_mem_lifecycleRefusals (s : State) (id : Nat) :
    (s.inHouse id && s.houseLock, .locked) ∈ s.lifecycleRefusals id := by
  simp [State.lifecycleRefusals, State.houseRefusals]

theorem keepsHouse_retireBinding (body : List Byte) : KeepsHouse (retireBinding body) := fun s lock => by
  unfold retireBinding
  split
  · exact State.inOrder_houseKept lock fun pass =>
      .of_show lock (State.show_of_unlocked lock (s.lock_mem_lifecycleRefusals _) pass) (s.releaseLight_houseLock _)
        (s.releaseLight_protectSize _) fun i hi => s.retire_record_ne hi
  · exact .of_standing lock rfl

theorem keepsHouse_suspendBinding (body : List Byte) : KeepsHouse (suspendBinding body) := fun s lock => by
  unfold suspendBinding
  split
  · refine State.inOrder_houseKept lock fun pass => ?_
    split
    · exact .of_standing lock rfl
    · exact .of_show lock (State.show_of_unlocked lock (s.lock_mem_lifecycleRefusals _) pass)
        (s.releaseLight_houseLock _) (s.releaseLight_protectSize _) fun i hi => s.suspend_record_ne hi
  · exact .of_standing lock rfl

theorem keepsHouse_resumeBinding (body : List Byte) : KeepsHouse (resumeBinding body) := fun s lock => by
  unfold resumeBinding
  split
  · exact State.inOrder_houseKept lock fun pass =>
      .of_show lock (State.show_of_unlocked lock (s.lock_mem_lifecycleRefusals _) pass) rfl rfl
        fun i hi => s.resume_record_ne hi
  · exact .of_standing lock rfl

/-- The protect size does not change under the lock (R60). -/
theorem keepsHouse_setProtectSize (body : List Byte) : KeepsHouse (setProtectSize body) := fun _ lock =>
  State.parsed_houseKept lock fun size => State.inOrder_houseKept lock fun pass => by simp [lock] at pass

theorem keepsHouse_lockHouse (body : List Byte) : KeepsHouse (lockHouse body) := fun s lock => by
  unfold lockHouse
  split
  · exact State.inOrder_houseKept lock fun _ => ⟨rfl, rfl, fun _ _ => rfl⟩
  · exact .of_standing lock rfl

theorem keepsHouse_setTimings (body : List Byte) : KeepsHouse (setTimings body) := fun _ lock =>
  State.parsed_houseKept lock fun _ => ⟨lock, rfl, fun _ _ => rfl⟩

/-- The work of every request but EraseHouse and Restart keeps the house partition under the lock. -/
theorem keepsHouse_requestOf {install : Bool} {code : Nat} {work : List Byte → State → Work}
    (h : requestOf install code = some work) (erase : code ≠ 0x29) (restart : code ≠ 0x62) (body : List Byte) :
    KeepsHouse (work body) := by
  unfold requestOf at h
  dsimp only at h
  split at h <;> cases h
  · exact (leavesStanding_identify body).keepsHouse
  · exact (leavesStanding_readAttention body).keepsHouse
  · exact (leavesStanding_configureCircuit body).keepsHouse
  · exact (leavesStanding_unconfigureCircuit body).keepsHouse
  · exact (leavesStanding_readCircuit body).keepsHouse
  · exact (leavesStanding_setHostLevel body).keepsHouse
  · exact (leavesStanding_releaseHostLevel body).keepsHouse
  · exact (leavesStanding_configureZone body).keepsHouse
  · exact (leavesStanding_setMaster body).keepsHouse
  · exact (leavesStanding_readZone body).keepsHouse
  · exact (keepsHouse_writeBinding body).seeInstall install
  · exact (leavesStanding_readBinding body).keepsHouse
  · exact (keepsHouse_retireBinding body).seeInstall install
  · exact (keepsHouse_suspendBinding body).seeInstall install
  · exact (keepsHouse_resumeBinding body).seeInstall install
  · exact (leavesStanding_fireBinding body).keepsHouse
  · exact (leavesStanding_readNotified body).keepsHouse
  · exact (keepsHouse_setProtectSize body).seeInstall install
  · exact (keepsHouse_lockHouse body).seeInstall install
  · exact absurd rfl erase
  · exact (leavesStanding_writeScene body).keepsHouse
  · exact (leavesStanding_readScene body).keepsHouse
  · exact (leavesStanding_deleteScene body).keepsHouse
  · exact (leavesStanding_recallScene body).keepsHouse
  · exact (leavesStanding_releaseScene body).keepsHouse
  · exact (leavesStanding_configureStation body).keepsHouse
  · exact (leavesStanding_removeStation body).keepsHouse
  · exact (leavesStanding_readStation body).keepsHouse
  · exact (leavesStanding_configureGroup body).keepsHouse
  · exact (leavesStanding_sendGroupLamp body).keepsHouse
  · exact (leavesStanding_readGroupResult body).keepsHouse
  · exact (leavesStanding_survey body).keepsHouse
  · exact (leavesStanding_lineControl body).keepsHouse
  · exact (leavesStanding_selectEnd body).keepsHouse
  · exact (leavesStanding_lineRestart body).keepsHouse
  · exact (leavesStanding_readLine body).keepsHouse
  · exact (leavesStanding_setMode body).keepsHouse
  · exact (leavesStanding_readMode body).keepsHouse
  · exact (leavesStanding_clearEgress body).keepsHouse
  · exact (leavesStanding_configureRack body).keepsHouse
  · exact (leavesStanding_readRack body).keepsHouse
  · exact keepsHouse_setTimings body
  · exact (leavesStanding_saveImage body).keepsHouse
  · exact absurd rfl restart

/-! ## Transfers and commands -/

section
variable {s : State} (lock : s.houseLock = true)
include lock

theorem State.takeRequest_houseKept {work : State → Work} (h : KeepsHouse work) (code tag : Byte) (body : List Byte) :
    s.HouseKept (s.takeRequest code tag body work) := by
  have worked := h ((s.shiftZeros (3 + body.length)).withHostSlot (.working ⟨code, tag, body⟩)) lock
  unfold State.takeRequest
  split
  · exact .of_standing lock rfl
  · dsimp only
    split
    · split
      · exact .of_standing lock rfl
      · split <;> rename_i heq <;> rw [heq] at worked
        · exact worked.standing rfl
        · exact worked
        · exact worked
    · exact .of_standing lock rfl

theorem State.takeMalformed_houseKept (n : Nat) (tag : Byte) : s.HouseKept (s.takeMalformed n tag) := by
  unfold State.takeMalformed
  split
  · exact .of_standing lock rfl
  · dsimp only
    split <;> exact .of_standing lock rfl

theorem State.fetched_houseKept (n : Nat) : s.HouseKept (s.fetched n) := by
  unfold State.fetched
  split <;> exact .of_standing lock rfl

/-- A transfer of any bytes whose first is not the code of EraseHouse or Restart. -/
theorem State.transferEnd_houseKept (install : Bool) {bytes : List Byte}
    (free : ∀ rest, bytes ≠ 0x29 :: rest ∧ bytes ≠ 0x62 :: rest) : s.HouseKept (s.transferEnd install bytes) := by
  unfold State.transferEnd
  split
  · exact .of_standing lock rfl
  · rename_i code rest
    split
    · exact s.fetched_houseKept lock _
    · split
      · rename_i work _ _ body hw
        split
        · exact s.takeRequest_houseKept lock (keepsHouse_requestOf hw
            (fun e => (free _).1 (congrArg (· :: _) (BitVec.eq_of_toNat_eq (y := 0x29) e)))
            (fun e => (free _).2 (congrArg (· :: _) (BitVec.eq_of_toNat_eq (y := 0x62) e))) body) ..
        · exact s.takeMalformed_houseKept lock ..
      · exact s.takeMalformed_houseKept lock ..

theorem State.whileRunning_houseKept {f : State → State} (h : (f s).standing = s.standing) :
    s.HouseKept (s.whileRunning f) := by
  unfold State.whileRunning
  split
  · exact .of_standing lock h
  · exact .of_standing lock rfl

/-- Every command but EraseHouse, Restart and START_UP keeps the house partition while the lock is set (R60, R62). -/
theorem exec_houseKept {c : Instr} (erase : ∀ i tag body, c ≠ .eraseHouse i tag body)
    (restart : ∀ tag body, c ≠ .restart tag body) (start : c ≠ .startUp)
    (bytes : ∀ i rest, c ≠ .requestTransferMalformed i (0x29 :: rest) ∧ c ≠ .requestTransferMalformed i (0x62 :: rest)) :
    ∃ t, exec c s = .next t ∧ s.HouseKept t := by
  have request (i : Bool) (code tag : Byte) (body : List Byte) {work : List Byte → State → Work}
      (hw : requestOf i code.toNat = some work) (other : code.toNat ≠ 0x29 ∧ code.toNat ≠ 0x62 := by decide) :
      s.HouseKept (s.takeRequest code tag body (work body)) :=
    s.takeRequest_houseKept lock (keepsHouse_requestOf hw other.1 other.2 body) ..
  have event {f : State → State} (h : (f s).standing = s.standing) : s.HouseKept (s.whileRunning f) :=
    s.whileRunning_houseKept lock h
  cases c
  case requestTransferMalformed i rest =>
    exact ⟨_, rfl, s.transferEnd_houseKept lock i fun r =>
      ⟨fun e => (bytes i r).1 (e ▸ rfl), fun e => (bytes i r).2 (e ▸ rfl)⟩⟩
  case fetch n => exact ⟨_, rfl, s.fetched_houseKept lock n⟩
  case identify tag body => exact ⟨_, rfl, request false 0x01 tag body rfl⟩
  case readAttention tag body => exact ⟨_, rfl, request false 0x02 tag body rfl⟩
  case configureCircuit tag body => exact ⟨_, rfl, request false 0x10 tag body rfl⟩
  case unconfigureCircuit tag body => exact ⟨_, rfl, request false 0x11 tag body rfl⟩
  case readCircuit tag body => exact ⟨_, rfl, request false 0x12 tag body rfl⟩
  case setHostLevel tag body => exact ⟨_, rfl, request false 0x13 tag body rfl⟩
  case releaseHostLevel tag body => exact ⟨_, rfl, request false 0x14 tag body rfl⟩
  case configureZone tag body => exact ⟨_, rfl, request false 0x15 tag body rfl⟩
  case setMaster tag body => exact ⟨_, rfl, request false 0x16 tag body rfl⟩
  case readZone tag body => exact ⟨_, rfl, request false 0x17 tag body rfl⟩
  case writeBinding i tag body => exact ⟨_, rfl, request i 0x20 tag body rfl⟩
  case readBinding tag body => exact ⟨_, rfl, request false 0x21 tag body rfl⟩
  case retireBinding i tag body => exact ⟨_, rfl, request i 0x22 tag body rfl⟩
  case suspendBinding i tag body => exact ⟨_, rfl, request i 0x23 tag body rfl⟩
  case resumeBinding i tag body => exact ⟨_, rfl, request i 0x24 tag body rfl⟩
  case fireBinding tag body => exact ⟨_, rfl, request false 0x25 tag body rfl⟩
  case readNotified tag body => exact ⟨_, rfl, request false 0x26 tag body rfl⟩
  case setProtectSize i tag body => exact ⟨_, rfl, request i 0x27 tag body rfl⟩
  case lockHouse i tag body => exact ⟨_, rfl, request i 0x28 tag body rfl⟩
  case eraseHouse i tag body => exact absurd rfl (erase i tag body)
  case writeScene tag body => exact ⟨_, rfl, request false 0x30 tag body rfl⟩
  case readScene tag body => exact ⟨_, rfl, request false 0x31 tag body rfl⟩
  case deleteScene tag body => exact ⟨_, rfl, request false 0x32 tag body rfl⟩
  case recallScene tag body => exact ⟨_, rfl, request false 0x33 tag body rfl⟩
  case releaseScene tag body => exact ⟨_, rfl, request false 0x34 tag body rfl⟩
  case configureStation tag body => exact ⟨_, rfl, request false 0x40 tag body rfl⟩
  case removeStation tag body => exact ⟨_, rfl, request false 0x41 tag body rfl⟩
  case readStation tag body => exact ⟨_, rfl, request false 0x42 tag body rfl⟩
  case configureGroup tag body => exact ⟨_, rfl, request false 0x43 tag body rfl⟩
  case sendGroupLamp tag body => exact ⟨_, rfl, request false 0x44 tag body rfl⟩
  case readGroupResult tag body => exact ⟨_, rfl, request false 0x45 tag body rfl⟩
  case survey tag body => exact ⟨_, rfl, request false 0x46 tag body rfl⟩
  case lineControl tag body => exact ⟨_, rfl, request false 0x47 tag body rfl⟩
  case selectEnd tag body => exact ⟨_, rfl, request false 0x48 tag body rfl⟩
  case lineRestart tag body => exact ⟨_, rfl, request false 0x49 tag body rfl⟩
  case restartListenExpiry l => exact ⟨_, rfl, event (s.standing_listenExpiry l)⟩
  case readLine tag body => exact ⟨_, rfl, request false 0x4A tag body rfl⟩
  case setMode tag body => exact ⟨_, rfl, request false 0x50 tag body rfl⟩
  case readMode tag body => exact ⟨_, rfl, request false 0x51 tag body rfl⟩
  case clearEgress tag body => exact ⟨_, rfl, request false 0x52 tag body rfl⟩
  case configureRack tag body => exact ⟨_, rfl, request false 0x53 tag body rfl⟩
  case readRack tag body => exact ⟨_, rfl, request false 0x54 tag body rfl⟩
  case setTimings tag body => exact ⟨_, rfl, request false 0x60 tag body rfl⟩
  case saveImage tag body => exact ⟨_, rfl, request false 0x61 tag body rfl⟩
  case saveComplete => exact ⟨_, rfl, event s.standing_completeSave⟩
  case restart tag body => exact absurd rfl (restart tag body)
  case powerReset => exact ⟨_, rfl, .of_standing lock rfl⟩
  case pinReset => exact ⟨_, rfl, .of_standing lock s.standing_beginPinReset⟩
  case startUp => exact absurd rfl start
  case slotStart l => exact ⟨_, rfl, event (s.standing_startSlot l)⟩
  case markedCharacterSent l echo => exact ⟨_, rfl, event (s.standing_markedSent l echo)⟩
  case stationAnswer l heard => exact ⟨_, rfl, event (s.standing_answerHeard l heard)⟩
  case snapshotAnswer l heard => exact ⟨_, rfl, event (s.standing_snapshotHeard l heard)⟩
  case answerWindowExpiry l => exact ⟨_, rfl, event (s.standing_windowExpiry l)⟩
  case foreignCharacter l => exact ⟨_, rfl, event (s.standing_foreignHeard l)⟩
  case probeTimerExpiry l => exact ⟨_, rfl, event (s.standing_probeExpiry l)⟩
  case healTimerExpiry l => exact ⟨_, rfl, event (s.standing_healExpiry l)⟩
  case holdTimerExpiry k => exact ⟨_, rfl, event (s.standing_holdExpiry k)⟩
  case doubleTimerExpiry k => exact ⟨_, rfl, event (s.standing_doubleExpiry k)⟩
  case stuckTimerExpiry k => exact ⟨_, rfl, event (s.standing_stuckExpiry k)⟩
  case repeatTimerExpiry b => exact ⟨_, rfl, event (s.standing_repeatExpiry b)⟩
  case stepTimerExpiry => exact ⟨_, rfl, event s.standing_stepExpiry⟩
  case blockTimerExpiry c => exact ⟨_, rfl, event (s.standing_onTransition c _)⟩
  case panicInputChange p => exact ⟨_, rfl, .of_standing lock (s.standing_panicLevel p)⟩
  case panicFilterExpiry => exact ⟨_, rfl, event s.standing_panicExpiry⟩
  case roundTimerExpiry => exact ⟨_, rfl, event s.standing_roundExpiry⟩
  case levelFrameSent => exact ⟨_, rfl, event s.standing_levelFrameSent⟩
  case rackReply chars => exact ⟨_, rfl, event (s.standing_replyHeard chars)⟩
  case replyWindowExpiry => exact ⟨_, rfl, event s.standing_replyWindowExpiry⟩
  case stationFrameSent l => exact ⟨_, rfl, event (s.standing_frameSent l)⟩

end

/-- Settles O34: no command but those excluded reaches a record of the house partition, the lock or the protect size. -/
theorem houseLockGuardsTheHousePartition : Obligations.HouseLockGuardsTheHousePartition := by
  intro s t c lock erase restart start bytes h
  obtain ⟨u, hu, kept⟩ := exec_houseKept lock erase restart start bytes
  cases hu.symm.trans h
  exact kept

end Sys2Proof.Machine
end


section
/-! SUPPORT. What the codes of section 12.2 and the bytes of R176 carry is read back from them: numbers, codes, sets of
modes, and the action of a binding. -/

namespace Sys2Proof.Machine

theorem toNat_byteOf {n : Nat} (h : n < 256) : (byteOf n).toNat = n := Nat.mod_eq_of_lt h

/-- Two bytes are a number below 65536, and each is read from the other (R176). -/
theorem be16_byteOf {n : Nat} (h : n < 65536) : be16 (byteOf (n / 256)) (byteOf n) = n := by
  have high : n / 256 < 256 := by omega
  have low : (byteOf n).toNat = n % 256 := rfl
  rw [be16, toNat_byteOf high, low]
  omega

@[simp] theorem bytes16_be16 (h l : Byte) : bytes16 (be16 h l) = [h, l] := by
  have highLt := h.isLt
  have lowLt := l.isLt
  have high : byteOf (be16 h l / 256) = h := by
    apply BitVec.eq_of_toNat_eq
    have : be16 h l / 256 = h.toNat := by unfold be16; omega
    rw [this, toNat_byteOf highLt]
  have low : byteOf (be16 h l) = l := by
    apply BitVec.eq_of_toNat_eq
    show be16 h l % 256 = l.toNat
    unfold be16
    omega
  rw [bytes16, high, low]

@[simp] theorem lineOfCode_lineCode (l : Line) : lineOfCode (lineCode l) = some l := by cases l <;> rfl

@[simp] theorem gestureOfCode_code (g : Gesture) : gestureOfCode g.code = some g := by cases g <;> rfl

@[simp] theorem lampLinkOfCode_orAbsent (lamp : Option LampLink) :
    lampLinkOfCode (orAbsent (lamp.map LampLink.code)) = some lamp := by
  rcases lamp with _ | link
  · rfl
  · cases link <;> rfl

@[simp] theorem flagOfByte_flagByte (b : Bool) : flagOfByte (flagByte b) = some b := by cases b <;> rfl

/-- A set of modes that is not empty is read back from its byte (R176, R50). -/
theorem modeSetOfByte_toByte {m : ModeSet} (h : ∃ mode, m.has mode = true) : modeSetOfByte m.toByte = some m := by
  obtain ⟨work, prepare, performance, interval, cleaning, night⟩ := m
  have someMode : (work || prepare || performance || interval || cleaning || night) = true := by
    obtain ⟨mode, hm⟩ := h
    cases mode <;> simp_all [ModeSet.has]
  revert someMode
  cases work <;> cases prepare <;> cases performance <;> cases interval <;> cases cleaning <;> cases night <;> decide

@[simp] theorem modeOfNat_toNat_code (m : HouseMode) : modeOfNat m.code.toNat = some m := by cases m <;> rfl

/-- An area in range is sent as three bytes that are read back as it (section 12.2). -/
theorem Area.bytes_readBack {a : Area} (h : a.inRange = true) :
    ∃ kind th tl, a.bytes = [kind, th, tl] ∧ areaOf kind.toNat (be16 th tl) = some a := by
  cases a with
  | circuit c =>
    obtain ⟨_, hc⟩ := within_iff.1 h
    exact ⟨_, _, _, rfl, by simp [areaOf, be16_byteOf (show c < 65536 by omega)]⟩
  | zone z =>
    obtain ⟨_, hz⟩ := within_iff.1 h
    exact ⟨_, _, _, rfl, by simp [areaOf, be16_byteOf (show z < 65536 by omega)]⟩

/-- The fields of a LEVEL action of an area and a momentary flag that are read (section 12.4). -/
theorem decodeAction_level {kind id : Nat} {a : Area} {m : Bool} (area : areaOf kind id = some a) (lh ll t fh fl : Byte) :
    decodeAction 0 kind id [lh, ll, t, fh, fl, flagByte m] =
      some (some (.level a (be16 lh ll) t.toNat (be16 fh fl) m)) := by
  show (match areaOf kind id, flagOfByte (flagByte m) with
    | some a, some m => some (some (Action.level a (be16 lh ll) t.toNat (be16 fh fl) m))
    | _, _ => none) = _
  rw [area, flagOfByte_flagByte]

/-- An action in range is read back from its code, its target and its fields (section 12.4). -/
theorem Action.bytes_readBack {a : Action} (h : a.inRange = true) : ∃ kind th tl, a.targetBytes = [kind, th, tl] ∧
    decodeAction a.code.toNat kind.toNat (be16 th tl) a.fieldBytes = some (some a) := by
  cases a with
  | level area l t f m =>
    simp only [Action.inRange, Bool.and_eq_true, within_iff] at h
    obtain ⟨⟨⟨area_ok, _, hl⟩, _, ht⟩, _, hf⟩ := h
    obtain ⟨kind, th, tl, bytes, read⟩ := Area.bytes_readBack area_ok
    refine ⟨kind, th, tl, bytes, (decodeAction_level read _ _ _ _ _).trans ?_⟩
    rw [be16_byteOf (by omega), be16_byteOf (by omega), toNat_byteOf (by omega)]
  | toggle area l t f =>
    simp only [Action.inRange, Bool.and_eq_true, within_iff] at h
    obtain ⟨⟨⟨area_ok, _, hl⟩, _, ht⟩, _, hf⟩ := h
    obtain ⟨kind, th, tl, bytes, read⟩ := Area.bytes_readBack area_ok
    refine ⟨kind, th, tl, bytes, ?_⟩
    show (areaOf _ _).map (fun a => some (Action.toggle a (be16 _ _) (byteOf t).toNat (be16 _ _))) = _
    rw [read, be16_byteOf (by omega), be16_byteOf (by omega), toNat_byteOf (by omega)]
    rfl
  | release area t =>
    simp only [Action.inRange, Bool.and_eq_true, within_iff] at h
    obtain ⟨area_ok, _, ht⟩ := h
    obtain ⟨kind, th, tl, bytes, read⟩ := Area.bytes_readBack area_ok
    refine ⟨kind, th, tl, bytes, ?_⟩
    show (areaOf _ _).map (fun a => some (Action.release a (byteOf t).toNat)) = _
    rw [read, toNat_byteOf (by omega)]
    rfl
  | scene n t =>
    simp only [Action.inRange, Bool.and_eq_true, within_iff] at h
    obtain ⟨⟨_, hn⟩, _, ht⟩ := h
    refine ⟨2, byteOf (n / 256), byteOf n, rfl, ?_⟩
    show some (some (Action.scene (be16 _ _) (byteOf t).toNat)) = _
    rw [be16_byteOf (by omega), toNat_byteOf (by omega)]
  | sceneOff n =>
    obtain ⟨_, hn⟩ := within_iff.1 h
    refine ⟨2, byteOf (n / 256), byteOf n, rfl, ?_⟩
    show some (some (Action.sceneOff (be16 _ _))) = _
    rw [be16_byteOf (by omega)]
  | master z l =>
    simp only [Action.inRange, Bool.and_eq_true, within_iff] at h
    obtain ⟨⟨_, hz⟩, _, hl⟩ := h
    refine ⟨1, byteOf (z / 256), byteOf z, rfl, ?_⟩
    show some (some (Action.master (be16 _ _) (be16 _ _))) = _
    rw [be16_byteOf (by omega), be16_byteOf (by omega)]
  | raise z n =>
    simp only [Action.inRange, Bool.and_eq_true, within_iff] at h
    obtain ⟨⟨_, hz⟩, _, hn⟩ := h
    refine ⟨1, byteOf (z / 256), byteOf z, rfl, ?_⟩
    show some (some (Action.raise (be16 _ _) (byteOf n).toNat)) = _
    rw [be16_byteOf (by omega), toNat_byteOf (by omega)]
  | lower z n =>
    simp only [Action.inRange, Bool.and_eq_true, within_iff] at h
    obtain ⟨⟨_, hz⟩, _, hn⟩ := h
    refine ⟨1, byteOf (z / 256), byteOf z, rfl, ?_⟩
    show some (some (Action.lower (be16 _ _) (byteOf n).toNat)) = _
    rw [be16_byteOf (by omega), toNat_byteOf (by omega)]
  | followMaster z =>
    obtain ⟨_, hz⟩ := within_iff.1 h
    refine ⟨1, byteOf (z / 256), byteOf z, rfl, ?_⟩
    show some (some (Action.followMaster (be16 _ _))) = _
    rw [be16_byteOf (by omega)]
  | followLevel area t f =>
    simp only [Action.inRange, Bool.and_eq_true, within_iff] at h
    obtain ⟨⟨area_ok, _, ht⟩, _, hf⟩ := h
    obtain ⟨kind, th, tl, bytes, read⟩ := Area.bytes_readBack area_ok
    refine ⟨kind, th, tl, bytes, ?_⟩
    show (areaOf _ _).map (fun a => some (Action.followLevel a (byteOf t).toNat (be16 _ _))) = _
    rw [read, be16_byteOf (by omega), toNat_byteOf (by omega)]
    rfl
  | mode m =>
    have code : m.code.toNat < 65536 := by have := m.code.isLt; omega
    refine ⟨3, byteOf (m.code.toNat / 256), byteOf m.code.toNat, rfl, ?_⟩
    show some ((modeOfNat (be16 _ _)).map Action.mode) = _
    rw [be16_byteOf code, modeOfNat_toNat_code]
    rfl
  | notify =>
    refine ⟨4, byteOf (0 / 256), byteOf 0, rfl, ?_⟩
    show some (if be16 _ _ = 0 then some Action.notify else none) = _
    rw [be16_byteOf (by omega), if_pos rfl]

end Sys2Proof.Machine
end

section
/-! The bodies of the bindings (O29). -/

namespace Sys2Proof.Machine

/-- Settles O29: each field is read back from its bytes, and the checks of R50 pass a well-formed record. -/
theorem bindingBodiesRoundTrip : Obligations.BindingBodiesRoundTrip := by
  unfold Obligations.BindingBodiesRoundTrip
  intro id r hid hidMax haddress haddressMax hinput hinputMax modes gesture lamp range armed
  obtain ⟨kind, th, tl, target, action⟩ := Action.bytes_readBack range
  have idBack : be16 (byteOf (id / 256)) (byteOf id) = id := be16_byteOf (by omega)
  have addressBack : (byteOf r.source.address).toNat = r.source.address := toNat_byteOf (by omega)
  have inputBack : (byteOf r.source.input).toNat = r.source.input := toNat_byteOf (by omega)
  have sourceRange : StationInput.inRange r.source = true := by simp [StationInput.inRange, within_iff, *]
  have idRange : within 1 1024 id = true := within_iff.2 ⟨hid, hidMax⟩
  obtain ⟨⟨line, address, input⟩, gest, modeSet, act, link, suspended⟩ := r
  subst armed
  simp [encodeBinding, decodeBinding, bytes16, target, action, modeSetOfByte_toByte modes, idBack, addressBack, inputBack,
    sourceRange, idRange, gesture, lamp, range]

end Sys2Proof.Machine
end

section
/-! SUPPORT. A gesture and the bindings it reaches: what an index list holds, and the states a report passes through. -/

namespace Sys2Proof.Machine

/-- The index list of an input and a gesture names exactly the bindings that name both (R46). -/
theorem State.mem_indexList {s : State} (order : Table.InOrder s.bindings) {key : StationInput} {g : Gesture} {b : Nat} :
    b ∈ s.indexList key g ↔
      ∃ x, Table.at? s.bindings b = some x ∧ x.record.source = key ∧ x.record.gesture = g := by
  rw [State.indexList, Table.mem_idsWhere]
  constructor
  · rintro ⟨x, mem, named⟩
    obtain ⟨source, gesture⟩ : x.record.source = key ∧ x.record.gesture = g := by simpa using named
    exact ⟨x, Table.at?_of_mem order mem, source, gesture⟩
  · rintro ⟨x, found, rfl, rfl⟩
    exact ⟨x, Table.mem_of_at? found, by simp⟩

theorem State.mayAct_iff {s : State} {x : Binding} :
    s.mayAct x = true ↔ x.record.suspended = false ∧ x.record.modes.has s.mode = true := by simp [State.mayAct]

/-- A key has a DOUBLE binding when its list for DOUBLE holds one that may act (R48). -/
theorem State.hasDouble_iff {s : State} (order : Table.InOrder s.bindings) {key : StationInput} :
    s.hasDouble key = true ↔ ∃ b x, Table.at? s.bindings b = some x ∧ x.record.source = key ∧
      x.record.gesture = .double ∧ x.record.suspended = false ∧ x.record.modes.has s.mode = true := by
  rw [State.hasDouble, List.any_eq_true]
  constructor
  · rintro ⟨b, mem, act⟩
    obtain ⟨x, found, source, gesture⟩ := (State.mem_indexList order).1 mem
    rw [found, Option.any_some, State.mayAct_iff] at act
    exact ⟨b, x, found, source, gesture, act⟩
  · rintro ⟨b, x, found, source, gesture, act⟩
    exact ⟨b, (State.mem_indexList order).2 ⟨x, found, source, gesture⟩, by
      rw [found, Option.any_some, State.mayAct_iff]; exact act⟩

/-- A binding that is reached is fired by the key where it may act, and passed over otherwise (R47). -/
theorem State.offer_of_at? {s : State} {b : Nat} {x : Binding} (found : Table.at? s.bindings b = some x)
    (key : StationInput) (p q : Option Nat) :
    s.offer key p q b = if s.mayAct x then s.fire b x (.station key) p q else s := by rw [State.offer, found]

/-- A gesture with an empty index list changes nothing (R47). -/
theorem State.report_of_nil {s : State} {key : StationInput} {g : Gesture} (none : s.indexList key g = [])
    (p q : Option Nat) : s.report key g p q = s := by rw [State.report, none, List.foldl_nil]

/-- The states a fold passes through: one before each element and one at the end. -/
def foldStates {σ α : Type} (f : σ → α → σ) (s : σ) (xs : List α) : List σ :=
  (List.range (xs.length + 1)).map fun i => (xs.take i).foldl f s

section
variable {σ α : Type} (f : σ → α → σ) (s : σ) (xs : List α)

theorem foldStates_length : (foldStates f s xs).length = xs.length + 1 := by simp [foldStates]

theorem foldStates_head? : (foldStates f s xs).head? = some s := by simp [foldStates, List.range_succ_eq_map]

theorem foldStates_getLast? : (foldStates f s xs).getLast? = some (xs.foldl f s) := by
  simp [foldStates, List.range_succ]

theorem foldStates_getElem? {i : Nat} {u : σ} (h : (foldStates f s xs)[i]? = some u) : u = (xs.take i).foldl f s := by
  simp only [foldStates, List.getElem?_map, Option.map_eq_some_iff] at h
  obtain ⟨j, hj, rfl⟩ := h
  rw [List.getElem?_range] at hj
  · rw [Option.some.inj hj]
  · exact (List.getElem?_eq_some_iff.1 hj).1.trans_eq List.length_range

/-- Each state of a fold but the first comes from the one before it by the element between them. -/
theorem foldStates_step {i : Nat} {x : α} {u v : σ} (hx : xs[i]? = some x) (hu : (foldStates f s xs)[i]? = some u)
    (hv : (foldStates f s xs)[i + 1]? = some v) : v = f u x := by
  rw [foldStates_getElem? f s xs hv, foldStates_getElem? f s xs hu, List.take_add_one, hx, List.foldl_append]
  rfl

end

end Sys2Proof.Machine
end

section
/-! The bindings a gesture offers (O55). -/

namespace Sys2Proof.Machine

/-- Settles O55: a report is a fold over the index list, and no firing changes a record, so each binding reached is still
the one the list named. -/
theorem gesturesOfferTheirBindings : Obligations.GesturesOfferTheirBindings := by
  unfold Obligations.GesturesOfferTheirBindings
  intro s key g order
  refine ⟨Table.inOrder_idsWhere order _, fun b => State.mem_indexList order, State.hasDouble_iff order, fun p q =>
    ⟨fun none => State.report_of_nil none p q, fun other h => State.indexList_of_standing (State.standing_report ..) other h,
      foldStates (fun s b => s.offer key p q b) s (s.indexList key g), foldStates_length .., foldStates_head? ..,
      foldStates_getLast? .., ?_⟩⟩
  intro i b u v hb hu hv
  have same : u.standing = s.standing := by
    rw [foldStates_getElem? _ _ _ hu]
    exact State.standing_foldl s (fun s b => State.standing_offer s key p q b) _
  have mem : b ∈ u.indexList key g := by
    rw [State.indexList_of_standing same]
    exact List.mem_of_getElem? hb
  obtain ⟨x, found, source, gesture⟩ := (State.mem_indexList (State.inOrder_of_standing same order)).1 mem
  have step : v = if u.mayAct x then u.fire b x (.station key) p q else u :=
    (foldStates_step _ _ _ hb hu hv).trans (State.offer_of_at? found key p q)
  refine ⟨x, found, source, gesture, fun armed mode => ?_, fun barred => ?_⟩
  · rw [step, if_pos (State.mayAct_iff.2 ⟨armed, mode⟩)]
  · rw [step, if_neg fun act => ?_]
    obtain ⟨armed, mode⟩ := State.mayAct_iff.1 act
    rcases barred with suspended | out
    · exact absurd (armed.symm.trans suspended) (by decide)
    · exact absurd (mode.symm.trans out) (by decide)

end Sys2Proof.Machine
end

section
/-! SUPPORT. Key records: what a change to one leaves of the others, what an accepted event of a KEY record does by its state,
and a key that nothing is bound to and that holds nothing. -/

namespace Sys2Proof.Machine

namespace State

variable {s : State}

theorem station?_onStation_self (s : State) (l : Line) (a : Nat) (f : Station → Station) :
    (s.onStation l a f).station? l a = (s.station? l a).map f := by simp [station?, onStation]

theorem station?_onStation_ne {l m : Line} {a b : Nat} (f : Station → Station) (h : ¬ (m = l ∧ b = a)) :
    (s.onStation l a f).station? m b = s.station? m b := by
  by_cases line : l = m
  · subst line
    simp only [station?, onStation, unit_onUnit_self]
    exact Table.at?_adjust_ne _ _ fun same => h ⟨rfl, same⟩
  · rw [station?, onStation, unit_onUnit_other _ _ line, station?]

theorem key?_onKey_self (s : State) (k : StationInput) (f : KeyRecord → KeyRecord) :
    (s.onKey k f).key? k = (s.key? k).map f := by
  rw [key?, onKey, station?_onStation_self, key?]
  cases s.station? k.line k.address <;> simp

theorem key?_onKey_ne {k other : StationInput} (f : KeyRecord → KeyRecord) (h : other ≠ k) :
    (s.onKey k f).key? other = s.key? other := by
  by_cases station : other.line = k.line ∧ other.address = k.address
  · obtain ⟨line, address⟩ := station
    have input : other.input ≠ k.input := fun same => h (by cases other; cases k; simp_all)
    rw [key?, onKey, line, address, station?_onStation_self, key?, line, address]
    cases s.station? k.line k.address <;> simp [Table.at?_adjust_ne _ _ input]
  · rw [key?, onKey, station?_onStation_ne _ station, key?]

@[simp] theorem key?_withRepeats (s : State) (x : List Repeat) (k : StationInput) : (s.withRepeats x).key? k = s.key? k := by
  obtain ⟨l, _, _⟩ := k
  cases l <;> rfl

/-! What an event of a KEY record does (R101, R103). -/

section
variable {key : StationInput} {r : KeyRecord} (found : s.key? key = some r) (kind : r.inputClass = .key)
include found kind

theorem stationEvent_down (seq : Nat) (stamp : Stamp) :
    s.stationEvent key.line key.address ⟨seq, key.input, .down, stamp⟩ = s.keyDown key r stamp := by
  unfold stationEvent
  simp only [found, kind]

theorem stationEvent_up (seq : Nat) (stamp : Stamp) :
    s.stationEvent key.line key.address ⟨seq, key.input, .up, stamp⟩ = s.keyUp key r stamp := by
  unfold stationEvent
  simp only [found, kind]

/-- A KEY record takes no MOVE (R98). -/
theorem stationEvent_move (seq : Nat) (stamp : Stamp) (p : Nat) :
    s.stationEvent key.line key.address ⟨seq, key.input, .move p, stamp⟩ = s := by
  unfold stationEvent
  simp only [found, kind]

end

@[simp] theorem letGo_settings (s : State) (key : StationInput) : (s.letGo key).settings = s.settings :=
  settings_of_standing (standing_letGo s key)

/-- A first press takes the hold threshold and the stuck limit from the settings, and nothing between changes them (R101). -/
theorem firstPress_of_standing {t : State} (h : t.standing = s.standing) (key : StationInput) (stamp : Option Stamp) :
    t.firstPress key stamp = (t.onKey key fun r => { r with
      state := .down, plainRelease := false, downStamp := stamp, lastUpStamp := none, doubleTimer := none,
      holdTimer := some s.settings.hold, stuckTimer := some (s.settings.stuck * 1000) }).report key .down := by
  rw [firstPress, settings_of_standing h]

end State

theorem withinWindow_iff {r : KeyRecord} {stamp : Stamp} {window : Nat} :
    withinWindow r (some stamp) window = true ↔ ∃ up, r.lastUpStamp = some up ∧ (stamp - up).toNat ≤ window := by
  cases h : r.lastUpStamp <;> simp [withinWindow, h]

theorem longPress_iff {r : KeyRecord} {stamp : Stamp} {threshold : Nat} :
    longPress r stamp threshold = true ↔ ∃ down, r.downStamp = some down ∧ threshold ≤ (stamp - down).toNat := by
  cases h : r.downStamp <;> simp [longPress, h]

/-! A key with no binding on it that holds nothing and repeats nothing. -/

/-- No binding is on the key, and it holds nothing and repeats nothing. -/
structure State.KeyIdle (s : State) (key : StationInput) : Prop where
  holdings : ∀ r, s.key? key = some r → r.holdings = []
  unbound : ∀ e ∈ s.bindings, e.2.record.source ≠ key
  repeats : ∀ p ∈ s.repeats, p.key ≠ key

/-- Of an idle key the record alone has changed, and it is idle still: circuits, bindings, notices, repeats and the other key
records are as they were. -/
structure State.KeyAlone (s t : State) (key : StationInput) : Prop where
  idle : t.KeyIdle key
  circuits : t.circuits = s.circuits
  bindings : t.bindings = s.bindings
  notices : t.notices = s.notices
  repeats : t.repeats = s.repeats
  others : ∀ other, other ≠ key → t.key? other = s.key? other

namespace State.KeyAlone

variable {s t : State} {key : StationInput}

theorem refl (h : s.KeyIdle key) : s.KeyAlone s key := ⟨h, rfl, rfl, rfl, rfl, fun _ _ => rfl⟩

theorem onKey (h : s.KeyAlone t key) {f : KeyRecord → KeyRecord}
    (hf : ∀ r, r.holdings = [] → (f r).holdings = [] := by exact fun _ held => held) : s.KeyAlone (t.onKey key f) key where
  idle :=
    { holdings := fun r hr => by
        rw [key?_onKey_self, Option.map_eq_some_iff] at hr
        obtain ⟨q, hq, rfl⟩ := hr
        exact hf q (h.idle.holdings q hq)
      unbound := by simpa using h.idle.unbound
      repeats := by simpa using h.idle.repeats }
  circuits := by simpa using h.circuits
  bindings := by simpa using h.bindings
  notices := by simpa using h.notices
  repeats := by simpa using h.repeats
  others other ne := (key?_onKey_ne f ne).trans (h.others other ne)

/-- A gesture of an idle key reaches no binding (R47). -/
theorem report (h : s.KeyAlone t key) (g : Gesture) : s.KeyAlone (t.report key g) key := by
  have empty : t.indexList key g = [] := by
    rw [indexList, Table.idsWhere, List.map_eq_nil_iff, List.filter_eq_nil_iff]
    intro e mem named
    simp only [Bool.and_eq_true, beq_iff_eq] at named
    exact h.idle.unbound e mem named.1
  rwa [report_of_nil empty]

theorem dropHoldings (h : s.KeyAlone t key) : s.KeyAlone (t.dropHoldings key) key := by
  unfold State.dropHoldings
  cases found : t.key? key with
  | none => exact h
  | some r =>
    simp only [h.idle.holdings r found, List.foldl_nil]
    exact h.onKey fun _ _ => rfl

theorem dropRepeats (h : s.KeyAlone t key) : s.KeyAlone (t.dropRepeats key) key := by
  have all : (t.repeats.filter fun r => r.key != key) = t.repeats :=
    List.filter_eq_self.2 fun p mem => by simpa using h.idle.repeats p mem
  have same : t.dropRepeats key = t := by rw [State.dropRepeats, all]; rfl
  rwa [same]

theorem letGo (h : s.KeyAlone t key) : s.KeyAlone (t.letGo key) key := h.dropHoldings.dropRepeats

theorem toUp (h : s.KeyAlone t key) : s.KeyAlone (t.onKey key .toUp) key := h.onKey

theorem firstPress (h : s.KeyAlone t key) (stamp : Option Stamp) : s.KeyAlone (t.firstPress key stamp) key :=
  (h.onKey).report .down

theorem keyDown (h : s.KeyAlone t key) (r : KeyRecord) (stamp : Stamp) : s.KeyAlone (t.keyDown key r stamp) key := by
  unfold State.keyDown
  cases r.state with
  | up => exact h.firstPress _
  | waitSecond =>
    dsimp only
    split
    · exact ((h.onKey).report .down).report .double
    · exact ((h.onKey).report .press).firstPress _
  | down => exact (h.letGo.toUp.report .up).firstPress _
  | held => exact ((h.letGo.toUp.report .up).report .holdEnd).firstPress _
  | stuck => exact h

theorem keyUp (h : s.KeyAlone t key) (r : KeyRecord) (stamp : Stamp) : s.KeyAlone (t.keyUp key r stamp) key := by
  have gone : s.KeyAlone ((t.onKey key fun r => { r with holdTimer := none, stuckTimer := none }).letGo key) key :=
    (h.onKey).letGo
  unfold State.keyUp
  cases r.state with
  | up | waitSecond => exact gone
  | stuck => exact gone.toUp
  | held => exact (gone.toUp.report .up).report .holdEnd
  | down =>
    dsimp only
    split
    · exact gone.toUp.report .up
    split
    · exact ((gone.toUp.report .up).report .hold).report .holdEnd
    split
    · exact (gone.onKey).report .up
    · exact (gone.toUp.report .up).report .press

end State.KeyAlone

end Sys2Proof.Machine
end

section
/-! The classification of a key's presses (O51). -/

namespace Sys2Proof.Machine

/-- Settles O51: the state of the record picks the branch of R101 or R103, and no gesture changes the settings. -/
theorem keyPressesAreClassified : Obligations.KeyPressesAreClassified := by
  unfold Obligations.KeyPressesAreClassified
  intro s key r seq stamp found kind
  dsimp only
  rw [State.stationEvent_down found kind, State.stationEvent_up found kind]
  unfold State.keyDown State.keyUp
  dsimp only
  refine ⟨fun up => ?_, fun wait window => ?_, fun wait beyond => ?_, fun down => ?_, fun held => ?_, fun stuck => ?_,
    fun held => ?_, fun down plain => ?_, fun down plain long => ?_, fun down plain short double => ?_,
    fun down plain short single => ?_, fun stuck => ?_, fun idle => ?_, fun holds unbound none e => ?_⟩
  · simp only [up]
    exact State.firstPress_of_standing rfl ..
  · simp only [wait, if_pos (withinWindow_iff.2 window)]
    rfl
  · simp only [wait, if_neg (mt withinWindow_iff.1 beyond)]
    exact State.firstPress_of_standing (State.standing_pressNow ..) ..
  · simp only [down]
    exact State.firstPress_of_standing (State.standing_synthesizedUp s key .down) ..
  · simp only [held]
    exact State.firstPress_of_standing (State.standing_synthesizedUp s key .held) ..
  · simp only [stuck]
  · simp only [held]
    rfl
  · simp only [down, plain, if_pos]
    rfl
  · simp only [down, plain, State.letGo_settings, State.onKey_settings, longPress_iff.2 long]
    rfl
  · simp only [down, plain, State.letGo_settings, State.onKey_settings, mt longPress_iff.1 short, double]
    rfl
  · simp only [down, plain, State.letGo_settings, State.onKey_settings, mt longPress_iff.1 short, single]
    rfl
  · simp only [stuck]
    rfl
  · rcases idle with up | wait
    · simp only [up]
    · simp only [wait]
  · have idle : s.KeyIdle key := ⟨fun q hq => by rw [found] at hq; cases hq; exact holds, unbound, none⟩
    have alone : s.KeyAlone (s.stationEvent key.line key.address ⟨seq, key.input, e, stamp⟩) key := by
      cases e with
      | down => rw [State.stationEvent_down found kind]; exact (State.KeyAlone.refl idle).keyDown r stamp
      | up => rw [State.stationEvent_up found kind]; exact (State.KeyAlone.refl idle).keyUp r stamp
      | move p => rw [State.stationEvent_move found kind]; exact State.KeyAlone.refl idle
    exact ⟨alone.circuits, alone.bindings, alone.notices, alone.repeats, alone.others⟩

end Sys2Proof.Machine
end

section
/-! SUPPORT. ReadBinding and ReadNotified: their answers and the marks they clear (R58, R59). -/

namespace Sys2Proof.Machine

/-! ## ReadBinding -/

@[simp] theorem Action.targetBytes_length (a : Action) : a.targetBytes.length = 3 := by
  cases a with
  | level r | toggle r | release r | followLevel r => cases r <;> rfl
  | _ => rfl

theorem Action.fieldBytes_length (a : Action) : a.fieldBytes.length ≤ 6 := by cases a <;> simp [Action.fieldBytes]

/-- The body of a binding record is at most 18 bytes (section 12.4). -/
theorem encodeBinding_length (id : Nat) (r : BindingRecord) : (encodeBinding id r).length ≤ 18 := by
  have fields := r.action.fieldBytes_length
  simp only [encodeBinding, List.length_append, bytes16_length, List.length_cons, List.length_nil, Action.targetBytes_length]
  omega

section
variable {s : State} {id : Nat}

theorem State.inHouse_iff : s.inHouse id = true ↔ id ≤ s.protectSize := decide_eq_true_iff

theorem State.inHouse_eq_false : s.inHouse id = false ↔ s.protectSize < id := by simp [State.inHouse]

/-- A house binding under the lock is withheld: its id and its source alone are given (R59). -/
theorem State.bindingBody_withheld (x : Binding) (house : id ≤ s.protectSize) (lock : s.houseLock = true) :
    s.bindingBody id x = [1, flagByte x.record.suspended] ++ bytes16 id ++
      [lineCode x.record.source.line, byteOf x.record.source.address, byteOf x.record.source.input] := by
  simp [State.bindingBody, State.inHouse_iff.2 house, lock, flagByte]

/-- Any other binding is given whole, with its holds count and its marks (R59). -/
theorem State.bindingBody_given (x : Binding) (shown : s.protectSize < id ∨ s.houseLock = false) :
    s.bindingBody id x = [if s.protectSize < id then 2 else 0, flagByte x.record.suspended] ++
      encodeBinding id x.record ++ bytes16 (s.holds (.binding id)) ++
        [flagByte x.displacedMark ||| flagByte x.partialMark <<< 1 ||| flagByte x.notifyPending <<< 2 |||
          flagByte x.captured <<< 3] := by
  have withheld : (s.inHouse id && s.houseLock) = false := by
    rcases shown with stage | lock
    · rw [State.inHouse_eq_false.2 stage, Bool.false_and]
    · rw [lock, Bool.and_false]
  have partition : flagByte (!s.inHouse id) <<< 1 = if s.protectSize < id then (2 : Byte) else 0 := by
    by_cases stage : s.protectSize < id
    · rw [State.inHouse_eq_false.2 stage, if_pos stage]
      rfl
    · rw [State.inHouse_iff.2 (Nat.not_lt.1 stage), if_neg stage]
      rfl
  rw [State.bindingBody, partition, if_neg (by simp [withheld])]

theorem State.bindingBody_length (s : State) (id : Nat) (x : Binding) : (s.bindingBody id x).length ≤ 250 := by
  have record := encodeBinding_length id x.record
  unfold State.bindingBody
  split <;> simp only [List.length_append, List.length_cons, List.length_nil, bytes16_length] <;> omega

end

section
variable {s : State} {h l : Byte}

theorem readBinding_outOfRange (hi : be16 h l < 1 ∨ 1024 < be16 h l) : readBinding [h, l] s = .refuse .outOfRange s := by
  simp [readBinding, within_eq_false.2 hi]

variable (h1 : 1 ≤ be16 h l) (h2 : be16 h l ≤ 1024)
include h1 h2

theorem readBinding_noSuch (hx : Table.at? s.bindings (be16 h l) = none) : readBinding [h, l] s = .refuse .noSuch s := by
  simp [readBinding, within_iff.2 ⟨h1, h2⟩, hx]

theorem readBinding_of_inUse {x : Binding} (hx : Table.at? s.bindings (be16 h l) = some x) :
    readBinding [h, l] s = .answered { result := .ok, body := s.bindingBody (be16 h l) x } s := by
  rw [← Work.read_of_short (s.bindingBody_length (be16 h l) x)]
  simp [readBinding, within_iff.2 ⟨h1, h2⟩, hx]

end

/-! ## ReadNotified -/

/-- A change made to each of some records, one after the other. -/
def Table.adjustEach {α : Type} (t : Table α) (ids : List Nat) (f : α → α) : Table α :=
  ids.foldl (fun t i => Table.adjust t i f) t

/-- A change that is the same made twice is made once to the records of a list, and to no other. -/
theorem Table.at?_adjustEach {α : Type} {f : α → α} (twice : ∀ x, f (f x) = f x) (t : Table α) (ids : List Nat) (j : Nat) :
    Table.at? (Table.adjustEach t ids f) j = (Table.at? t j).map fun x => if j ∈ ids then f x else x := by
  induction ids generalizing t with
  | nil => simp [Table.adjustEach]
  | cons i ids ih =>
    show Table.at? (Table.adjustEach (Table.adjust t i f) ids f) j = _
    rw [ih]
    by_cases here : j = i
    · subst here
      rw [Table.at?_adjust_self, Option.map_map]
      congr 1
      funext x
      by_cases again : j ∈ ids <;> simp [again, twice]
    · rw [Table.at?_adjust_ne _ _ here]
      simp [here]

theorem State.foldl_onBinding (s : State) (ids : List Nat) (f : Binding → Binding) :
    ids.foldl (fun s b => s.onBinding b f) s = s.withBindings (Table.adjustEach s.bindings ids f) := by
  induction ids generalizing s with
  | nil => rfl
  | cons i ids ih => exact ih _

/-- ReadNotified gives the first 64 ids that are pending and the count of the others, and clears the marks it gives
(R58). -/
theorem readNotified_eq (s : State) : readNotified [] s =
    let marked := Table.idsWhere s.bindings (·.notifyPending)
    .answered { result := .ok, body := (marked.take 64).flatMap bytes16 ++ bytes16 (marked.length - 64) }
      (s.withBindings (Table.adjustEach s.bindings (marked.take 64) fun x => { x with notifyPending := false })) := by
  have rest (marked : List Nat) : marked.length - (marked.take 64).length = marked.length - 64 := by
    rw [List.length_take]; omega
  have short (ids : List Nat) (n : Nat) : ((ids.take 64).flatMap bytes16 ++ bytes16 n).length ≤ 250 := by
    rw [List.length_append, length_flatMap_of_const bytes16_length, bytes16_length, List.length_take]; omega
  show Work.read _ (List.foldl _ s _) = _
  rw [State.foldl_onBinding, show Config.notifiedLimit = 64 from rfl, rest, Work.read_of_short (short _ _)]

end Sys2Proof.Machine
end

section
/-! The reads of the binding table (O33). -/

namespace Sys2Proof.Machine

/-- Settles O33: each answer by its own equation of the read; a body fits by `bindingBody_length`. -/
theorem readBindingAndReadNotified : Obligations.ReadBindingAndReadNotified := by
  unfold Obligations.ReadBindingAndReadNotified
  intro s tag take
  have read {h l : Byte} {r : Reply} (hw : readBinding [h, l] (s.taken 0x21 tag [h, l]) = .answered r (s.taken ..)) :
      exec (.readBinding tag [h, l]) s = .next (s.answered 2 tag r.result r.clamped r.body) :=
    congrArg Host.Outcome.next (take.answered (by simp) hw)
  have given {h l : Byte} {x : Binding} {body : List Byte} (h1 : 1 ≤ be16 h l) (h2 : be16 h l ≤ 1024)
      (hx : Table.at? s.bindings (be16 h l) = some x) (hb : s.bindingBody (be16 h l) x = body) :
      exec (.readBinding tag [h, l]) s = .next (s.answered 2 tag .ok false body) :=
    hb ▸ read (readBinding_of_inUse (s := s.taken ..) h1 h2 hx)
  refine ⟨fun h l => ⟨fun hi => read (readBinding_outOfRange hi), fun h1 h2 hx => read (readBinding_noSuch h1 h2 hx),
    fun x h1 h2 hx => ⟨fun house lock => given h1 h2 hx ?_, fun shown => given h1 h2 hx ?_⟩⟩, fun _ => ?_⟩
  · rw [State.bindingBody_withheld (id := be16 h l) x house lock, bytes16_be16]
    rfl
  · exact State.bindingBody_given x shown
  · exact ⟨_, congrArg Host.Outcome.next (take.answered (t := s.withBindings _) (by simp) (readNotified_eq _)), rfl,
      fun b => Table.at?_adjustEach (f := fun x : Binding => { x with notifyPending := false }) (fun _ => rfl) _ _ b⟩

end Sys2Proof.Machine
end

section
/-! SUPPORT. The release of a binding's light (R53): what it may touch, that light is only lost by it, and that its five steps
hold still after other releases. -/

namespace Sys2Proof.Machine

/-! ## What a release may touch -/

namespace State.OnlyLight

variable {s t u : State}

theorem refl (s : State) : s.OnlyLight s := ⟨rfl, rfl, rfl⟩

theorem trans (h : s.OnlyLight t) (k : t.OnlyLight u) : s.OnlyLight u := by
  obtain ⟨eq, a, b⟩ := h
  obtain ⟨eq', a', b'⟩ := k
  refine ⟨?_, a'.trans a, b'.trans b⟩
  rw [eq', eq]

theorem withBindings (h : s.OnlyLight t) (x : Table Binding) : s.OnlyLight (t.withBindings x) := by
  obtain ⟨eq, a, b⟩ := h
  refine ⟨?_, a, b⟩
  rw [eq]
  rfl

theorem withRepeats (h : s.OnlyLight t) (x : List Repeat) : s.OnlyLight (t.withRepeats x) := by
  obtain ⟨eq, a, b⟩ := h
  refine ⟨?_, a, b⟩
  rw [eq]
  rfl

theorem foldl {α : Type} {f : State → α → State} (h : s.OnlyLight t) (xs : List α)
    (hf : ∀ u x, s.OnlyLight u → s.OnlyLight (f u x)) : s.OnlyLight (xs.foldl f t) := by
  induction xs generalizing t with
  | nil => exact h
  | cons x xs ih => exact ih (hf t x h)

end State.OnlyLight

/-- A change to the holdings of one key of one station is none with the holdings left out. -/
theorem LineUnit.withoutHoldings_adjust {f : KeyRecord → KeyRecord}
    (hf : ∀ r, ({ f r with holdings := [] } : KeyRecord) = { r with holdings := [] }) (u : LineUnit) (a i : Nat) :
    LineUnit.withoutHoldings { u with
      stations := Table.adjust u.stations a fun st => { st with keys := Table.adjust st.keys i f } } =
      u.withoutHoldings := by
  have keys (t : Table KeyRecord) :
      Table.mapAll (Table.adjust t i f) (fun _ r => ({ r with holdings := [] } : KeyRecord)) =
        Table.mapAll t fun _ r => { r with holdings := [] } := by
    simp only [Table.mapAll, Table.adjust, List.map_map]
    refine List.map_congr_left fun e _ => ?_
    by_cases here : e.1 = i <;> simp [here, hf]
  simp only [LineUnit.withoutHoldings]
  congr 1
  rw [Table.mapAll, Table.adjust, List.map_map]
  refine List.map_congr_left fun e _ => ?_
  by_cases here : e.1 = a <;> simp [here, keys]

/-- A change to the holdings of a key alone is within what a release may touch. -/
theorem State.OnlyLight.onKey {s t : State} (h : s.OnlyLight t) (k : StationInput) {f : KeyRecord → KeyRecord}
    (hf : ∀ r, ({ f r with holdings := [] } : KeyRecord) = { r with holdings := [] }) : s.OnlyLight (t.onKey k f) := by
  refine h.trans ?_
  obtain ⟨l, a, i⟩ := k
  cases l with
  | a => exact ⟨rfl, LineUnit.withoutHoldings_adjust hf _ a i, rfl⟩
  | b => exact ⟨rfl, rfl, LineUnit.withoutHoldings_adjust hf _ a i⟩

theorem State.releaseLight_onlyLight (s : State) (b : Nat) : s.OnlyLight (s.releaseLight b) := by
  unfold State.releaseLight
  split
  · exact .refl s
  · next x _ =>
    have claims : s.OnlyLight (s.removeEverywhere (.binding b)) := (s.removeEverywhere_onlyClaims _).onlyLight
    have scenes := claims.foldl (f := fun s n => s.releaseScene n) ((s.removeEverywhere (.binding b)).recalledBy b)
      fun u n h => h.trans (u.releaseScene_onlyClaims n).onlyLight
    exact ((scenes.withRepeats _).onKey x.record.source
      (f := fun k => { k with holdings := k.holdings.filter fun p => p.1 != b }) fun _ => rfl).withBindings _

/-! ## Light is only lost -/

/-- Nothing but a removal happened to light: no list gained an origin, a scene is as it was or has lost its last
contribution and ended, and no repeat, holding or captured mark is new. -/
structure State.LightLost (s t : State) : Prop where
  moves : Moves s t
  held : ∀ o c, t.heldOn o c = true → s.heldOn o c = true
  scenes : ∀ n y, Table.at? s.scenes n = some y → ∃ z, Table.at? t.scenes n = some z ∧
    (z = y ∨ z = y.ended ∧ t.holds (.scene n) = 0) ∧ (0 < s.holds (.scene n) → t.holds (.scene n) = 0 → z = y.ended)
  repeats : ∀ p ∈ t.repeats, p ∈ s.repeats
  keys : ∀ k r, t.key? k = some r → ∃ q, s.key? k = some q ∧ r.holdings ⊆ q.holdings
  captures : ∀ b, (∀ y, Table.at? s.bindings b = some y → y.captured = false) →
    ∀ y, Table.at? t.bindings b = some y → y.captured = false

/-- An origin that holds nothing holds nothing later. -/
theorem State.holds_zero_of_held {s t : State} (hs : Table.InOrder s.circuits) (ht : Table.InOrder t.circuits)
    (held : ∀ o c, t.heldOn o c = true → s.heldOn o c = true) {o : Origin} (none : s.holds o = 0) : t.holds o = 0 :=
  (State.holds_eq_zero ht).2 fun c => Bool.eq_false_iff.2 fun h =>
    Bool.eq_false_iff.1 ((State.holds_eq_zero hs).1 none c) (held o c h)

namespace State.LightLost

variable {s t u : State}

theorem refl (s : State) : s.LightLost s where
  moves := .refl s
  held _ _ h := h
  scenes _ y hy := ⟨y, hy, .inl rfl, fun held none => absurd none (Nat.ne_of_gt held)⟩
  repeats _ h := h
  keys _ r hr := ⟨r, hr, fun _ h => h⟩
  captures _ h := h

section
variable (order : s.TablesInOrder)
include order

theorem tables (h : s.LightLost t) : t.TablesInOrder := h.moves.keeps Move.tablesInOrder order

theorem circuitsInOrder (h : s.LightLost t) : Table.InOrder t.circuits := (h.tables order).1

theorem holds_zero (h : s.LightLost t) {o : Origin} (none : s.holds o = 0) : t.holds o = 0 :=
  State.holds_zero_of_held order.1 (h.circuitsInOrder order) h.held none

theorem trans (h : s.LightLost t) (k : t.LightLost u) : s.LightLost u where
  moves := h.moves.trans k.moves
  held o c hu := h.held o c (k.held o c hu)
  scenes n y hy := by
    obtain ⟨z, hz, first, firstEnds⟩ := h.scenes n y hy
    obtain ⟨w, hw, second, secondEnds⟩ := k.scenes n z hz
    refine ⟨w, hw, ?_, fun held none => ?_⟩
    · rcases first with rfl | ⟨rfl, gone⟩
      · exact second
      · exact .inr ⟨second.elim id (·.1), k.holds_zero (h.tables order) gone⟩
    · by_cases before : t.holds (.scene n) = 0
      · obtain rfl := firstEnds held before
        exact second.elim id (·.1)
      · obtain rfl : z = y := first.elim id fun ends => absurd ends.2 before
        exact secondEnds (Nat.pos_of_ne_zero before) none
  repeats p hp := h.repeats p (k.repeats p hp)
  keys key r hr := by
    obtain ⟨q, hq, sub⟩ := k.keys key r hr
    obtain ⟨q', hq', sub'⟩ := h.keys key q hq
    exact ⟨q', hq', List.Subset.trans sub sub'⟩
  captures b clear := k.captures b (h.captures b clear)

end

end State.LightLost

/-! ### The steps of a release -/

theorem Circuit.holds_removed {x : Circuit} {o o' : Origin} (master : Option Nat)
    (h : (x.removed master o).holds o' = true) : x.holds o' = true := by
  rw [Circuit.holds_iff, Circuit.removed_claims] at h
  obtain ⟨k, mem, origin⟩ := h
  exact Circuit.holds_iff.2 ⟨k, List.mem_of_mem_eraseP mem, origin⟩

theorem Circuit.holds_removed_ne {x : Circuit} {o o' : Origin} (ne : o' ≠ o) (master : Option Nat)
    (h : x.holds o' = true) : (x.removed master o).holds o' = true := by
  rw [Circuit.holds_iff] at h
  obtain ⟨k, mem, origin⟩ := h
  rw [Circuit.holds_iff, Circuit.removed_claims]
  exact ⟨k, (List.mem_eraseP_of_neg (by simpa [origin] using ne)).2 mem, origin⟩

section
variable {s : State} {byOther : Bool} {o : Origin} {c : Nat}

/-- A removal leaves a list no origin it had not. -/
theorem State.heldOn_of_remove {o' : Origin} {i : Nat} (h : (s.remove byOther o c).heldOn o' i = true) :
    s.heldOn o' i = true := by
  rw [State.heldOn, State.remove_at?] at h
  rw [State.heldOn]
  cases found : Table.at? s.circuits i with
  | none => simp [found] at h
  | some x =>
    rw [found, Option.map_some, Option.any_some] at h
    rw [Option.any_some]
    split at h
    · exact Circuit.holds_removed _ h
    · exact h

/-- A removal takes no other origin from a list. -/
theorem State.heldOn_remove_ne {o' : Origin} (ne : o' ≠ o) {i : Nat} (h : s.heldOn o' i = true) :
    (s.remove byOther o c).heldOn o' i = true := by
  rw [State.heldOn] at h
  rw [State.heldOn, State.remove_at?]
  cases found : Table.at? s.circuits i with
  | none => simp [found] at h
  | some x =>
    rw [found, Option.any_some] at h
    rw [Option.map_some, Option.any_some]
    split
    · exact Circuit.holds_removed_ne ne _ h
    · exact h

theorem State.key?_of_onlyClaims {s t : State} (h : s.OnlyClaims t) (k : StationInput) : t.key? k = s.key? k := by
  rw [h]
  obtain ⟨l, _, _⟩ := k
  cases l <;> rfl

theorem State.remove_lightLost (order : s.TablesInOrder) : s.LightLost (s.remove byOther o c) where
  moves := (Moves.refl s).remove byOther o c
  held _ _ := State.heldOn_of_remove
  scenes n y hy := by
    have after := s.remove_scenes_at? byOther o c n
    rw [hy, Option.map_some] at after
    refine ⟨_, after, ?_, fun held none => if_pos ?_⟩
    · by_cases last : s.heldOn o c = true ∧ o = .scene n ∧ (s.remove byOther o c).holds (.scene n) = 0
      · exact .inr ⟨if_pos last, last.2.2⟩
      · exact .inl (if_neg last)
    · have sound : Table.InOrder (s.remove byOther o c).circuits := by rw [Table.InOrder, State.remove_ids]; exact order.1
      have lost : ∃ i, s.heldOn (.scene n) i = true := by
        by_contra absent
        have zero := (State.holds_eq_zero order.1).2 fun i => Bool.eq_false_iff.2 fun h => absent ⟨i, h⟩
        omega
      obtain ⟨i, hi⟩ := lost
      have gone := (State.holds_eq_zero sound).1 none i
      have own : o = .scene n := by
        by_contra ne
        exact Bool.eq_false_iff.1 gone (State.heldOn_remove_ne (Ne.symm ne) hi)
      refine ⟨?_, own, none⟩
      by_contra absent
      rw [State.remove_of_not_heldOn (Bool.eq_false_iff.2 absent)] at gone
      exact Bool.eq_false_iff.1 gone hi
  repeats p hp := by rwa [(State.OnlyClaims.refl s).remove byOther o c] at hp
  keys k r hr := ⟨r, (State.key?_of_onlyClaims ((State.OnlyClaims.refl s).remove byOther o c) k).symm.trans hr, fun _ h => h⟩
  captures b clear y hy := by
    rw [State.remove_bindings_at?, Option.map_eq_some_iff] at hy
    obtain ⟨x, hx, rfl⟩ := hy
    split
    · rfl
    · exact clear x hx

end

namespace State.LightLost

variable {s t : State} (order : s.TablesInOrder)
include order

theorem foldl {α : Type} {f : State → α → State} (h : s.LightLost t) (xs : List α)
    (step : ∀ (u : State) x, u.TablesInOrder → u.LightLost (f u x)) : s.LightLost (xs.foldl f t) := by
  induction xs generalizing t with
  | nil => exact h
  | cons x xs ih => exact ih (h.trans order (step t x (h.tables order)))

theorem removeEach (byOther : Bool) (o : Origin) (ids : List Nat) : s.LightLost (s.removeEach byOther o ids) :=
  (refl s).foldl order ids fun _ _ hu => State.remove_lightLost hu

theorem releaseScene (n : Nat) : s.LightLost (s.releaseScene n) := by
  cases hn : Table.at? s.scenes n with
  | none => rw [State.releaseScene, hn]; exact refl s
  | some y => rw [State.releaseScene_eq hn]; exact removeEach order ..

end State.LightLost

namespace State.LightLost

variable {s : State}

/-- Changes to the repeat list, to holdings and to the bindings that add none. -/
theorem withRepeats {x : List Repeat} (sub : x ⊆ s.repeats) : s.LightLost (s.withRepeats x) where
  moves := (Moves.refl s).withRepeats x
  held _ _ h := h
  scenes _ y hy := ⟨y, hy, .inl rfl, fun held none => absurd none (Nat.ne_of_gt held)⟩
  repeats _ h := sub h
  keys k r hr := ⟨r, (s.key?_withRepeats x k).symm.trans hr, fun _ h => h⟩
  captures _ h := h

theorem onKey (k : StationInput) {f : KeyRecord → KeyRecord} (sub : ∀ r, (f r).holdings ⊆ r.holdings) :
    s.LightLost (s.onKey k f) where
  moves := (Moves.refl s).onKey k f
  held o c h := by simpa [State.heldOn] using h
  scenes n y hy := ⟨y, by simpa using hy, .inl rfl, fun held none => absurd
    ((State.holds_congr (State.onKey_circuits ..) _).symm.trans none) (Nat.ne_of_gt held)⟩
  repeats p h := by simpa using h
  keys key r hr := by
    by_cases same : key = k
    · subst same
      rw [State.key?_onKey_self, Option.map_eq_some_iff] at hr
      obtain ⟨q, hq, rfl⟩ := hr
      exact ⟨q, hq, sub q⟩
    · exact ⟨r, (State.key?_onKey_ne f same).symm.trans hr, fun _ h => h⟩
  captures b h y hy := h y (by simpa using hy)

theorem withBindings {x : Table Binding} (moves : Moves s (s.withBindings x))
    (captures : ∀ b, (∀ y, Table.at? s.bindings b = some y → y.captured = false) →
      ∀ y, Table.at? x b = some y → y.captured = false) : s.LightLost (s.withBindings x) where
  moves := moves
  held _ _ h := h
  scenes _ y hy := ⟨y, hy, .inl rfl, fun held none => absurd none (Nat.ne_of_gt held)⟩
  repeats _ h := h
  keys k r hr := by
    refine ⟨r, ?_, fun _ h => h⟩
    rw [← hr]
    obtain ⟨l, _, _⟩ := k
    cases l <;> rfl
  captures := captures

theorem onBinding (b : Nat) {f : Binding → Binding} (hf : ∀ y, y.captured = false → (f y).captured = false) :
    s.LightLost (s.onBinding b f) :=
  withBindings ((Moves.refl s).onBinding b f) fun i clear y hy => by
    rw [Table.at?_adjust] at hy
    split at hy
    · rw [Option.map_eq_some_iff] at hy
      obtain ⟨x, hx, rfl⟩ := hy
      exact hf x (clear x (by simp_all))
    · exact clear y hy

end State.LightLost

end Sys2Proof.Machine
end

section
/-! SUPPORT. The five steps of R53: after the release of a binding's light, and after whatever else only loses light, the
binding is released. -/

namespace Sys2Proof.Machine

/-- The claims of a binding's light given up: its own contributions, and then the scenes it recalled (R53, steps 1 and 2). -/
def State.claimsReleased (s : State) (b : Nat) : State :=
  ((s.removeEverywhere (.binding b)).recalledBy b).foldl (fun s n => s.releaseScene n) (s.removeEverywhere (.binding b))

/-- What names a binding elsewhere given up: its repeat, its pairs in the record of its key, and its captured mark (R53, steps
3 to 5). -/
def State.tracesDropped (s : State) (b : Nat) (source : StationInput) : State :=
  ((s.withRepeats (s.repeats.filter fun r => r.binding != b)).onKey source fun k =>
    { k with holdings := k.holdings.filter fun p => p.1 != b }).onBinding b fun x => { x with captured := false }

section
variable {s : State} {b : Nat}

theorem State.releaseLight_of_inUse {x : Binding} (hx : Table.at? s.bindings b = some x) :
    s.releaseLight b = (s.claimsReleased b).tracesDropped b x.record.source := by
  rw [State.releaseLight, hx]
  rfl

/-- A free id has no light (R53). -/
theorem State.releaseLight_of_free (hx : Table.at? s.bindings b = none) : s.releaseLight b = s := by
  rw [State.releaseLight, hx]

theorem State.removeEverywhere_lightLost (order : s.TablesInOrder) (o : Origin) : s.LightLost (s.removeEverywhere o) :=
  .removeEach order false o (s.holders o)

/-- The scenes a binding recalled are released after its own contributions. -/
theorem State.claimsReleased_after_own (order : s.TablesInOrder) :
    (s.removeEverywhere (.binding b)).LightLost (s.claimsReleased b) :=
  (State.LightLost.refl _).foldl ((State.removeEverywhere_lightLost order _).tables order) _ fun _ n hu =>
    State.LightLost.releaseScene hu n

theorem State.claimsReleased_lightLost (order : s.TablesInOrder) : s.LightLost (s.claimsReleased b) :=
  (State.removeEverywhere_lightLost order _).trans order (State.claimsReleased_after_own order)

theorem State.tracesDropped_lightLost (order : s.TablesInOrder) (source : StationInput) :
    s.LightLost (s.tracesDropped b source) :=
  have repeats : s.LightLost (s.withRepeats (s.repeats.filter fun r => r.binding != b)) :=
    .withRepeats (List.filter_subset_self ..)
  have keys := repeats.trans order (.onKey source (f := fun k =>
    { k with holdings := k.holdings.filter fun p => p.1 != b }) fun _ => List.filter_subset_self ..)
  keys.trans order (.onBinding b fun _ _ => rfl)

theorem State.releaseLight_lightLost (order : s.TablesInOrder) (b : Nat) : s.LightLost (s.releaseLight b) := by
  cases hx : Table.at? s.bindings b with
  | none => rw [State.releaseLight_of_free hx]; exact .refl s
  | some x =>
    rw [State.releaseLight_of_inUse hx]
    have claims := s.claimsReleased_lightLost (b := b) order
    exact claims.trans order (State.tracesDropped_lightLost (claims.tables order) _)

/-! ### Each step -/

theorem State.mem_holders_of_heldOn {o : Origin} {c : Nat} (h : s.heldOn o c = true) : c ∈ s.holders o := by
  obtain ⟨x, hx, k, mem, origin⟩ := State.heldOn_iff.1 h
  exact Table.mem_idsWhere.2 ⟨x, Table.mem_of_at? hx, by simpa using ⟨k, mem, origin⟩⟩

theorem State.holds_removeEverywhere (order : s.TablesInOrder) (sound : s.ListsSound) (o : Origin) :
    (s.removeEverywhere o).holds o = 0 :=
  State.removeEach_holds sound order.1 false fun _ => State.mem_holders_of_heldOn

theorem State.withinEntries_iff {n : Nat} {y : Scene} (order : Table.InOrder s.circuits) :
    s.WithinEntries n y ↔ ∀ c, s.heldOn (.scene n) c = true → c ∈ y.definition.entries.map Prod.fst := by
  refine ⟨fun h c held => h.mem held, fun h e mem claims => h e.1 ?_⟩
  exact State.heldOn_iff.2 ⟨e.2, Table.at?_of_mem order mem, claims⟩

theorem State.LightLost.withinEntries {t : State} {n : Nat} {y : Scene} (order : s.TablesInOrder) (h : s.LightLost t)
    (within : s.WithinEntries n y) : t.WithinEntries n y :=
  (State.withinEntries_iff (h.circuitsInOrder order)).2 fun c held => within.mem (h.held _ c held)

/-- Scenes released one after another: one of them that lies within its entries holds nothing in the end (R92). -/
theorem State.releaseScenes_holds {s : State} (order : s.TablesInOrder) (sound : s.ListsSound) {ns : List Nat} {n : Nat}
    {y : Scene} (mem : n ∈ ns) (hy : Table.at? s.scenes n = some y) (within : s.WithinEntries n y) :
    (ns.foldl (fun s n => s.releaseScene n) s).holds (.scene n) = 0 := by
  induction ns generalizing s with
  | nil => cases mem
  | cons m ns ih =>
    have first := State.LightLost.releaseScene order m
    have order' := first.tables order
    have rest : (s.releaseScene m).LightLost (ns.foldl (fun s n => s.releaseScene n) (s.releaseScene m)) :=
      (State.LightLost.refl _).foldl order' ns fun _ n hu => State.LightLost.releaseScene hu n
    rw [List.foldl_cons]
    by_cases here : n = m
    · subst here
      exact rest.holds_zero order' (State.releaseScene_sceneEnded sound order.1 hy within).1
    · obtain ⟨z, hz, rfl | ⟨_, gone⟩, _⟩ := first.scenes n y hy
      · exact ih order' (first.moves.keeps Move.listsSound sound) ((List.mem_cons.1 mem).resolve_left here) hz
          (first.withinEntries order within)
      · exact rest.holds_zero order' gone

theorem State.mem_recalledBy {n : Nat} {y : Scene} (hy : Table.at? s.scenes n = some y)
    (recalled : y.recaller = some (.binding b)) (live : s.holds (.scene n) ≠ 0) : n ∈ s.recalledBy b := by
  refine List.mem_filter.2 ⟨List.mem_map.2 ⟨(n, y), List.mem_filter.2 ⟨Table.mem_of_at? hy, by simp [recalled]⟩, rfl⟩, ?_⟩
  exact decide_eq_true (Nat.pos_of_ne_zero live)

/-- A binding holds nothing once its claims are released (R53, step 1). -/
theorem State.claimsReleased_own (order : s.TablesInOrder) (sound : s.ListsSound) :
    (s.claimsReleased b).holds (.binding b) = 0 :=
  (State.claimsReleased_after_own order).holds_zero ((State.removeEverywhere_lightLost order _).tables order)
    (State.holds_removeEverywhere order sound _)

/-- A scene a binding recalled holds nothing once the binding's claims are released (R53, step 2). -/
theorem State.claimsReleased_scene (order : s.TablesInOrder) (sound : s.ListsSound) {n : Nat} {y : Scene}
    (hy : Table.at? s.scenes n = some y) (recalled : y.recaller = some (.binding b)) (within : s.WithinEntries n y) :
    (s.claimsReleased b).holds (.scene n) = 0 := by
  have own := State.removeEverywhere_lightLost order (.binding b)
  have order' := own.tables order
  have scenes := State.claimsReleased_after_own (b := b) order
  by_cases live : (s.removeEverywhere (.binding b)).holds (.scene n) = 0
  · exact scenes.holds_zero order' live
  · obtain ⟨z, hz, same, _⟩ := own.scenes n y hy
    obtain rfl : z = y := same.elim id fun ends => absurd ends.2 live
    exact State.releaseScenes_holds order' (own.moves.keeps Move.listsSound sound) (State.mem_recalledBy hz recalled live) hz
      (own.withinEntries order within)

theorem State.repeats_tracesDropped (source : StationInput) : ∀ p ∈ (s.tracesDropped b source).repeats, p.binding ≠ b := by
  intro p mem
  have : p ∈ s.repeats.filter fun r => r.binding != b := by simpa [State.tracesDropped] using mem
  simpa using (List.mem_filter.1 this).2

theorem State.key?_onBinding (s : State) (b : Nat) (f : Binding → Binding) (k : StationInput) :
    (s.onBinding b f).key? k = s.key? k := by
  obtain ⟨l, _, _⟩ := k
  cases l <;> rfl

theorem State.holdings_tracesDropped {source : StationInput} {r : KeyRecord}
    (hr : (s.tracesDropped b source).key? source = some r) : ∀ p ∈ r.holdings, p.1 ≠ b := by
  rw [State.tracesDropped, State.key?_onBinding, State.key?_onKey_self, Option.map_eq_some_iff] at hr
  obtain ⟨q, _, rfl⟩ := hr
  exact fun p mem => by simpa using (List.mem_filter.1 mem).2

theorem State.captured_tracesDropped {source : StationInput} {y : Binding}
    (hy : Table.at? (s.tracesDropped b source).bindings b = some y) : y.captured = false := by
  have own := Table.at?_adjust_self ((s.withRepeats (s.repeats.filter fun r => r.binding != b)).onKey source fun k =>
    { k with holdings := k.holdings.filter fun p => p.1 != b }).bindings b fun x : Binding => { x with captured := false }
  obtain ⟨x, _, rfl⟩ := Option.map_eq_some_iff.1 (own.symm.trans hy)
  rfl

end

/-! ### The five steps together -/

theorem State.LightLost.sceneEnded {s t : State} (h : s.LightLost t) {n : Nat} {y : Scene}
    (hy : Table.at? s.scenes n = some y) (none : t.holds (.scene n) = 0) : s.SceneEnded t n := by
  obtain ⟨z, hz, _, ends⟩ := h.scenes n y hy
  exact ⟨none, fun held => ⟨z, hz, by rw [ends held none]; exact ⟨rfl, rfl⟩⟩⟩

/-- The light of a binding released between losses of other light: its five steps hold at the end of what began at the
start, however the binding's marks stood when its turn came (R53). -/
theorem State.released_of_release {s u t : State} {b : Nat} {x x' : Binding} (order : s.TablesInOrder)
    (sound : s.ListsSound) (before : s.LightLost u) (found : Table.at? u.bindings b = some x')
    (source : x'.record.source = x.record.source) (after : (u.releaseLight b).LightLost t) : s.Released t b x := by
  have orderU := before.tables order
  have soundU := before.moves.keeps Move.listsSound sound
  have claims := u.claimsReleased_lightLost (b := b) orderU
  have orderC := claims.tables orderU
  rw [State.releaseLight_of_inUse found, source] at after
  have rest := (State.tracesDropped_lightLost (b := b) orderC x.record.source).trans orderC after
  have orderT := rest.tables orderC
  have whole := (before.trans order claims).trans order rest
  refine ⟨fun e mem k hk own => ?_, fun n y hy recalled within => whole.sceneEnded hy ?_,
    fun p mem => State.repeats_tracesDropped _ p (after.repeats p mem), fun r hr p mem => ?_, fun y hy =>
    after.captures b (fun _ => State.captured_tracesDropped) y hy⟩
  · have none := rest.holds_zero orderC (State.claimsReleased_own orderU soundU)
    exact State.heldOn_eq_false.1 ((State.holds_eq_zero orderT.1).1 none e.1) e.2 (Table.at?_of_mem orderT.1 mem) k hk own
  · obtain ⟨z, hz, same | ⟨_, gone⟩, _⟩ := before.scenes n y hy
    · subst same
      exact rest.holds_zero orderC (State.claimsReleased_scene orderU soundU hz recalled (before.withinEntries order within))
    · exact rest.holds_zero orderC (claims.holds_zero orderU gone)
  · obtain ⟨q, hq, sub⟩ := after.keys _ r hr
    exact State.holdings_tracesDropped hq p (sub mem)

end Sys2Proof.Machine
end

section
/-! SUPPORT. The requests on the bindings: their refusals in order, and what replacement, suspension and retirement leave. -/

namespace Sys2Proof.Machine

/-! ## The bindings after a release -/

section
variable {s : State}

/-- The removals of a release take no mark from a binding. -/
theorem State.removeEach_own_bindings (s : State) (o : Origin) (ids : List Nat) (i : Nat) :
    Table.at? (s.removeEach false o ids).bindings i = Table.at? s.bindings i := by
  induction ids generalizing s with
  | nil => rfl
  | cons c ids ih => rw [State.removeEach_cons, ih, State.remove_bindings_at?]; simp

theorem State.releaseScene_bindings (s : State) (n : Nat) : (s.releaseScene n).bindings = s.bindings := by
  cases hn : Table.at? s.scenes n with
  | none => rw [State.releaseScene, hn]
  | some y => rw [State.releaseScene_eq hn, State.removeEach_scene_bindings]

theorem State.claimsReleased_bindings_at? (s : State) (b i : Nat) :
    Table.at? (s.claimsReleased b).bindings i = Table.at? s.bindings i := by
  have scenes (ns : List Nat) (u : State) : (ns.foldl (fun s n => s.releaseScene n) u).bindings = u.bindings := by
    induction ns generalizing u with
    | nil => rfl
    | cons n ns ih => rw [List.foldl_cons, ih, State.releaseScene_bindings]
  rw [State.claimsReleased, scenes]
  exact s.removeEach_own_bindings _ _ i

/-- A release clears the captured mark of its binding, and changes no other mark and no other binding (R53). -/
theorem State.releaseLight_bindings_at? (s : State) (b i : Nat) :
    Table.at? (s.releaseLight b).bindings i =
      (Table.at? s.bindings i).map fun x => if i = b then { x with captured := false } else x := by
  cases hx : Table.at? s.bindings b with
  | none =>
    rw [State.releaseLight_of_free hx]
    by_cases here : i = b
    · rw [here, hx]
      rfl
    · simp [here]
  | some x =>
    have traces : (s.releaseLight b).bindings =
        Table.adjust (s.claimsReleased b).bindings b fun x => { x with captured := false } := by
      rw [State.releaseLight_of_inUse hx]
      simp [State.tracesDropped]
    rw [traces, Table.at?_adjust, State.claimsReleased_bindings_at?]
    by_cases here : i = b <;> simp [here]

theorem State.releaseLight_offered (s : State) (b : Nat) : (s.releaseLight b).offered = s.offered :=
  (s.releaseLight_keepsReports b).offered

/-! ## Replacement, suspension, retirement -/

theorem State.writeBinding_onlyLight (s : State) (b : Nat) (r : BindingRecord) : s.OnlyLight (s.writeBinding b r) :=
  (s.releaseLight_onlyLight b).withBindings _

theorem State.suspend_onlyLight (s : State) (b : Nat) : s.OnlyLight (s.suspend b) :=
  (s.releaseLight_onlyLight b).withBindings _

theorem State.retire_onlyLight (s : State) (b : Nat) : s.OnlyLight (s.retire b) :=
  (s.releaseLight_onlyLight b).withBindings _

theorem State.writeBinding_at? (s : State) (b : Nat) (r : BindingRecord) :
    Table.at? (s.writeBinding b r).bindings b = some (.fresh r) := Table.at?_put_self ..

theorem State.suspend_at? {b : Nat} {x : Binding} (hx : Table.at? s.bindings b = some x) :
    Table.at? (s.suspend b).bindings b =
      some { x with record := { x.record with suspended := true }, captured := false } := by
  have own := s.releaseLight_bindings_at? b b
  rw [hx, Option.map_some, if_pos rfl] at own
  rw [State.suspend, State.onBinding, State.withBindings, Table.at?_adjust_self, own, Option.map_some]

theorem State.retire_at? (s : State) (b : Nat) : Table.at? (s.retire b).bindings b = none := Table.at?_remove_self ..

/-- A binding written at a free id is written, and nothing else happens (R51). -/
theorem State.writeBinding_of_free {b : Nat} (hx : Table.at? s.bindings b = none) (r : BindingRecord) :
    s.writeBinding b r = { s with bindings := (s.writeBinding b r).bindings } := by
  unfold State.writeBinding
  rw [State.releaseLight_of_free hx]
  rfl

theorem State.writeBinding_lightLost (s : State) (b : Nat) (r : BindingRecord) :
    (s.releaseLight b).LightLost (s.writeBinding b r) :=
  .withBindings ((Moves.refl _).step (.putBinding _ b _)) fun i clear y hy => by
    rw [Table.at?_put] at hy
    split at hy
    · obtain rfl := Option.some.inj hy
      rfl
    · exact clear y hy

theorem State.suspend_lightLost (s : State) (b : Nat) : (s.releaseLight b).LightLost (s.suspend b) :=
  .onBinding b fun _ clear => clear

theorem State.retire_lightLost (s : State) (b : Nat) : (s.releaseLight b).LightLost (s.retire b) :=
  .withBindings ((Moves.refl _).step (.dropBinding _ b)) fun i clear y hy => by
    rw [Table.at?_remove] at hy
    split at hy
    · cases hy
    · exact clear y hy

end

/-! ## The refusals they share -/

section
variable {s : State} {id : Nat} {rest : List (Bool × Result)} {w : Work}

theorem State.inOrder_house_locked (house : id ≤ s.protectSize) (lock : s.houseLock = true) :
    s.inOrder (s.houseRefusals id ++ rest) w = .refuse .locked s := by
  rw [State.houseRefusals, State.inHouse_iff.2 house, lock]
  exact State.inOrder_cons_true ..

theorem State.inOrder_house_notInstaller (house : id ≤ s.protectSize) (lock : s.houseLock = false)
    (install : s.installInput = false) : s.inOrder (s.houseRefusals id ++ rest) w = .refuse .notInstaller s := by
  rw [State.houseRefusals, State.inHouse_iff.2 house, lock, install]
  exact (State.inOrder_cons_false ..).trans (State.inOrder_cons_true ..)

/-- Outside the house partition, or with the lock clear and INSTALL high, the checks that follow decide (R50, R60). -/
theorem State.inOrder_house_open (free : id ≤ s.protectSize → s.houseLock = false ∧ s.installInput = true) :
    s.inOrder (s.houseRefusals id ++ rest) w = s.inOrder rest w := by
  have lock : (s.inHouse id && s.houseLock) = false := by
    by_cases house : id ≤ s.protectSize
    · rw [(free house).1, Bool.and_false]
    · rw [State.inHouse_eq_false.2 (Nat.not_le.1 house), Bool.false_and]
  have install : (s.inHouse id && !s.installInput) = false := by
    by_cases house : id ≤ s.protectSize
    · rw [(free house).2, Bool.not_true, Bool.and_false]
    · rw [State.inHouse_eq_false.2 (Nat.not_le.1 house), Bool.false_and]
  rw [State.houseRefusals, lock, install]
  exact (State.inOrder_cons_false ..).trans (State.inOrder_cons_false ..)

theorem State.inOrder_lifecycle_busySaving (saving : s.saving.isSome = true) :
    s.inOrder (s.lifecycleRefusals id) w = .refuse .busySaving s := by
  rw [State.lifecycleRefusals, State.isSaving, saving]
  exact State.inOrder_cons_true ..

variable (saving : s.saving = none)
include saving

theorem State.inOrder_lifecycle_outOfRange (out : id < 1 ∨ 1024 < id) :
    s.inOrder (s.lifecycleRefusals id) w = .refuse .outOfRange s := by
  rw [State.lifecycleRefusals, State.isSaving, saving, within_eq_false.2 out]
  exact (State.inOrder_cons_false ..).trans (State.inOrder_cons_true ..)

variable (h1 : 1 ≤ id) (h2 : id ≤ 1024)
include h1 h2

/-- The checks left where no save runs and the id is in range. -/
theorem State.inOrder_lifecycle_of_inRange : s.inOrder (s.lifecycleRefusals id) w =
    s.inOrder (s.houseRefusals id ++ [((Table.at? s.bindings id).isNone, .noSuch)]) w := by
  rw [State.lifecycleRefusals, State.isSaving, saving, within_iff.2 ⟨h1, h2⟩]
  exact (State.inOrder_cons_false ..).trans (State.inOrder_cons_false ..)

theorem State.inOrder_lifecycle_locked (house : id ≤ s.protectSize) (lock : s.houseLock = true) :
    s.inOrder (s.lifecycleRefusals id) w = .refuse .locked s :=
  (State.inOrder_lifecycle_of_inRange saving h1 h2).trans (State.inOrder_house_locked house lock)

theorem State.inOrder_lifecycle_notInstaller (house : id ≤ s.protectSize) (lock : s.houseLock = false)
    (install : s.installInput = false) : s.inOrder (s.lifecycleRefusals id) w = .refuse .notInstaller s :=
  (State.inOrder_lifecycle_of_inRange saving h1 h2).trans (State.inOrder_house_notInstaller house lock install)

variable (free : id ≤ s.protectSize → s.houseLock = false ∧ s.installInput = true)
include free

theorem State.inOrder_lifecycle_noSuch (absent : Table.at? s.bindings id = none) :
    s.inOrder (s.lifecycleRefusals id) w = .refuse .noSuch s := by
  rw [State.inOrder_lifecycle_of_inRange saving h1 h2, State.inOrder_house_open free, absent]
  exact State.inOrder_cons_true ..

theorem State.inOrder_lifecycle_taken {x : Binding} (found : Table.at? s.bindings id = some x) :
    s.inOrder (s.lifecycleRefusals id) w = w := by
  rw [State.inOrder_lifecycle_of_inRange saving h1 h2, State.inOrder_house_open free, found]
  exact (State.inOrder_cons_false ..).trans (State.inOrder_nil ..)

end

section
variable (s : State) (b : Nat) (code tag : Byte) (body : List Byte)

theorem State.suspend_taken : (s.taken code tag body).suspend b = (s.suspend b).taken code tag body :=
  State.taken_comm (f := fun s => s.suspend b) (s.releaseLight_offered b) (fun _ _ _ => by simp [State.suspend]) ..

theorem State.retire_taken : (s.taken code tag body).retire b = (s.retire b).taken code tag body :=
  State.taken_comm (f := fun s => s.retire b) (s.releaseLight_offered b) (fun _ _ _ => by simp [State.retire]) ..

theorem State.writeBinding_taken (r : BindingRecord) :
    (s.taken code tag body).writeBinding b r = (s.writeBinding b r).taken code tag body :=
  State.taken_comm (f := fun s => s.writeBinding b r) (s.releaseLight_offered b)
    (fun _ _ _ => by simp [State.writeBinding]) ..

end

end Sys2Proof.Machine
end

section
/-! The requests on the life of a binding (O31). -/

namespace Sys2Proof.Machine

/-- Settles O31: the three requests share their checks, and what is taken releases the light as `released_of_release` has it. -/
theorem lifecycleRequestsOfABinding : Obligations.LifecycleRequestsOfABinding := by
  unfold Obligations.LifecycleRequestsOfABinding
  intro s install tag h l take id seen all refused house
  have request {code : Byte} {work : List Byte → State → Work} {t : State} {r : Result}
      (hw : work [h, l] (seen.taken code tag [h, l]) = .refuse r (t.taken code tag [h, l])) :
      Host.Outcome.next (s.takeRequest code tag [h, l] fun s => work [h, l] (s.seeInstall install)) =
        (.next (t.answered 2 tag r false []) : Host.Outcome State Fault Refusal) :=
    congrArg Host.Outcome.next (State.TakesRequests.answered (body := [h, l]) (t := t) (r := { result := r })
      (work := fun s => work [h, l] (s.seeInstall install)) take (by simp) hw)
  have refuse {r : Result} (hw : ∀ (code : Byte) (w : Work), (seen.taken code tag [h, l]).inOrder
      ((seen.taken code tag [h, l]).lifecycleRefusals id) w = .refuse r (seen.taken code tag [h, l])) : refused r :=
    ⟨request (work := suspendBinding) (hw ..), request (work := resumeBinding) (hw ..),
      request (work := retireBinding) (hw ..)⟩
  refine ⟨fun saving => refuse fun code w => State.inOrder_lifecycle_busySaving saving,
    fun saving out => refuse fun code w => State.inOrder_lifecycle_outOfRange saving out,
    fun saving h1 h2 house lock => refuse fun code w =>
      State.inOrder_lifecycle_locked saving h1 h2 house lock,
    fun saving h1 h2 house lock low => refuse fun code w =>
      State.inOrder_lifecycle_notInstaller saving h1 h2 house lock low,
    fun saving h1 h2 free => ⟨fun absent => refuse fun code w => State.inOrder_lifecycle_noSuch saving h1 h2 free absent,
      fun x found => ?_⟩⟩
  have taken (code : Byte) (w : Work) : (seen.taken code tag [h, l]).inOrder
      ((seen.taken code tag [h, l]).lifecycleRefusals id) w = w := State.inOrder_lifecycle_taken saving h1 h2 free found
  have suspended : (seen.taken 0x23 tag [h, l]).isSuspended id = x.record.suspended := by
    rw [State.isSuspended, show Table.at? (seen.taken 0x23 tag [h, l]).bindings id = some x from found, Option.any_some]
  refine ⟨(request (work := resumeBinding) (taken ..)), fun sus => ?_, fun armed sound order => ?_,
    fun sound order => ?_⟩
  · exact (request (work := suspendBinding) ((taken ..).trans
      (by rw [show be16 h l = id from rfl, suspended, sus]; rfl)))
  · refine ⟨seen.suspend id, (request (work := suspendBinding) ((taken ..).trans ?_)),
      seen.suspend_onlyLight id, State.suspend_at? found, fun b ne => seen.suspend_record_ne ne,
      State.released_of_release order sound (.refl _) found rfl (seen.suspend_lightLost id)⟩
    rw [show be16 h l = id from rfl, suspended, armed, State.suspend_taken]
    rfl
  · refine ⟨seen.retire id, (request (work := retireBinding) ((taken ..).trans ?_)),
      seen.retire_onlyLight id, seen.retire_at? id, fun b ne => seen.retire_record_ne ne,
      State.released_of_release order sound (.refl _) found rfl (seen.retire_lightLost id)⟩
    rw [show be16 h l = id from rfl, State.retire_taken]
    rfl

end Sys2Proof.Machine
end

section
/-! SUPPORT. WriteBinding: its checks in order (R50), and the state as it was of the INSTALL level. -/

namespace Sys2Proof.Machine

/-! ## The INSTALL level a request records -/

section
variable {s t : State} {install : Bool}

/-- A release changes nothing with the INSTALL level as it was. -/
theorem State.OnlyLight.seeInstall (h : (s.seeInstall install).OnlyLight t) : s.OnlyLight (t.seeInstall s.installInput) := by
  obtain ⟨eq, a, b⟩ := h
  exact ⟨congrArg (fun u => u.seeInstall s.installInput) eq, a, b⟩

theorem State.OnlyLight.installInput (h : s.OnlyLight t) : t.installInput = s.installInput := by rw [h.1]

end

/-! ## The checks -/

/-- The records of the other bindings (R50, checks 6 and 7). -/
def State.otherRecords (s : State) (id : Nat) : List BindingRecord :=
  (s.bindings.filter fun e => e.1 != id).map fun e => e.2.record

/-- The others that share source and gesture with a record (R50, check 7). -/
def State.sharing (s : State) (id : Nat) (r : BindingRecord) : List BindingRecord :=
  (s.otherRecords id).filter fun q => q.source == r.source && q.gesture == r.gesture

theorem writeBinding_busySaving {s : State} {body : List Byte} (saving : s.saving.isSome = true) :
    writeBinding body s = .refuse .busySaving s := State.parsed_of_saving saving ..

theorem writeBinding_badRequest {s : State} {body : List Byte} (saving : s.saving = none)
    (malformed : decodeBinding body = .malformed) : writeBinding body s = .refuse .badRequest s := by
  rw [writeBinding, malformed, State.parsed_malformed saving]

theorem writeBinding_outOfRange {s : State} {body : List Byte} (saving : s.saving = none)
    (out : decodeBinding body = .outOfRange) : writeBinding body s = .refuse .outOfRange s := by
  rw [writeBinding, out, State.parsed_outOfRange saving]

section
variable {s : State} {body : List Byte} {id : Nat} {r : BindingRecord} (saving : s.saving = none)
  (read : decodeBinding body = .ok (id, r))
include saving read

theorem writeBinding_of_ok : writeBinding body s =
    s.inOrder (s.houseRefusals id ++
      [(!s.targetExists r.action, .noSuch), ((s.otherRecords id).any r.agrees, .duplicate),
        (decide (4 ≤ (s.sharing id r).length), .full)]) (.done (s.writeBinding id r)) := by
  rw [writeBinding, read, State.parsed_ok saving]
  rfl

theorem writeBinding_locked (house : id ≤ s.protectSize) (lock : s.houseLock = true) :
    writeBinding body s = .refuse .locked s :=
  (writeBinding_of_ok saving read).trans (State.inOrder_house_locked house lock)

theorem writeBinding_notInstaller (house : id ≤ s.protectSize) (lock : s.houseLock = false)
    (install : s.installInput = false) : writeBinding body s = .refuse .notInstaller s :=
  (writeBinding_of_ok saving read).trans (State.inOrder_house_notInstaller house lock install)

variable (free : id ≤ s.protectSize → s.houseLock = false ∧ s.installInput = true)
include free

theorem writeBinding_noSuch (target : s.targetExists r.action = false) : writeBinding body s = .refuse .noSuch s := by
  rw [writeBinding_of_ok saving read, State.inOrder_house_open free, target]
  exact State.inOrder_cons_true ..

variable (target : s.targetExists r.action = true)
include target

theorem writeBinding_duplicate (agrees : (s.otherRecords id).any r.agrees = true) :
    writeBinding body s = .refuse .duplicate s := by
  rw [writeBinding_of_ok saving read, State.inOrder_house_open free, target, agrees]
  exact (State.inOrder_cons_false ..).trans (State.inOrder_cons_true ..)

variable (apart : (s.otherRecords id).any r.agrees = false)
include apart

theorem writeBinding_full (many : 4 ≤ (s.sharing id r).length) : writeBinding body s = .refuse .full s := by
  rw [writeBinding_of_ok saving read, State.inOrder_house_open free, target, apart, decide_eq_true many]
  exact (State.inOrder_cons_false ..).trans ((State.inOrder_cons_false ..).trans (State.inOrder_cons_true ..))

theorem writeBinding_taken (few : (s.sharing id r).length < 4) : writeBinding body s = .done (s.writeBinding id r) := by
  rw [writeBinding_of_ok saving read, State.inOrder_house_open free, target, apart, decide_eq_false (Nat.not_le.2 few)]
  exact (State.inOrder_cons_false ..).trans ((State.inOrder_cons_false ..).trans (State.inOrder_cons_false ..))

end

end Sys2Proof.Machine
end

section
/-! The writing of a binding (O30). -/

namespace Sys2Proof.Machine

/-- Settles O30: the checks in order, and then the old light released and the record put with its marks clear. -/
theorem writeBindingChecksAndStores : Obligations.WriteBindingChecksAndStores := by
  unfold Obligations.WriteBindingChecksAndStores
  intro s install tag body take short c refused
  have request {t : State} {r : Result} (hw : writeBinding body ((s.seeInstall install).taken 0x20 tag body) =
      .refuse r (t.taken 0x20 tag body)) : exec c s = .next (t.answered body.length tag r false []) :=
    congrArg Host.Outcome.next (State.TakesRequests.answered (t := t) (r := { result := r })
      (work := fun s => writeBinding body (s.seeInstall install)) take short hw)
  refine ⟨fun saving => request (writeBinding_busySaving saving), fun saving =>
    ⟨fun malformed => request (writeBinding_badRequest saving malformed),
      fun out => request (writeBinding_outOfRange saving out), fun id r read => ?_⟩⟩
  refine ⟨fun low lock => request (writeBinding_locked saving read low lock),
    fun low lock level => request (writeBinding_notInstaller saving read low lock level), fun free =>
    ⟨fun target => request (writeBinding_noSuch saving read free target),
      fun target agrees => request (writeBinding_duplicate saving read free target agrees),
      fun target apart many => request (writeBinding_full saving read free target apart many),
      fun target apart few => ?_⟩⟩
  have light := (s.seeInstall install).writeBinding_onlyLight id r
  have same : (((s.seeInstall install).writeBinding id r).seeInstall s.installInput).seeInstall install =
      (s.seeInstall install).writeBinding id r := by
    conv_rhs => rw [show (s.seeInstall install).writeBinding id r =
      ((s.seeInstall install).writeBinding id r).seeInstall ((s.seeInstall install).writeBinding id r).installInput from rfl,
      light.installInput]
    rfl
  refine ⟨((s.seeInstall install).writeBinding id r).seeInstall s.installInput, ?_, light.seeInstall,
    (s.seeInstall install).writeBinding_at? id r, fun b ne => (s.seeInstall install).writeBinding_record_ne ne r,
    fun absent => congrArg (fun u => u.seeInstall s.installInput)
      (State.writeBinding_of_free (s := s.seeInstall install) absent r),
    fun sound order x found => ?_⟩
  · refine (request (t := (s.seeInstall install).writeBinding id r) ?_).trans (congrArg (fun u =>
      Host.Outcome.next (State.answered u body.length tag .ok false [])) same.symm)
    exact (writeBinding_taken (s := (s.seeInstall install).taken 0x20 tag body) saving read free target apart few).trans
      (congrArg Work.done (State.writeBinding_taken ..))
  · exact State.released_of_release (s := s.seeInstall install) (t := (s.seeInstall install).writeBinding id r)
      order sound (.refl _) found rfl ((s.seeInstall install).writeBinding_lightLost id r)

end Sys2Proof.Machine
end

section
/-! SUPPORT. The house partition and the image: what a save copies, the checks of the requests that begin one, and bindings
retired one after another (R60, R61, R63, R170, R171). -/

namespace Sys2Proof.Machine

/-! ## What a save copies -/

section
variable (s : State) (i : Nat)

theorem State.copyImage_circuits_at? :
    Table.at? s.copyImage.circuits i = (Table.at? s.circuits i).map (·.config) := by simp [State.copyImage]

theorem State.copyImage_bindings_at? :
    Table.at? s.copyImage.bindings i = (Table.at? s.bindings i).map (·.record) := by simp [State.copyImage]

theorem State.copyImage_scenes_at? :
    Table.at? s.copyImage.scenes i = (Table.at? s.scenes i).map (·.definition) := by simp [State.copyImage]

theorem State.copyImage_groups_at? :
    Table.at? s.copyImage.groups i = (Table.at? s.groups i).map (·.members) := by simp [State.copyImage]

end

theorem State.mem_copyImage_racks {s : State} {r : Nat} :
    r ∈ s.copyImage.racks ↔ ∃ k, (r, k) ∈ s.racks ∧ k.state ≠ .absent := by
  simp [State.copyImage, Table.mem_idsWhere, Rack.configured]

/-- The stored setup of a line: its preferred end, OFF or ON, and the setups of its stations (R170). -/
theorem LineUnit.image_eq (u : LineUnit) : u.image.preferred = u.preferred ∧ u.image.on = decide (u.state ≠ .off) ∧
    ∀ a, Table.at? u.image.stations a = (Table.at? u.stations a).map (·.setup) := by
  refine ⟨rfl, ?_, fun a => by simp [LineUnit.image]⟩
  show (u.state != .off) = _
  cases u.state <;> rfl

/-! ## SetProtectSize, LockHouse, EraseHouse and SaveImage: the checks -/

section
variable {s : State}

/-- The checks of SetProtectSize (R60). -/
theorem setProtectSize_eq (h l : Byte) (s : State) : setProtectSize [h, l] s =
    if s.saving.isSome then .refuse .busySaving s
    else if 512 < be16 h l ∨ be16 h l % 64 ≠ 0 then .refuse .outOfRange s
    else if s.houseLock then .refuse .locked s
    else if s.installInput = false then .refuse .notInstaller s
    else .done { s with protectSize := be16 h l } := by
  by_cases busy : s.saving.isSome = true
  · rw [if_pos busy]
    exact State.parsed_of_saving busy ..
  have saving : s.saving = none := by simpa using busy
  rw [if_neg busy]
  by_cases out : 512 < be16 h l ∨ be16 h l % 64 ≠ 0
  · have read : decodeProtectSize [h, l] = .outOfRange := if_neg (by simp [within]; omega)
    rw [if_pos out, setProtectSize, read, State.parsed_outOfRange saving]
  · have read : decodeProtectSize [h, l] = .ok (be16 h l) := if_pos (by simp [within]; omega)
    rw [if_neg out, setProtectSize, read, State.parsed_ok saving]
    cases lock : s.houseLock <;> cases level : s.installInput <;> rfl

/-- The checks LockHouse and EraseHouse share (R61, R63). -/
theorem State.inOrder_install (s : State) (w : Work) :
    s.inOrder [(s.isSaving, .busySaving), (!s.installInput, .notInstaller)] w =
      if s.saving.isSome then .refuse .busySaving s
      else if s.installInput = false then .refuse .notInstaller s else w := by
  cases saving : s.saving <;> cases level : s.installInput <;> simp [State.inOrder, State.isSaving, saving]

theorem lockHouse_eq (s : State) : lockHouse [] s =
    if s.saving.isSome then .refuse .busySaving s
    else if s.installInput = false then .refuse .notInstaller s
    else .done { s with houseLock := true, image := none, saving := some { s.copyImage with houseLock := true } } :=
  s.inOrder_install _

theorem eraseHouse_eq (s : State) : eraseHouse [] s =
    if s.saving.isSome then .refuse .busySaving s
    else if s.installInput = false then .refuse .notInstaller s
    else .done (s.retireHouse.withHouseLock false).beginSave := s.inOrder_install _

/-- The checks of SaveImage (R171). -/
theorem saveImage_eq (body : List Byte) (s : State) : saveImage body s =
    if s.saving.isSome then .refuse .busySaving s
    else if body ≠ [] then .refuse .badRequest s
    else .done { s with image := none, saving := some s.copyImage } := by
  cases saving : s.saving <;> cases body <;> simp [saveImage, State.inOrder, State.isSaving, saving, State.beginSave]

end

/-! ## Bindings retired one after another -/

/-- Bindings retired in the order of a list (R63). -/
def State.retireEach (s : State) (ids : List Nat) : State := ids.foldl (fun s b => s.retire b) s

section
variable {s : State} {ids : List Nat}

theorem State.retireHouse_eq (s : State) : s.retireHouse = s.retireEach ((Table.ids s.bindings).filter s.inHouse) := rfl

theorem State.retireEach_cons (s : State) (b : Nat) (ids : List Nat) :
    s.retireEach (b :: ids) = (s.retire b).retireEach ids := rfl

theorem State.retireEach_append (s : State) (ids more : List Nat) :
    s.retireEach (ids ++ more) = (s.retireEach ids).retireEach more := List.foldl_append

theorem State.retireEach_onlyLight (s : State) (ids : List Nat) : s.OnlyLight (s.retireEach ids) :=
  (State.OnlyLight.refl s).foldl ids fun u b h => h.trans (u.retire_onlyLight b)

theorem State.retireEach_lightLost (order : s.TablesInOrder) (ids : List Nat) : s.LightLost (s.retireEach ids) :=
  (State.LightLost.refl s).foldl order ids fun u b hu => (State.releaseLight_lightLost hu b).trans hu (u.retire_lightLost b)

theorem State.retireEach_record {i : Nat} (h : i ∉ ids) (s : State) :
    (Table.at? (s.retireEach ids).bindings i).map (·.record) = (Table.at? s.bindings i).map (·.record) := by
  induction ids generalizing s with
  | nil => rfl
  | cons b ids ih =>
    rw [State.retireEach_cons, ih (fun mem => h (List.mem_cons_of_mem _ mem)), s.retire_record_ne]
    exact fun same => h (same ▸ List.mem_cons_self)

theorem State.retire_free {i : Nat} (h : Table.at? s.bindings i = none) (b : Nat) :
    Table.at? (s.retire b).bindings i = none := by
  by_cases own : i = b
  · exact own ▸ s.retire_at? i
  · simpa [h] using s.retire_record_ne own

theorem State.retireEach_free {i : Nat} (h : Table.at? s.bindings i = none) :
    Table.at? (s.retireEach ids).bindings i = none := by
  induction ids generalizing s with
  | nil => exact h
  | cons b ids ih => exact ih (State.retire_free h b)

theorem State.retireEach_at? {i : Nat} (h : i ∈ ids) (s : State) : Table.at? (s.retireEach ids).bindings i = none := by
  obtain ⟨before, after, rfl⟩ := List.append_of_mem h
  rw [State.retireEach_append, State.retireEach_cons]
  exact State.retireEach_free (State.retire_at? ..)

/-- Of each binding retired the light has been released when all have been (R53, R63). -/
theorem State.retireEach_released (order : s.TablesInOrder) (sound : s.ListsSound) {b : Nat} {x : Binding} (mem : b ∈ ids)
    (found : Table.at? s.bindings b = some x) : s.Released (s.retireEach ids) b x := by
  obtain ⟨before, after, rfl, first⟩ := List.eq_append_cons_of_mem mem
  have lost := State.retireEach_lightLost order before
  have order' := lost.tables order
  obtain ⟨x', found', record⟩ : ∃ x', Table.at? (s.retireEach before).bindings b = some x' ∧ x'.record = x.record := by
    have same := State.retireEach_record first s
    rw [found, Option.map_some, Option.map_eq_some_iff] at same
    exact same
  have release := State.releaseLight_lightLost order' b
  have retire := (s.retireEach before).retire_lightLost b
  have rest := State.retireEach_lightLost (retire.tables (release.tables order')) after
  rw [State.retireEach_append, State.retireEach_cons]
  exact State.released_of_release order sound lost found' (congrArg _ record) (retire.trans (release.tables order') rest)

theorem State.mem_houseIds {b : Nat} {x : Binding} (found : Table.at? s.bindings b = some x) (house : b ≤ s.protectSize) :
    b ∈ (Table.ids s.bindings).filter s.inHouse :=
  List.mem_filter.2 ⟨List.mem_map.2 ⟨(b, x), Table.mem_of_at? found, rfl⟩, State.inHouse_iff.2 house⟩

/-- No binding is left in the house partition (R63). -/
theorem State.retireHouse_at? {b : Nat} (house : b ≤ s.protectSize) : Table.at? s.retireHouse.bindings b = none := by
  rw [State.retireHouse_eq]
  cases found : Table.at? s.bindings b with
  | none => exact State.retireEach_free found
  | some x => exact State.retireEach_at? (State.mem_houseIds found house) s

/-- The records of the stage partition stay (R63). -/
theorem State.retireHouse_record {b : Nat} (stage : s.protectSize < b) :
    (Table.at? s.retireHouse.bindings b).map (·.record) = (Table.at? s.bindings b).map (·.record) :=
  State.retireEach_record (fun mem => absurd (State.inHouse_iff.1 (List.mem_filter.1 mem).2) (Nat.not_le.2 stage)) s

theorem State.retireHouse_released (order : s.TablesInOrder) (sound : s.ListsSound) {b : Nat} {x : Binding}
    (house : b ≤ s.protectSize) (found : Table.at? s.bindings b = some x) : s.Released s.retireHouse b x :=
  State.retireEach_released order sound (State.mem_houseIds found house) found

theorem State.retireHouse_taken (s : State) (code tag : Byte) (body : List Byte) :
    (s.taken code tag body).retireHouse = s.retireHouse.taken code tag body :=
  State.taken_comm (f := State.retireHouse) (by rw [State.retireHouse_eq, (s.retireEach_onlyLight _).1])
    (fun a k o => State.withExchange_foldl s a k o (fun _ _ => by simp [State.retire]) _) ..

end

/-! ## The requests -/

theorem exec_saveComplete {s : State} (running : s.power = .running) : exec .saveComplete s = .next s.completeSave :=
  congrArg Host.Outcome.next (if_pos running)

section
variable {s : State} (take : s.TakesRequests) (tag : Byte)
include take

theorem exec_setProtectSize (install : Bool) (h l : Byte) : exec (.setProtectSize install tag [h, l]) s = .next (
    if s.saving.isSome then (s.seeInstall install).answered 2 tag .busySaving false []
    else if 512 < be16 h l ∨ be16 h l % 64 ≠ 0 then (s.seeInstall install).answered 2 tag .outOfRange false []
    else if s.houseLock then (s.seeInstall install).answered 2 tag .locked false []
    else if install = false then (s.seeInstall install).answered 2 tag .notInstaller false []
    else { s.seeInstall install with protectSize := be16 h l }.answered 2 tag .ok false []) := by
  have request {t : State} {r : Result} (hw : setProtectSize [h, l] ((s.seeInstall install).taken 0x27 tag [h, l]) =
      .refuse r (t.taken 0x27 tag [h, l])) :
      exec (.setProtectSize install tag [h, l]) s = .next (t.answered 2 tag r false []) :=
    congrArg Host.Outcome.next (State.TakesRequests.answered (body := [h, l]) (t := t) (r := { result := r })
      (work := fun s => setProtectSize [h, l] (s.seeInstall install)) take (by simp) hw)
  rw [setProtectSize_eq] at request
  split_ifs with busy out lock level
  · exact request (if_pos busy)
  · exact request ((if_neg busy).trans (if_pos out))
  · exact request ((if_neg busy).trans ((if_neg out).trans (if_pos lock)))
  · exact request ((if_neg busy).trans ((if_neg out).trans ((if_neg lock).trans (if_pos level))))
  · exact request ((if_neg busy).trans ((if_neg out).trans ((if_neg lock).trans (if_neg level))))

theorem exec_lockHouse (install : Bool) : exec (.lockHouse install tag []) s = .next (
    if s.saving.isSome then (s.seeInstall install).answered 0 tag .busySaving false []
    else if install = false then (s.seeInstall install).answered 0 tag .notInstaller false []
    else { s.seeInstall install with
      houseLock := true, image := none
      saving := some { s.copyImage with houseLock := true } }.answered 0 tag .ok false []) := by
  have request {t : State} {r : Result} (hw : lockHouse [] ((s.seeInstall install).taken 0x28 tag []) =
      .refuse r (t.taken 0x28 tag [])) : exec (.lockHouse install tag []) s = .next (t.answered 0 tag r false []) :=
    congrArg Host.Outcome.next (State.TakesRequests.answered (body := []) (t := t) (r := { result := r })
      (work := fun s => lockHouse [] (s.seeInstall install)) take (by simp) hw)
  rw [lockHouse_eq] at request
  split_ifs with busy level
  · exact request (if_pos busy)
  · exact request ((if_neg busy).trans (if_pos level))
  · exact request ((if_neg busy).trans (if_neg level))

theorem exec_eraseHouse (install : Bool) : exec (.eraseHouse install tag []) s = .next (
    if s.saving.isSome then (s.seeInstall install).answered 0 tag .busySaving false []
    else if install = false then (s.seeInstall install).answered 0 tag .notInstaller false []
    else ((s.seeInstall install).retireHouse.withHouseLock false).beginSave.answered 0 tag .ok false []) := by
  have request {t : State} {r : Result} (hw : eraseHouse [] ((s.seeInstall install).taken 0x29 tag []) =
      .refuse r (t.taken 0x29 tag [])) : exec (.eraseHouse install tag []) s = .next (t.answered 0 tag r false []) :=
    congrArg Host.Outcome.next (State.TakesRequests.answered (body := []) (t := t) (r := { result := r })
      (work := fun s => eraseHouse [] (s.seeInstall install)) take (by simp) hw)
  rw [eraseHouse_eq, State.retireHouse_taken] at request
  split_ifs with busy level
  · exact request (if_pos busy)
  · exact request ((if_neg busy).trans (if_pos level))
  · exact request ((if_neg busy).trans (if_neg level))

theorem exec_saveImage {body : List Byte} (short : body.length ≤ 250) : exec (.saveImage tag body) s = .next (
    if s.saving.isSome then s.answered body.length tag .busySaving false []
    else if body ≠ [] then s.answered body.length tag .badRequest false []
    else { s with image := none, saving := some s.copyImage }.answered 0 tag .ok false []) := by
  have request {t : State} {r : Result} (hw : saveImage body (s.taken 0x61 tag body) = .refuse r (t.taken 0x61 tag body)) :
      exec (.saveImage tag body) s = .next (t.answered body.length tag r false []) :=
    congrArg Host.Outcome.next (take.answered (t := t) (r := { result := r }) short hw)
  rw [saveImage_eq] at request
  split_ifs with busy given
  · exact request (if_pos busy)
  · exact request ((if_neg busy).trans (if_pos given))
  · obtain rfl : body = [] := by simpa using given
    exact request ((if_neg busy).trans (if_neg given))

end

end Sys2Proof.Machine
end

section
/-! The house partition and the image (O35). -/

namespace Sys2Proof.Machine

/-- Settles O35: what the copy holds item by item, and each request by the equation of its checks. -/
theorem housePartitionAndSaveRequests : Obligations.HousePartitionAndSaveRequests := by
  unfold Obligations.HousePartitionAndSaveRequests
  intro s copy
  refine ⟨s.copyImage_circuits_at?, rfl, s.copyImage_bindings_at?, s.copyImage_scenes_at?, s.copyImage_groups_at?,
    fun r => State.mem_copyImage_racks, rfl, rfl, rfl, fun l => ?_, fun running =>
    ⟨fun copy saving => (exec_saveComplete running).trans ?_, fun saving => (exec_saveComplete running).trans ?_⟩,
    fun tag take => ⟨exec_setProtectSize take tag, exec_lockHouse take tag, fun install => ?_, fun body => exec_saveImage take tag⟩⟩
  · cases l <;> exact LineUnit.image_eq _
  · rw [State.completeSave, saving]
    rfl
  · rw [State.completeSave, saving]
  · rw [exec_eraseHouse take]
    refine ⟨fun busy => congrArg Host.Outcome.next (if_pos busy), fun saving level => ?_, fun saving level => ?_⟩
    · rw [if_neg (by simp [saving]), if_pos level]
      rfl
    · refine ⟨((s.seeInstall install).retireHouse.withHouseLock false).beginSave,
        by rw [if_neg (by simp [saving]), if_neg (by simp [level])],
        fun b house => State.retireHouse_at? (s := s.seeInstall install) house,
        fun b stage => State.retireHouse_record (s := s.seeInstall install) stage, fun sound order b x house found =>
        State.retireHouse_released (s := s.seeInstall install) order sound house found, rfl, rfl, rfl, ?_⟩
      obtain ⟨eq, a, b⟩ := (s.seeInstall install).retireEach_onlyLight ((Table.ids s.bindings).filter s.inHouse)
      exact ⟨congrArg (fun u : State => { u with houseLock := s.houseLock, image := s.image, saving := s.saving }) eq, a, b⟩

end Sys2Proof.Machine
end

section
/-! SUPPORT. FireBinding (R57): its checks in order, and what some actions do fired for the host. -/

namespace Sys2Proof.Machine

/-! ## The checks -/

theorem fireBinding_badRequest {body : List Byte} (two : body.length ≠ 2) (four : body.length ≠ 4) (s : State) :
    fireBinding body s = .refuse .badRequest s := by
  unfold fireBinding
  split
  · simp at two
  · simp at four
  · rfl

/-- The body of a FireBinding, with or without a position (R57). -/
theorem fireBinding_eq (h l : Byte) (sent : Option (Byte × Byte)) (s : State) :
    fireBinding ([h, l] ++ sent.elim [] fun p => [p.1, p.2]) s =
      s.fireFromHost (be16 h l) (sent.map fun p => be16 p.1 p.2) := by cases sent <;> rfl

section
variable {s : State} {id : Nat} {position : Option Nat}

theorem State.fireFromHost_outOfRange (out : id < 1 ∨ 1024 < id) :
    s.fireFromHost id position = .refuse .outOfRange s := by
  rw [State.fireFromHost, within_eq_false.2 out]
  rfl

theorem State.not_withheld (free : id ≤ s.protectSize → s.houseLock = false) :
    ¬ (s.inHouse id && s.houseLock) = true := by
  rw [Bool.and_eq_true, State.inHouse_iff]
  rintro ⟨house, lock⟩
  rw [free house] at lock
  cases lock

variable (h1 : 1 ≤ id) (h2 : id ≤ 1024)
include h1 h2

theorem State.fireFromHost_locked (house : id ≤ s.protectSize) (lock : s.houseLock = true) :
    s.fireFromHost id position = .refuse .locked s := by
  simp [State.fireFromHost, within_iff.2 ⟨h1, h2⟩, State.inHouse_iff.2 house, lock]

variable (free : id ≤ s.protectSize → s.houseLock = false)
include free

theorem State.fireFromHost_noSuch (absent : Table.at? s.bindings id = none) :
    s.fireFromHost id position = .refuse .noSuch s := by
  simp only [State.fireFromHost, within_iff.2 ⟨h1, h2⟩, State.not_withheld free, absent]
  rfl

variable {x : Binding} (found : Table.at? s.bindings id = some x)
include found

/-- The checks left where the id is in range, not locked and in use. -/
theorem State.fireFromHost_of_inUse : s.fireFromHost id position =
    s.inOrder [((x.record.gesture == .move) != position.isSome, .badRequest), (!s.mayAct x, .notNow)]
      (.answered { result := .ok, clamped := position.any fun p => decide (1000 < p) }
        (s.fire id x .host none (position.map (min 1000)))) := by
  simp only [State.fireFromHost, within_iff.2 ⟨h1, h2⟩, State.not_withheld free, found]
  rfl

theorem State.fireFromHost_badRequest (apart : ¬ (x.record.gesture = .move ↔ position.isSome = true)) :
    s.fireFromHost id position = .refuse .badRequest s := by
  have differ : ((x.record.gesture == .move) != position.isSome) = true := by
    rw [bne_iff_ne, ne_eq, Bool.eq_iff_iff, beq_iff_eq]
    exact apart
  rw [State.fireFromHost_of_inUse h1 h2 free found, differ, State.inOrder_cons_true]

variable (fits : x.record.gesture = .move ↔ position.isSome = true)
include fits

theorem State.fireFromHost_of_fits : s.fireFromHost id position =
    s.inOrder [(!s.mayAct x, .notNow)]
      (.answered { result := .ok, clamped := position.any fun p => decide (1000 < p) }
        (s.fire id x .host none (position.map (min 1000)))) := by
  have same : ((x.record.gesture == .move) != position.isSome) = false := by
    rw [bne_eq_false_iff_eq, Bool.eq_iff_iff, beq_iff_eq]
    exact fits
  rw [State.fireFromHost_of_inUse h1 h2 free found, same, State.inOrder_cons_false]

theorem State.fireFromHost_notNow (barred : x.record.suspended = true ∨ x.record.modes.has s.mode = false) :
    s.fireFromHost id position = .refuse .notNow s := by
  have act : s.mayAct x = false := by
    rcases barred with suspended | out
    · simp [State.mayAct, suspended]
    · simp [State.mayAct, out]
  rw [State.fireFromHost_of_fits h1 h2 free found fits, act]
  exact State.inOrder_cons_true ..

theorem State.fireFromHost_taken (armed : x.record.suspended = false) (mode : x.record.modes.has s.mode = true) :
    s.fireFromHost id position = .answered { result := .ok, clamped := position.any fun p => decide (1000 < p) }
      (s.fire id x .host none (position.map (min 1000))) := by
  rw [State.fireFromHost_of_fits h1 h2 free found fits, State.mayAct_iff.2 ⟨armed, mode⟩]
  exact (State.inOrder_cons_false ..).trans (State.inOrder_nil ..)

end

/-! ## What a firing for the host does -/

/-- A master change made with the circuits in any order: nothing but zones, circuits and bindings differs, the zone has the new
master, and its maker keeps its marks (R20, R22). -/
theorem State.masterChange_frame {s : State} {z : Nat} {zone : Zone} (hz : Table.at? s.zones z = some zone)
    (value fade : Nat) (maker : Option Nat) :
    let t := s.masterChange z value fade maker
    t = { s with zones := t.zones, circuits := t.circuits, bindings := t.bindings } ∧
      (∀ i, Table.at? t.zones i = if i = z then some { zone with master := value } else Table.at? s.zones i) ∧
      ∀ b x, maker = some b → Table.at? s.bindings b = some x → Table.at? t.bindings b = some x := by
  unfold State.masterChange
  rw [hz]
  by_cases same : zone.master = value
  · subst same
    simp only [if_pos]
    refine ⟨trivial, fun i => ?_, fun _ _ _ hx => hx⟩
    by_cases here : i = z <;> simp [here, hz]
  · simp only [if_neg same]
    rw [State.foldl_resolve_frame]
    refine ⟨rfl, fun i => ?_, fun b x made hx => ?_⟩
    · by_cases here : i = z <;> simp [here, hz, Table.at?_adjust]
    · simp [hx, made]

/-- A RAISE or LOWER fired for the host is one step, with no repeat (R57, R79). -/
theorem State.fireRepeat_host {s : State} {z : Nat} {zone : Zone} (hz : Table.at? s.zones z = some zone) (b : Nat)
    (upward : Bool) (n : Nat) : s.fireRepeat b z upward n .host =
      s.masterChange z (if upward = true then min 1000 (zone.master + n) else zone.master - n) zone.masterFade none := by
  simp only [State.fireRepeat, State.stepMaster, hz]

/-- A contribution no key holds, placed on one circuit by a firing (R66, R69). -/
theorem State.firePlacing_circuit (s : State) (b c : Nat) {k : Contribution} (free : k.heldBy = none) :
    s.OnlyClaims (s.firePlacing b (.circuit c) k) ∧
      (s.firePlacing b (.circuit c) k).circuits = (s.place c k).1.circuits := by
  rw [State.firePlacing_eq (s := s) (area := .circuit c) (List.nodup_singleton c) free]
  exact ⟨((State.OnlyClaims.refl s).placeEach _).judgeBinding .., State.judgeBinding_circuits ..⟩

end Sys2Proof.Machine
end

section
/-! The firing of a binding from the host (O32). -/

namespace Sys2Proof.Machine

section
variable {s : State} (take : s.TakesRequests) {tag : Byte} {body : List Byte} (short : body.length ≤ 250)
include take short

/-- A FireBinding that is refused. -/
theorem exec_fireBinding_refused {r : Result}
    (hw : fireBinding body (s.taken 0x25 tag body) = .refuse r (s.taken 0x25 tag body)) :
    exec (.fireBinding tag body) s = .next (s.answered body.length tag r false []) :=
  congrArg Host.Outcome.next (take.refused short hw)

/-- A FireBinding that is taken, as its action leaves the state. -/
theorem exec_fireBinding_performed {id : Nat} {x : Binding} {q : Option Nat} {clamped : Bool} (idle : s.offered = none)
    (hw : fireBinding body (s.taken 0x25 tag body) =
      .answered { result := .ok, clamped := clamped } ((s.taken 0x25 tag body).fire id x .host none q))
    (keeps : (s.perform id x .host none (q.getD 0)).offered = s.offered) : exec (.fireBinding tag body) s =
      .next ((s.perform id x .host none (q.getD 0)).answered body.length tag .ok clamped []) := by
  refine congrArg Host.Outcome.next (take.answered (r := { result := .ok, clamped := clamped }) short (hw.trans ?_))
  rw [State.fire_eq_perform (s := s.taken 0x25 tag body) idle]
  exact congrArg _ (State.taken_comm (f := fun s => s.perform id x .host none (q.getD 0)) keeps
    (fun a k o => s.withExchange_perform a k o id x .host none (q.getD 0)) ..)

/-- A FireBinding whose action is a master change (R20, R22). -/
theorem exec_fireBinding_masterChange {id : Nat} {x : Binding} {q : Option Nat} {clamped : Bool} (idle : s.offered = none)
    (hw : fireBinding body (s.taken 0x25 tag body) =
      .answered { result := .ok, clamped := clamped } ((s.taken 0x25 tag body).fire id x .host none q))
    {z value fade : Nat} {zone : Zone} {maker : Option Nat} (hz : Table.at? s.zones z = some zone)
    (acts : s.perform id x .host none (q.getD 0) = s.masterChange z value fade maker) :
    ∃ t : State, exec (.fireBinding tag body) s = .next (t.answered body.length tag .ok clamped []) ∧
      t = { s with zones := t.zones, circuits := t.circuits, bindings := t.bindings } ∧
      (∀ i, Table.at? t.zones i = if i = z then some { zone with master := value } else Table.at? s.zones i) ∧
      ∀ b y, maker = some b → Table.at? s.bindings b = some y → Table.at? t.bindings b = some y := by
  obtain ⟨frame, rest⟩ := State.masterChange_frame hz value fade maker
  have performed := exec_fireBinding_performed take short idle hw (by rw [acts, frame])
  exact ⟨_, acts ▸ performed, frame, rest⟩

end

/-- Settles O32: the checks in order, and then the one action performed with no key behind it. -/
theorem fireBindingFromTheHost : Obligations.FireBindingFromTheHost := by
  unfold Obligations.FireBindingFromTheHost
  intro s tag take
  refine ⟨fun body short two four => exec_fireBinding_refused take short (fireBinding_badRequest two four _),
    fun h l sent => ?_⟩
  intro id body position refused
  have short : body.length ≤ 250 := by cases sent <;> simp [body]
  have read (u : State) : fireBinding body u = u.fireFromHost id position := fireBinding_eq h l sent u
  have refuse {r : Result} (hw : (s.taken 0x25 tag body).fireFromHost id position = .refuse r (s.taken 0x25 tag body)) :
      refused r := exec_fireBinding_refused take short ((read _).trans hw)
  refine ⟨fun out => refuse (State.fireFromHost_outOfRange out),
    fun h1 h2 house lock => refuse (State.fireFromHost_locked h1 h2 house lock),
    fun h1 h2 free absent => refuse (State.fireFromHost_noSuch h1 h2 free absent), fun x h1 h2 free found => ?_⟩
  intro fits clamped
  have given : position.isSome = sent.isSome := Option.isSome_map
  have fit (h : fits) : x.record.gesture = .move ↔ position.isSome = true := given ▸ h
  refine ⟨fun apart => refuse (State.fireFromHost_badRequest h1 h2 free found (given ▸ apart)),
    fun h barred => refuse (State.fireFromHost_notNow h1 h2 free found (fit h) barred), fun h armed mode => ?_⟩
  have fired : fireBinding body (s.taken 0x25 tag body) = .answered { result := .ok, clamped := clamped }
      ((s.taken 0x25 tag body).fire id x .host none (position.map (min 1000))) :=
    (read _).trans (State.fireFromHost_taken (s := s.taken 0x25 tag body) h1 h2 free found (fit h) armed mode)
  have performed (idle : s.offered = none)
      (keeps : (s.perform id x .host none ((position.map (min 1000)).getD 0)).offered = s.offered) :=
    exec_fireBinding_performed take short idle fired keeps
  refine ⟨congrArg Host.Outcome.next (State.takeRequest_of_answered take.1 take.2 short fired), fun idle none => ?_,
    fun idle q z zone sentAt follow hz => ?_⟩
  · subst none
    refine ⟨fun notify => ?_, fun z n zone act hz => ?_, fun circuit level tier fade y act _ => ?_⟩
    · rw [State.perform_notify notify] at performed
      exact performed idle rfl
    · have value {v : Nat} (acts : s.perform id x .host none 0 = s.masterChange z v zone.masterFade none) :=
        exec_fireBinding_masterChange take short idle fired hz acts
      rcases act with up | down
      · obtain ⟨t, done, frame, zones, _⟩ := value ((State.perform_raise up).trans (State.fireRepeat_host hz id true n))
        exact ⟨t, done, frame, by rw [if_pos up]; exact zones⟩
      · obtain ⟨t, done, frame, zones, _⟩ := value ((State.perform_lower down).trans (State.fireRepeat_host hz id false n))
        exact ⟨t, done, frame, by rw [if_neg (by simp [down])]; exact zones⟩
    · obtain ⟨only, circuits⟩ := s.firePlacing_circuit id circuit (k := bindingClaim id tier level fade fade none) rfl
      have acts : s.perform id x .host none 0 =
          s.firePlacing id (.circuit circuit) (bindingClaim id tier level fade fade none) := by
        simp only [State.perform, act, FiringSource.heldBy]
      rw [show (position.map (min 1000)).getD 0 = 0 from rfl, acts] at performed
      exact ⟨_, performed idle only.keepsReports.offered, only, circuits⟩
  · have acts : s.perform id x .host none ((position.map (min 1000)).getD 0) = s.masterChange z (min 1000 q) 0 (some id) := by
      rw [sentAt]
      exact State.perform_followMaster_host follow
    obtain ⟨t, done, frame, zones, kept⟩ := exec_fireBinding_masterChange take short idle fired hz acts
    have two : body.length = 4 := by
      obtain ⟨p, rfl⟩ := Option.isSome_iff_exists.1 (given.symm.trans (by rw [sentAt]; rfl))
      rfl
    exact ⟨t, two ▸ done, frame, zones, kept id x rfl found⟩

end Sys2Proof.Machine
end

section
/-! SUPPORT. Contributions that leave the lists they are in, with the circuits that lose one resolved (R10, R13, R72, R74). -/

namespace Sys2Proof.Machine

/-! ## A circuit that loses contributions -/

/-- In a sound list the origin tells the contribution (R6). -/
theorem ListSound.eq_of_origin {l : List Contribution} (h : ListSound l) {k k' : Contribution} (hk : k ∈ l) (hk' : k' ∈ l)
    (same : k.origin = k'.origin) : k = k' := List.inj_on_of_nodup_map h.2 hk hk' same

/-- Taking the claim of an origin out of a sound list leaves the claims of the others. -/
theorem ListSound.mem_eraseP_origin {l : List Contribution} (h : ListSound l) {o : Origin} {k : Contribution} :
    k ∈ l.eraseP (fun k => k.origin == o) ↔ k ∈ l ∧ k.origin ≠ o := by
  refine ⟨fun hk => ⟨List.mem_of_mem_eraseP hk, origin_ne_of_mem_eraseP h.2 o k hk⟩, fun ⟨hk, other⟩ => ?_⟩
  exact (List.mem_eraseP_of_neg (by simpa using other)).2 hk

/-- A circuit after some contributions have left its list: the others are in their order, and it has been resolved if it lost
one (R10, R13). -/
structure Circuit.Dropped (y z : Circuit) (goes : Contribution → Prop) : Prop where
  config : z.config = y.config
  sublist : z.claims.Sublist y.claims
  mem : ∀ k, k ∈ z.claims ↔ k ∈ y.claims ∧ ¬ goes k
  kept : (∀ k ∈ y.claims, ¬ goes k) → z = y
  resolved : (∃ k ∈ y.claims, goes k) →
    z.resolved.winning = winningTier z.claims ∧ z.resolved.raw = rawValue y.config.rest z.claims

namespace Circuit.Dropped

variable {x y z : Circuit} {goes goes' : Contribution → Prop}

theorem refl (stays : ∀ k ∈ y.claims, ¬ goes k) : y.Dropped y goes where
  config := rfl
  sublist := .refl _
  mem k := ⟨fun hk => ⟨hk, stays k hk⟩, And.left⟩
  kept _ := rfl
  resolved := fun ⟨k, hk, gone⟩ => absurd gone (stays k hk)

theorem congr (h : y.Dropped z goes) (same : ∀ k ∈ y.claims, goes k ↔ goes' k) : y.Dropped z goes' where
  config := h.config
  sublist := h.sublist
  mem k := (h.mem k).trans (and_congr_right fun hk => not_congr (same k hk))
  kept stays := h.kept fun k hk gone => stays k hk ((same k hk).1 gone)
  resolved := fun ⟨k, hk, gone⟩ => h.resolved ⟨k, hk, (same k hk).2 gone⟩

theorem trans (h : x.Dropped y goes) (k : y.Dropped z goes') : x.Dropped z fun c => goes c ∨ goes' c where
  config := k.config.trans h.config
  sublist := k.sublist.trans h.sublist
  mem c := by rw [k.mem, h.mem, not_or, and_assoc]
  kept stays := by
    obtain rfl := h.kept fun c hc gone => stays c hc (.inl gone)
    exact k.kept fun c hc gone => stays c hc (.inr gone)
  resolved := fun ⟨c, hc, gone⟩ => by
    by_cases later : ∃ c ∈ y.claims, goes' c
    · exact h.config ▸ k.resolved later
    · rw [k.kept fun c hc gone => later ⟨c, hc, gone⟩]
      refine h.resolved ⟨c, hc, by_contra fun stays => later ⟨c, (h.mem c).2 ⟨hc, stays⟩, ?_⟩⟩
      exact gone.resolve_left stays

/-- What is left of a list is what a test holds of. -/
theorem claims_eq_filter (h : y.Dropped z goes) (sound : ListSound y.claims) {test : Contribution → Bool}
    (tests : ∀ k ∈ y.claims, test k = true ↔ ¬ goes k) : z.claims = y.claims.filter test := by
  have distinct : y.claims.Nodup := .of_map _ sound.2
  have left (k : Contribution) : k ∈ z.claims ↔ k ∈ y.claims.filter test := by
    rw [h.mem, List.mem_filter]
    exact and_congr_right fun hk => (tests k hk).symm
  have within : z.claims.Sublist (y.claims.filter test) := by
    rw [← List.filter_eq_self.2 fun k hk => (List.mem_filter.1 ((left k).1 hk)).2]
    exact h.sublist.filter test
  exact within.eq_of_length ((List.perm_ext_iff_of_nodup (distinct.sublist h.sublist) (distinct.filter _)).2 left).length_eq

end Circuit.Dropped

theorem Circuit.removed_dropped {y : Circuit} (sound : ListSound y.claims) (master : Option Nat) (o : Origin) :
    y.Dropped (y.removed master o) fun k => k.origin = o where
  config := Circuit.removed_config ..
  sublist := by rw [Circuit.removed_claims]; exact List.eraseP_sublist
  mem k := by rw [Circuit.removed_claims]; exact sound.mem_eraseP_origin
  kept stays := Circuit.removed_of_absent stays master
  resolved := fun ⟨k, hk, own⟩ => by
    obtain ⟨k', found⟩ := Option.isSome_iff_exists.1 (List.find?_isSome (p := fun k : Contribution => k.origin == o).2
      ⟨k, hk, by simpa using own⟩)
    rw [Circuit.removed, found]
    exact ⟨rfl, rfl⟩

/-! ## A state whose circuits lose contributions -/

/-- The circuits after contributions have left some of the lists (R10, R13). -/
def State.ClaimsDropped (s t : State) (goes : Nat → Contribution → Prop) : Prop :=
  ∀ c, (Table.at? s.circuits c = none → Table.at? t.circuits c = none) ∧
    ∀ y, Table.at? s.circuits c = some y → ∃ z, Table.at? t.circuits c = some z ∧ y.Dropped z (goes c)

namespace State.ClaimsDropped

variable {s t u : State} {goes goes' : Nat → Contribution → Prop}

theorem refl (stays : ∀ c y, Table.at? s.circuits c = some y → ∀ k ∈ y.claims, ¬ goes c k)
    (same : t.circuits = s.circuits) : s.ClaimsDropped t goes := by
  intro c
  rw [same]
  exact ⟨id, fun y hy => ⟨y, hy, .refl (stays c y hy)⟩⟩

theorem congr (h : s.ClaimsDropped t goes)
    (same : ∀ c y, Table.at? s.circuits c = some y → ∀ k ∈ y.claims, goes c k ↔ goes' c k) : s.ClaimsDropped t goes' := by
  intro c
  obtain ⟨none, some⟩ := h c
  refine ⟨none, fun y hy => ?_⟩
  obtain ⟨z, hz, dropped⟩ := some y hy
  exact ⟨z, hz, dropped.congr (same c y hy)⟩

theorem trans (h : s.ClaimsDropped t goes) (k : t.ClaimsDropped u goes') :
    s.ClaimsDropped u fun c x => goes c x ∨ goes' c x := by
  intro c
  obtain ⟨none, some⟩ := h c
  obtain ⟨none', some'⟩ := k c
  refine ⟨fun absent => none' (none absent), fun y hy => ?_⟩
  obtain ⟨z, hz, first⟩ := some y hy
  obtain ⟨w, hw, second⟩ := some' z hz
  exact ⟨w, hw, first.trans second⟩

/-- Only the circuits matter. -/
theorem of_circuits (h : s.ClaimsDropped t goes) (same : u.circuits = t.circuits) : s.ClaimsDropped u goes := by
  intro c
  rw [same]
  exact h c

end State.ClaimsDropped

theorem State.remove_claimsDropped {s : State} (sound : s.ListsSound) (byOther : Bool) (o : Origin) (c : Nat) :
    s.ClaimsDropped (s.remove byOther o c) fun i k => i = c ∧ k.origin = o := by
  intro i
  rw [State.remove_at?]
  refine ⟨fun absent => by rw [absent]; rfl, fun y hy => ⟨_, by rw [hy]; rfl, ?_⟩⟩
  dsimp only
  by_cases here : i = c
  · rw [if_pos here]
    exact (Circuit.removed_dropped (sound.at? hy) _ o).congr fun k _ => (and_iff_right here).symm
  · rw [if_neg here]
    exact .refl fun k _ gone => here gone.1

end Sys2Proof.Machine
end

section
/-! SUPPORT. The letting go of a key (R71, R72, R80). -/

namespace Sys2Proof.Machine

/-! ## The holdings of a key, pair by pair -/

/-- One pair of a key's holdings is given up: the binding's contribution on the circuit, where it still names the key (R72). -/
def State.dropPair (s : State) (key : StationInput) (p : Nat × Nat) : State :=
  let named := ((Table.at? s.circuits p.2).bind fun c => c.claims.find? fun k => k.origin == .binding p.1).any
    fun k => k.heldBy == some key
  if named then s.remove false (.binding p.1) p.2 else s

/-- Pairs of a key's holdings given up one after another. -/
def State.dropPairs (s : State) (key : StationInput) (pairs : List (Nat × Nat)) : State :=
  pairs.foldl (fun s p => s.dropPair key p) s

namespace State

section
variable (s : State)

/-! ### What it touches -/

/-- A removal by the binding itself touches nothing but circuits (R10). -/
theorem remove_own_frame (b c : Nat) :
    s.remove false (.binding b) c = s.withCircuits (s.remove false (.binding b) c).circuits := by
  have outcome := s.remove_outcome false (.binding b) c
  generalize s.remove false (.binding b) c = r at outcome
  cases outcome <;> rfl

theorem dropPair_frame (key : StationInput) (p : Nat × Nat) :
    s.dropPair key p = s.withCircuits (s.dropPair key p).circuits := by
  unfold dropPair
  dsimp only
  split
  · exact s.remove_own_frame ..
  · rfl

theorem dropPairs_frame (key : StationInput) (pairs : List (Nat × Nat)) :
    s.dropPairs key pairs = s.withCircuits (s.dropPairs key pairs).circuits := by
  induction pairs generalizing s with
  | nil => rfl
  | cons p pairs ih =>
    have later : s.dropPairs key (p :: pairs) = (s.dropPair key p).dropPairs key pairs := rfl
    rw [later, ih, s.dropPair_frame]
    rfl

/-! ### It looks at no line -/

theorem withCircuits_onUnit (x : Table Circuit) (l : Line) (f : LineUnit → LineUnit) :
    (s.withCircuits x).onUnit l f = (s.onUnit l f).withCircuits x := by cases l <;> rfl

theorem remove_own_onUnit (l : Line) (f : LineUnit → LineUnit) (b c : Nat) :
    (s.onUnit l f).remove false (.binding b) c = (s.remove false (.binding b) c).onUnit l f := by
  unfold State.remove
  rw [onUnit_circuits]
  cases (Table.at? s.circuits c).bind fun x => x.claims.find? fun k => k.origin == .binding b with
  | none => rfl
  | some x => cases l <;> rfl

theorem dropPair_onUnit (l : Line) (f : LineUnit → LineUnit) (key : StationInput) (p : Nat × Nat) :
    (s.onUnit l f).dropPair key p = (s.dropPair key p).onUnit l f := by
  unfold dropPair
  rw [onUnit_circuits]
  dsimp only
  split
  · exact s.remove_own_onUnit ..
  · rfl

theorem dropPairs_onUnit (l : Line) (f : LineUnit → LineUnit) (key : StationInput) (pairs : List (Nat × Nat)) :
    (s.onUnit l f).dropPairs key pairs = (s.dropPairs key pairs).onUnit l f := by
  induction pairs generalizing s with
  | nil => rfl
  | cons p pairs ih =>
    refine Eq.trans ?_ (ih (s.dropPair key p))
    exact congrArg (fun u : State => u.dropPairs key pairs) (s.dropPair_onUnit l f key p)

end

/-! ### What leaves the lists -/

section
variable {s : State}

theorem dropPair_moves (key : StationInput) (p : Nat × Nat) : Moves s (s.dropPair key p) :=
  .ite (fun _ => (Moves.refl s).remove ..) fun _ => .refl s

theorem ListsSound.dropPair (sound : s.ListsSound) (key : StationInput) (p : Nat × Nat) : (s.dropPair key p).ListsSound :=
  (dropPair_moves key p).keeps Move.listsSound sound

theorem dropPair_claimsDropped (sound : s.ListsSound) (key : StationInput) (p : Nat × Nat) :
    s.ClaimsDropped (s.dropPair key p) fun c k => k.heldBy = some key ∧ k.origin = .binding p.1 ∧ p.2 = c := by
  unfold State.dropPair
  dsimp only
  split
  · rename_i named
    refine (remove_claimsDropped sound false (.binding p.1) p.2).congr fun c y hy k hk => ?_
    refine ⟨fun ⟨here, own⟩ => ⟨?_, own, here.symm⟩, fun ⟨_, own, here⟩ => ⟨here.symm, own⟩⟩
    obtain ⟨k', hk', names⟩ := (Option.any_eq_true ..).1 named
    rw [← here, hy, Option.bind_some] at hk'
    have own' : k'.origin = .binding p.1 := by simpa using List.find?_some hk'
    obtain rfl := (sound.at? hy).eq_of_origin hk (List.mem_of_find?_eq_some hk') (own.trans own'.symm)
    simpa using names
  · rename_i unnamed
    refine .refl (fun c y hy k hk ⟨holds, own, here⟩ => unnamed ?_) rfl
    subst here
    rw [hy, Option.bind_some]
    obtain ⟨k', found⟩ := Option.isSome_iff_exists.1 (List.find?_isSome (p := fun k : Contribution => k.origin == .binding p.1).2
      ⟨k, hk, by simpa using own⟩)
    have own' : k'.origin = .binding p.1 := by simpa using List.find?_some found
    obtain rfl := (sound.at? hy).eq_of_origin hk (List.mem_of_find?_eq_some found) (own.trans own'.symm)
    rw [found]
    simpa using holds

theorem dropPairs_claimsDropped (sound : s.ListsSound) (key : StationInput) (pairs : List (Nat × Nat)) :
    s.ClaimsDropped (s.dropPairs key pairs) fun c k =>
      k.heldBy = some key ∧ ∃ b, k.origin = .binding b ∧ (b, c) ∈ pairs := by
  induction pairs generalizing s with
  | nil => exact .refl (fun _ _ _ _ _ ⟨_, _, _, mem⟩ => nomatch mem) rfl
  | cons p pairs ih =>
    refine ((dropPair_claimsDropped sound key p).trans (ih (sound.dropPair key p))).congr fun c y _ k _ => ?_
    constructor
    · rintro (⟨holds, own, here⟩ | ⟨holds, b, own, later⟩)
      · exact ⟨holds, p.1, own, by simp [← here]⟩
      · exact ⟨holds, b, own, List.mem_cons_of_mem _ later⟩
    · rintro ⟨holds, b, own, mem⟩
      rcases List.mem_cons.1 mem with rfl | later
      · exact .inl ⟨holds, own, rfl⟩
      · exact .inr ⟨holds, b, own, later⟩

end

/-! ## The letting go of a key -/

/-- The holdings of a key are empty (R72). -/
def emptied (s : State) (key : StationInput) : State := s.onKey key fun r => { r with holdings := [] }

section
variable {s : State} {key : StationInput} {r : KeyRecord} (found : s.key? key = some r)
include found

/-- A key that is let go gives up the pairs of its holdings, empties them and ends its repeats (R71, R72, R80). -/
theorem letGo_eq : s.letGo key = ((s.emptied key).withCircuits (s.dropPairs key r.holdings).circuits).withRepeats
    (s.repeats.filter fun p => p.key != key) := by
  have holdings : s.dropHoldings key = (s.dropPairs key r.holdings).emptied key := by
    rw [dropHoldings, found]
    rfl
  rw [letGo, dropRepeats, holdings, emptied, dropPairs_frame, onKey, onStation, withCircuits_onUnit]
  simp [emptied, onKey, onStation]

theorem letGo_key_self : (s.letGo key).key? key = some { r with holdings := [] } := by
  rw [letGo_eq found, key?_withRepeats]
  refine (key?_of_onlyClaims ((OnlyClaims.refl (s.emptied key)).withCircuits _) key).trans ?_
  rw [emptied, key?_onKey_self, found, Option.map_some]

theorem letGo_key_other {other : StationInput} (h : other ≠ key) : (s.letGo key).key? other = s.key? other := by
  rw [letGo_eq found, key?_withRepeats]
  refine (key?_of_onlyClaims ((OnlyClaims.refl (s.emptied key)).withCircuits _) other).trans ?_
  exact key?_onKey_ne _ h

theorem letGo_repeats : (s.letGo key).repeats = s.repeats.filter fun p => p.key != key := by
  rw [letGo_eq found]
  rfl

/-- Circuits, repeats and key records apart, nothing differs. -/
theorem letGo_frame : s.letGo key = { s with
    circuits := (s.letGo key).circuits, repeats := (s.letGo key).repeats, lineA := (s.letGo key).lineA,
    lineB := (s.letGo key).lineB } := by
  rw [letGo_eq found, emptied]
  obtain ⟨l, _, _⟩ := key
  cases l <;> rfl

theorem letGo_onlyLight : s.OnlyLight (s.letGo key) := by
  rw [letGo_eq found]
  have emptied : s.OnlyLight (s.emptied key) := (OnlyLight.refl s).onKey key fun _ => rfl
  exact (emptied.trans ((OnlyClaims.refl _).withCircuits _).onlyLight).withRepeats _

theorem letGo_claimsDropped (sound : s.ListsSound) : s.ClaimsDropped (s.letGo key) fun c k =>
    k.heldBy = some key ∧ ∃ b, k.origin = .binding b ∧ (b, c) ∈ r.holdings :=
  (dropPairs_claimsDropped sound key r.holdings).of_circuits (by rw [letGo_eq found]; rfl)

end

end State

end Sys2Proof.Machine
end

section
/-! SUPPORT. The expiries of a key's timers and of a repeat (R79, R102, R104, R105). -/

namespace Sys2Proof.Machine

namespace State

variable {s : State}

/-! ## Gestures of a key that nothing is bound to -/

theorem report_of_unbound {key : StationInput} (unbound : ∀ e ∈ s.bindings, e.2.record.source ≠ key) (g : Gesture) :
    s.report key g = s := by
  refine report_of_nil ?_ none none
  rw [indexList, Table.idsWhere, List.map_eq_nil_iff, List.filter_eq_nil_iff]
  intro e mem named
  simp only [Bool.and_eq_true, beq_iff_eq] at named
  exact unbound e mem named.1

/-! ## Timers of a key -/

section
variable {key : StationInput} {r : KeyRecord} (found : s.key? key = some r)
include found

theorem holdExpiry_of_found : s.holdExpiry key = if r.holdTimer.isSome ∧ r.state = .down then
    (s.onKey key fun y => { y with state := .held, holdTimer := none }).report key .hold else s := by
  rw [holdExpiry, found]

theorem doubleExpiry_of_found : s.doubleExpiry key = if r.doubleTimer.isSome ∧ r.state = .waitSecond then
    s.pressNow key else s := by
  rw [doubleExpiry, found]

/-- A key become STUCK, with its holdings and repeats still to go (R105). -/
def stuckAt (s : State) (key : StationInput) : State := s.onKey key fun y => { y with
  state := .stuck, plainRelease := false, downStamp := none, holdTimer := none, stuckTimer := none }

theorem stuckExpiry_of_found : s.stuckExpiry key = if r.stuckTimer.isSome ∧ (r.state = .down ∨ r.state = .held) then
    ((s.stuckAt key).letGo key).raise .stuck else s := by
  rw [stuckExpiry, found]
  rfl

end

theorem expiries_of_absent {key : StationInput} (absent : s.key? key = none) :
    s.holdExpiry key = s ∧ s.doubleExpiry key = s ∧ s.stuckExpiry key = s := by
  simp only [holdExpiry, doubleExpiry, stuckExpiry, absent, and_self]

/-! ## Repeats -/

theorem repeatExpiry_of_absent {b : Nat} (absent : ∀ p ∈ s.repeats, p.binding ≠ b) : s.repeatExpiry b = s := by
  have none : (s.repeats.find? fun r => r.binding == b) = none := by simpa using absent
  rw [repeatExpiry, none]

theorem repeatExpiry_of_first {b : Nat} {before after : List Repeat} {p : Repeat} {zone : Zone}
    (split : s.repeats = before ++ p :: after) (own : p.binding = b) (first : ∀ q ∈ before, q.binding ≠ b)
    (configured : Table.at? s.zones p.zone = some zone) : s.repeatExpiry b =
      (s.masterChange p.zone (if p.upward then min 1000 (zone.master + p.step) else zone.master - p.step) zone.masterFade
        none).withRepeats (s.repeats.map fun q => if q.binding = b then { q with timer := 100 } else q) := by
  have found : (s.repeats.find? fun r => r.binding == b) = some p := by
    have passed : before.find? (fun r => r.binding == b) = none := List.find?_eq_none.2 (by simpa using first)
    rw [split, List.find?_append, passed, List.find?_cons_of_pos (by simpa using own)]
    rfl
  have frame := (masterChange_frame configured
    (if p.upward then min 1000 (zone.master + p.step) else zone.master - p.step) zone.masterFade none).1
  simp only [repeatExpiry, found, stepMaster, configured]
  rw [frame]

end State

end Sys2Proof.Machine
end

section
/-! The expiries of keys and repeats (O50). -/

namespace Sys2Proof.Machine

section
variable {s : State} (running : s.power = .running)
include running

theorem exec_holdTimerExpiry (key : StationInput) : exec (.holdTimerExpiry key) s = .next (s.holdExpiry key) :=
  congrArg Host.Outcome.next (State.whileRunning_of_running running _)

theorem exec_doubleTimerExpiry (key : StationInput) : exec (.doubleTimerExpiry key) s = .next (s.doubleExpiry key) :=
  congrArg Host.Outcome.next (State.whileRunning_of_running running _)

theorem exec_stuckTimerExpiry (key : StationInput) : exec (.stuckTimerExpiry key) s = .next (s.stuckExpiry key) :=
  congrArg Host.Outcome.next (State.whileRunning_of_running running _)

theorem exec_repeatTimerExpiry (b : Nat) : exec (.repeatTimerExpiry b) s = .next (s.repeatExpiry b) :=
  congrArg Host.Outcome.next (State.whileRunning_of_running running _)

end

/-- The key record, the repeats and the notices of a key that becomes STUCK (R105). -/
theorem State.stuckAt_letGo {s : State} {key : StationInput} {r : KeyRecord} (found : s.key? key = some r) :
    let t := ((s.stuckAt key).letGo key).raise .stuck
    t.key? key = some { r with
      state := .stuck, plainRelease := false, downStamp := none, holdTimer := none, stuckTimer := none, holdings := [] } ∧
    t.repeats = s.repeats.filter (fun p => p.key != key) ∧ t.notices = { s.notices with stuck := true } ∧
    t = { s with
      circuits := t.circuits, bindings := t.bindings, scenes := t.scenes, repeats := t.repeats, notices := t.notices,
      lineA := t.lineA, lineB := t.lineB } := by
  have stuck : (s.stuckAt key).key? key = some { r with
      state := .stuck, plainRelease := false, downStamp := none, holdTimer := none, stuckTimer := none } := by
    rw [stuckAt, key?_onKey_self, found, Option.map_some]
  have raised (u : State) : (u.raise .stuck).key? key = u.key? key := by
    obtain ⟨l, _, _⟩ := key
    cases l <;> rfl
  have frame := State.letGo_frame stuck
  refine ⟨?_, ?_, ?_, ?_⟩
  · exact (raised _).trans (State.letGo_key_self stuck)
  · exact (State.letGo_repeats stuck).trans (by simp [stuckAt])
  · show ((s.stuckAt key).letGo key).notices.with .stuck = _
    rw [frame]
    simp [stuckAt, NoticeSet.with]
  · rw [frame, stuckAt]
    obtain ⟨l, _, _⟩ := key
    cases l <;> rfl

/-- Settles O50: each expiry looks at its timer and at the state of its key, and the step of a repeat is a master change. -/
theorem keyTimersAndRepeats : Obligations.KeyTimersAndRepeats := by
  unfold Obligations.KeyTimersAndRepeats
  intro s running
  refine ⟨fun key r found => ?_, fun key absent => ?_, fun b absent => ?_,
    fun b before p after zone split own first configured => ?_⟩
  · intro unbound held up
    rw [exec_holdTimerExpiry running, exec_doubleTimerExpiry running, exec_stuckTimerExpiry running,
      State.holdExpiry_of_found found, State.doubleExpiry_of_found found, State.stuckExpiry_of_found found]
    refine ⟨fun down runs => ⟨?_, fun free => ?_⟩, fun no => ?_, fun wait runs => ⟨?_, fun free => ?_⟩, fun no => ?_,
      fun pressed runs => ⟨_, congrArg Host.Outcome.next (if_pos ⟨runs, pressed⟩), State.stuckAt_letGo found⟩, fun no => ?_⟩
    · rw [if_pos ⟨runs, down⟩]
    · exact State.report_of_unbound (s := s.onKey key _) (by rw [State.onKey_bindings]; exact free) .hold
    · rw [if_neg fun ⟨runs, down⟩ => no.elim (· down) fun none => by simp [none] at runs]
    · rw [if_pos ⟨runs, wait⟩]
      rfl
    · exact State.report_of_unbound (s := s.onKey key _) (by rw [State.onKey_bindings]; exact free) .press
    · rw [if_neg fun ⟨runs, wait⟩ => no.elim (· wait) fun none => by simp [none] at runs]
    · rw [if_neg fun ⟨runs, pressed⟩ => no.elim (fun up => pressed.elim up.1 up.2) fun none => by simp [none] at runs]
  · obtain ⟨hold, double, stuck⟩ := State.expiries_of_absent absent
    rw [exec_holdTimerExpiry running, exec_doubleTimerExpiry running, exec_stuckTimerExpiry running, hold, double, stuck]
    exact ⟨rfl, rfl, rfl⟩
  · rw [exec_repeatTimerExpiry running, State.repeatExpiry_of_absent absent]
  · obtain ⟨frame, zones, _⟩ := State.masterChange_frame configured
      (if p.upward then min 1000 (zone.master + p.step) else zone.master - p.step) zone.masterFade none
    refine ⟨_, (exec_repeatTimerExpiry running b).trans (congrArg Host.Outcome.next
      (State.repeatExpiry_of_first split own first configured)), ?_, zones, rfl⟩
    rw [frame]
    rfl

end Sys2Proof.Machine
end

section
/-! SUPPORT. One input of a Snapshot Answer against its key record, and the closings and openings of a contact (R107, R112). -/

namespace Sys2Proof.Machine

/-! ## The inputs of a frame -/

theorem readingsOf_ids (first count bits : Nat) :
    (readingsOf first count bits).map Prod.fst = (List.range count).map fun i => first + i := by
  simp [readingsOf, Function.comp_def]

theorem readingsOf_rising (first count bits : Nat) : ((readingsOf first count bits).map Prod.fst).Pairwise (· < ·) := by
  rw [readingsOf_ids]
  exact List.pairwise_map.2 (List.pairwise_lt_range.imp fun h => Nat.add_lt_add_left h first)

/-- The inputs of a Snapshot Answer rise strictly, for each kind of station (section 12.6). -/
theorem decodeSnapshot_rising {chars : List Character} {f : SnapshotFrame} (h : decodeSnapshot chars = some f) :
    (f.inputs.map Prod.fst).Pairwise (· < ·) := by
  unfold decodeSnapshot at h
  split at h
  · split at h
    · split at h
      · cases h; exact readingsOf_rising ..
      · cases h
        exact (by decide : ([1, 2, 3, 4, 5, 6, 7, 8] : List Nat).Pairwise (· < ·))
      · cases h; exact readingsOf_rising ..
      · cases h
    · cases h
  · cases h

/-! ## One input -/

namespace State

variable {s : State} {l : Line} {a input : Nat} {r : KeyRecord}

/-- An input with no record is passed over. -/
theorem compareInput_of_none (none : s.key? ⟨l, a, input⟩ = none) (reading : InputReading) :
    s.compareInput l a (input, reading) = s := by
  unfold compareInput
  simp only [none]

section
variable (found : s.key? ⟨l, a, input⟩ = some r)
include found

theorem compareInput_fader (kind : r.inputClass = .fader) (q : Nat) : s.compareInput l a (input, .position q) =
    if r.position = some (min 1000 q) then s else s.faderMove ⟨l, a, input⟩ r q := by
  unfold compareInput
  simp only [found, kind]

section
variable {st : Station} {edges : List EdgeMode} {filter : ContactFilter} {mode : EdgeMode}
  (station : s.station? l a = some st) (setup : st.setup = .contact edges filter) (edge : edges[input - 1]? = some mode)
  (kind : r.inputClass = .contact)
include station setup edge kind

theorem compareInput_contact (closed : Bool) : s.compareInput l a (input, .down closed) =
    if closed = (r.state == .down) then s else s.contactEvent ⟨l, a, input⟩ mode closed := by
  unfold compareInput
  simp only [found, kind, station, Option.map_some, Option.getD_some, setup, StationSetup.edgeOf, edge]

theorem stationEvent_closes (seq : Nat) (stamp : Stamp) :
    s.stationEvent l a ⟨seq, input, .down, stamp⟩ = s.contactEvent ⟨l, a, input⟩ mode true := by
  unfold stationEvent
  simp only [found, kind, station, Option.map_some, Option.getD_some, setup, StationSetup.edgeOf, edge]

theorem stationEvent_opens (seq : Nat) (stamp : Stamp) :
    s.stationEvent l a ⟨seq, input, .up, stamp⟩ = s.contactEvent ⟨l, a, input⟩ mode false := by
  unfold stationEvent
  simp only [found, kind, station, Option.map_some, Option.getD_some, setup, StationSetup.edgeOf, edge]

end

end

/-! ## Contacts -/

theorem contactEvent_closes (s : State) (key : StationInput) (mode : EdgeMode) : s.contactEvent key mode true =
    if mode = .fall then s.onKey key fun y => { y with state := .down }
    else (s.onKey key fun y => { y with state := .down }).report key .down := rfl

theorem contactEvent_opens (s : State) (key : StationInput) (mode : EdgeMode) : s.contactEvent key mode false =
    if mode = .rise then (s.dropRepeats key).onKey key fun y => { y with state := .up }
    else ((s.letGo key).onKey key fun y => { y with state := .up }).report key .up := rfl

end State

end Sys2Proof.Machine
end

section
/-! The contacts and the snapshots (O57). -/

namespace Sys2Proof.Machine

/-- Settles O57: the class and the state of the record pick the branch of R107, R108 or R112. -/
theorem contactsAndSnapshots : Obligations.ContactsAndSnapshots := by
  unfold Obligations.ContactsAndSnapshots
  intro s l a input st station key one
  have record : s.key? key = Table.at? st.keys input := by rw [State.key?, station, Option.bind_some]
  have single (reading : InputReading) : one reading = s.compareInput l a (input, reading) := rfl
  refine ⟨fun reading rest => rfl, fun chars f => decodeSnapshot_rising, fun none reading => ?_, fun r found => ?_⟩
  · rw [single, State.compareInput_of_none (record.trans none)]
  have found : s.key? ⟨l, a, input⟩ = some r := record.trans found
  refine ⟨fun kind => ?_, fun kind edges filter mode setup edge => ?_, fun kind q => ?_⟩
  · rw [single, single]
    unfold State.compareInput
    simp only [found, kind]
    refine ⟨fun up => ?_, fun wait => ?_, fun pressed => ?_, fun down => ?_, fun held => ?_, fun stuck => ?_, fun idle => ?_⟩
    · simp only [up]
      exact State.firstPress_of_standing rfl ..
    · simp only [wait]
      exact State.firstPress_of_standing (State.standing_pressNow ..) ..
    · rcases pressed with down | held | stuck
      · simp only [down]
      · simp only [held]
      · simp only [stuck]
    · simp only [down]
      rfl
    · simp only [held]
      rfl
    · simp only [stuck]
      rfl
    · rcases idle with up | wait
      · simp only [up]
      · simp only [wait]
  · rw [single, single, State.compareInput_contact found station setup edge kind,
      State.compareInput_contact found station setup edge kind, State.contactEvent_closes, State.contactEvent_opens]
    refine ⟨fun seq stamp => ⟨?_, ?_⟩, ?_, ?_⟩
    · exact State.stationEvent_closes found station setup edge kind seq stamp
    · exact State.stationEvent_opens found station setup edge kind seq stamp
    · by_cases down : r.state = .down
      · rw [if_pos down, if_pos (by simp [down])]
      · rw [if_neg down, if_neg (by simp [down])]
    · by_cases down : r.state = .down
      · rw [if_pos down, if_neg (by simp [down])]
        rfl
      · rw [if_neg down, if_pos (by simp [down])]
  · rw [single, State.compareInput_fader found kind]
    exact ⟨fun same => if_pos same, fun moved => if_neg moved⟩

end Sys2Proof.Machine
end

section
/-! SUPPORT. A firing whose contributions a key holds: the placements do not look at the lines, and the key's record takes the
pairs of those that were made (R66 to R70). -/

namespace Sys2Proof.Machine

/-! ## Changes to one key record -/

theorem Table.adjust_adjust {α : Type} (t : Table α) (i : Nat) (f g : α → α) :
    Table.adjust (Table.adjust t i f) i g = Table.adjust t i fun x => g (f x) := by
  simp only [Table.adjust, List.map_map]
  refine List.map_congr_left fun e _ => ?_
  by_cases here : e.1 = i <;> simp [here]

theorem Table.adjust_self {α : Type} (t : Table α) (i : Nat) : Table.adjust t i (fun x => x) = t := by
  refine (List.map_congr_left fun e _ => ?_).trans (List.map_id t)
  exact ite_self e

namespace State

theorem onStation_onStation (s : State) (l : Line) (a : Nat) (f g : Station → Station) :
    (s.onStation l a f).onStation l a g = s.onStation l a fun st => g (f st) := by
  cases l <;> simp only [onStation, onUnit, setUnit, unit, Table.adjust_adjust]

theorem onStation_self (s : State) (l : Line) (a : Nat) : s.onStation l a (fun st => st) = s := by
  cases l <;> simp only [onStation, onUnit, setUnit, unit, Table.adjust_self]

theorem onKey_onKey (s : State) (k : StationInput) (f g : KeyRecord → KeyRecord) :
    (s.onKey k f).onKey k g = s.onKey k fun r => g (f r) := by
  simp only [onKey, onStation_onStation, Table.adjust_adjust]

theorem onKey_self (s : State) (k : StationInput) : s.onKey k (fun r => r) = s := by
  simp only [onKey, Table.adjust_self]
  exact s.onStation_self ..

/-! ## Placements and the lines -/

/-- The state with other line units. -/
def withLines (s : State) (x y : LineUnit) : State := { s with lineA := x, lineB := y }

section
variable (s : State) (x y : LineUnit)

theorem withLines_markRefused (o : Origin) : (s.withLines x y).markRefused o = (s.markRefused o).withLines x y := by
  cases o <;> rfl

theorem withLines_markDisplaced (c : Nat) (o : Origin) :
    (s.withLines x y).markDisplaced c o = (s.markDisplaced c o).withLines x y := by cases o <;> rfl

theorem withLines_judgeLive (n : Nat) : (s.withLines x y).judgeLive n = (s.judgeLive n).withLines x y := by
  unfold judgeLive
  have same : (s.withLines x y).live n = s.live n := rfl
  rw [same]
  split <;> rfl

theorem withLines_departed (byOther : Bool) (o : Origin) :
    (s.withLines x y).departed byOther o = (s.departed byOther o).withLines x y := by
  cases o with
  | scene n => exact s.withLines_judgeLive x y n
  | _ => cases byOther <;> rfl

theorem withLines_place (c : Nat) (k : Contribution) :
    (s.withLines x y).place c k = ((s.place c k).1.withLines x y, (s.place c k).2) := by
  have outcome := s.place_outcome c k
  generalize s.place c k = r at outcome
  cases outcome with
  | unconfigured hx => exact place_of_unconfigured (s := s.withLines x y) hx k
  | refused z l hx hi =>
    exact (place_of_refused (s := s.withLines x y) hx hi).trans (by rw [withLines_markRefused])
  | taken z l v hv hx hi =>
    rcases hv with rfl | rfl
    · exact place_of_replaced (s := s.withLines x y) hx hi
    · exact place_of_appended (s := s.withLines x y) hx hi
  | displaced z l victim hx hi =>
    refine (place_of_displaced (s := s.withLines x y) hx hi).trans ?_
    have claims : (s.withLines x y).withClaims c l k.arrival = (s.withClaims c l k.arrival).withLines x y := rfl
    rw [claims, withLines_markDisplaced, withLines_departed]

end

/-- A change to a key record is a change of the lines that only the lines decide. -/
theorem OnlyClaims.onKey_eq {s t : State} (h : s.OnlyClaims t) (key : StationInput) (f : KeyRecord → KeyRecord) :
    t.onKey key f = t.withLines (s.onKey key f).lineA (s.onKey key f).lineB := by
  rw [h]
  obtain ⟨l, _, _⟩ := key
  cases l <;> rfl

section
variable (s : State) (key : StationInput) (f : KeyRecord → KeyRecord)

theorem place_onKey (c : Nat) (k : Contribution) :
    (s.onKey key f).place c k = ((s.place c k).1.onKey key f, (s.place c k).2) := by
  rw [(OnlyClaims.refl s).onKey_eq key f, withLines_place, ((OnlyClaims.refl s).place c k).onKey_eq key f]

theorem placeEach_onKey (claims : List (Nat × Contribution)) :
    (s.onKey key f).placeEach claims = (s.placeEach claims).onKey key f := by
  induction claims generalizing s with
  | nil => rfl
  | cons e claims ih => rw [placeEach_cons, placeEach_cons, place_onKey, ih]

theorem judgeBinding_onKey (b : Nat) (t : Tally) :
    (s.onKey key f).judgeBinding b t = (s.judgeBinding b t).onKey key f := by
  unfold judgeBinding
  split
  · obtain ⟨l, _, _⟩ := key
    cases l <;> rfl
  · rfl

end

end State

/-! ## The pairs a key takes -/

/-- Whether a placement was made, by appending or by re-placing (R70). -/
def Verdict.places : Verdict → Bool
  | .appended _ | .replaced => true
  | .unconfigured | .refused => false

theorem Verdict.places_iff {v : Verdict} : v.places = true ↔ v ≠ .refused ∧ v ≠ .unconfigured := by
  cases v <;> simp [Verdict.places]

theorem mem_addPair {p q : Nat × Nat} {l : List (Nat × Nat)} : q ∈ addPair p l ↔ q = p ∨ q ∈ l := by
  induction l with
  | nil => simp [addPair]
  | cons x l ih =>
    unfold addPair
    split
    · subst p
      simp
    · split
      · simp
      · rw [List.mem_cons, ih, List.mem_cons]
        exact or_left_comm

/-- A key record with a binding's pairs for these circuits entered (R70). -/
def KeyRecord.taking (b : Nat) (circuits : List Nat) (r : KeyRecord) : KeyRecord :=
  { r with holdings := circuits.foldl (fun pairs c => addPair (b, c) pairs) r.holdings }

theorem KeyRecord.mem_taking {b : Nat} {circuits : List Nat} {r : KeyRecord} {p : Nat × Nat} :
    p ∈ (r.taking b circuits).holdings ↔ p ∈ r.holdings ∨ ∃ c ∈ circuits, p = (b, c) := by
  unfold KeyRecord.taking
  dsimp only
  generalize r.holdings = pairs
  induction circuits generalizing pairs with
  | nil => simp
  | cons c circuits ih =>
    rw [List.foldl_cons, ih, mem_addPair, List.exists_mem_cons_iff]
    tauto

namespace State

theorem recordHolding_key (s : State) (b c : Nat) (key : StationInput) (v : Verdict) :
    s.recordHolding b c (some key) v = s.onKey key (KeyRecord.taking b ([c].filter fun _ => v.places)) := by
  cases v with
  | appended | replaced => rfl
  | unconfigured | refused => exact (s.onKey_self key).symm

/-- The circuits of a list on which a placement is made. -/
def placedCircuits (s : State) (ids : List Nat) (k : Contribution) : List Nat := ids.filter fun c => (s.place c k).2.places

section
variable {k : Contribution} {key : StationInput}

/-- The placements of a firing and the pairs they enter, one circuit after another, are all the placements and then all the
pairs. -/
theorem foldl_place_recordHolding (s : State) (b : Nat) {ids : List Nat} (distinct : ids.Nodup) (t : Tally) :
    ids.foldl (fun (acc : State × Tally) c =>
      ((acc.1.place c k).1.recordHolding b c (some key) (acc.1.place c k).2, acc.2.count (acc.1.place c k).2)) (s, t) =
      ((s.placeEach (k.onEach ids)).onKey key (KeyRecord.taking b (s.placedCircuits ids k)),
        (s.verdicts (k.onEach ids)).foldl Tally.count t) := by
  induction ids generalizing s t with
  | nil => exact congrArg (·, t) (s.onKey_self key).symm
  | cons c ids ih =>
    obtain ⟨fresh, distinct⟩ := List.nodup_cons.1 distinct
    let u := (s.place c k).1
    let take := KeyRecord.taking b ([c].filter fun _ => (s.place c k).2.places)
    have verdict : ∀ i ∈ ids, ((u.onKey key take).place i k).2 = (s.place i k).2 := fun i hi => by
      rw [place_onKey]
      exact place_verdict_congr (s.place_at?_ne k fun (same : i = c) => fresh (same ▸ hi))
        ((OnlyClaims.refl s).place c k).mode k
    have circuits : (u.onKey key take).placedCircuits ids k = s.placedCircuits ids k :=
      List.filter_congr fun i hi => by rw [verdict i hi]
    have verdicts : (u.onKey key take).verdicts (k.onEach ids) = s.verdicts (k.onEach ids) :=
      List.map_congr_left fun e he => by
        obtain ⟨i, hi, rfl⟩ := List.mem_map.1 he
        exact verdict i hi
    rw [List.foldl_cons, recordHolding_key, ih _ distinct, circuits, verdicts, placeEach_onKey, onKey_onKey]
    refine Prod.ext ?_ rfl
    refine congrArg ((s.placeEach (k.onEach (c :: ids))).onKey key) (funext fun r => ?_)
    have split : s.placedCircuits (c :: ids) k = ([c].filter fun _ => (s.place c k).2.places) ++ s.placedCircuits ids k :=
      List.filter_append (p := fun c => (s.place c k).2.places) [c] ids
    rw [split, KeyRecord.taking, KeyRecord.taking, KeyRecord.taking, List.foldl_append]

theorem firePlacing_eq_held {s : State} {area : Area} (distinct : (s.reached area).Nodup) (hk : k.heldBy = some key)
    (b : Nat) : s.firePlacing b area k =
      ((s.placeEach (k.onEach (s.reached area))).judgeBinding b (s.firingTally (s.reached area) k)).onKey key
        (KeyRecord.taking b (s.placedCircuits (s.reached area) k)) := by
  unfold firePlacing
  simp only [hk]
  rw [foldl_place_recordHolding s b distinct, judgeBinding_onKey]
  rfl

end

end State

end Sys2Proof.Machine
end

section
/-! SUPPORT. What the placements of a firing leave of the binding that fired, of the others and of the scenes (R9, R11, R69). -/

namespace Sys2Proof.Machine

namespace State

/-- The placements of a firing on these circuits, with the judgement of its binding's marks (R66, R69). -/
def firedOn (s : State) (b : Nat) (ids : List Nat) (k : Contribution) : State :=
  (s.placeEach (k.onEach ids)).judgeBinding b (s.firingTally ids k)

section
variable {s : State} {b : Nat} {ids : List Nat} {k : Contribution}

theorem firedOn_onlyClaims : s.OnlyClaims (s.firedOn b ids k) := ((OnlyClaims.refl s).placeEach _).judgeBinding ..

/-- A firing that meets no configured circuit does nothing (R69). -/
theorem firedOn_of_unconfigured (absent : ∀ c ∈ ids, (s.place c k).2 = .unconfigured) : s.firedOn b ids k = s := by
  have none_placed : (s.firingTally ids k).any = false :=
    Bool.eq_false_iff.2 fun any => have ⟨c, hc, placed⟩ := firingTally_any.1 any; placed (absent c hc)
  rw [firedOn, judgeBinding_of_none none_placed]
  exact s.placeEach_of_unconfigured fun e he => by obtain ⟨c, hc, rfl⟩ := List.mem_map.1 he; exact absent c hc

variable (distinct : ids.Nodup)
include distinct

theorem firedOn_placedOn : s.PlacedOn (s.firedOn b ids k) ids k := by
  intro c
  rw [firedOn, judgeBinding_circuits]
  exact placeEach_placedOn distinct c

variable (own : k.origin = .binding b)
include own

theorem firedOn_bindings_at? (i : Nat) : Table.at? (s.firedOn b ids k).bindings i = (Table.at? s.bindings i).map fun x =>
    let placed := (s.verdicts (k.onEach ids)).foldl (fun x v => x.afterPlacement (.binding b) v i) x
    if i = b then placed.judged (s.firingTally ids k) else placed := by
  rw [firedOn, judgeBinding_at?, s.placeEach_bindings_at? ((k.onEach_ids ids).symm ▸ distinct)
    (fun e he => (Contribution.onEach_origin he).trans own), Option.map_map]
  rfl

/-- With a refusal the binding that fired has its partial mark (R69). -/
theorem firedOn_of_refused {x : Binding} (hb : Table.at? s.bindings b = some x)
    (refused : ∃ c ∈ ids, (s.place c k).2 = .refused) :
    Table.at? (s.firedOn b ids k).bindings b = some { x with partialMark := true } := by
  have met : (s.firingTally ids k).any = true :=
    firingTally_any.2 (refused.imp fun c h => ⟨h.1, by rw [h.2]; exact nofun⟩)
  have mine := verdicts_own (s := s) fun e (he : e ∈ k.onEach ids) => (Contribution.onEach_origin he).trans own
  rw [firedOn_bindings_at? distinct own, hb, Option.map_some]
  dsimp only
  rw [if_pos rfl, Binding.foldl_afterPlacement_of_refused mine (mem_verdicts_onEach.2 refused)]
  simp [Binding.judged, met, firingTally_refused.2 refused]

/-- With placements and no refusal both its marks are clear (R69). -/
theorem firedOn_of_placed {x : Binding} (hb : Table.at? s.bindings b = some x)
    (kept : ∀ c ∈ ids, (s.place c k).2 ≠ .refused) (placed : ∃ c ∈ ids, (s.place c k).2 ≠ .unconfigured) :
    Table.at? (s.firedOn b ids k).bindings b = some { x with partialMark := false, displacedMark := false } := by
  have none_refused : .refused ∉ s.verdicts (k.onEach ids) := fun h =>
    have ⟨c, hc, hr⟩ := mem_verdicts_onEach.1 h
    kept c hc hr
  have not_refused : (s.firingTally ids k).refused = false :=
    Bool.eq_false_iff.2 fun h => none_refused (mem_verdicts_onEach.2 (firingTally_refused.1 h))
  have mine := verdicts_own (s := s) fun e (he : e ∈ k.onEach ids) => (Contribution.onEach_origin he).trans own
  rw [firedOn_bindings_at? distinct own, hb, Option.map_some]
  dsimp only
  rw [if_pos rfl, Binding.foldl_afterPlacement_of_kept mine (absurd · none_refused)]
  simp [Binding.judged, firingTally_any.2 placed, not_refused]

/-- Another binding is marked where it was displaced, and is as it was otherwise (R9, R111). -/
theorem firedOn_other {i : Nat} (other : i ≠ b) :
    (s.Displaces ids k (.binding i) → Table.at? (s.firedOn b ids k).bindings i =
      (Table.at? s.bindings i).map fun y => { y with displacedMark := true, captured := false }) ∧
    (¬ s.Displaces ids k (.binding i) → Table.at? (s.firedOn b ids k).bindings i = Table.at? s.bindings i) := by
  have foreign : Origin.binding b ≠ .binding i := fun e => other (Origin.binding.inj e).symm
  rw [firedOn_bindings_at? distinct own]
  simp only [if_neg other]
  refine ⟨fun displaced => ?_, fun kept => ?_⟩
  · simp only [Binding.foldl_afterPlacement_of_displaced foreign (displaces_iff.2 displaced)]
  · have none_displaced : ∀ v ∈ s.verdicts (k.onEach ids), ¬ v.Displaces (.binding i) :=
      fun v hv h => kept (displaces_iff.1 ⟨v, hv, h⟩)
    simp only [Binding.foldl_afterPlacement_of_kept none_displaced fun _ => foreign, Option.map_id']

theorem firedOn_scene (order : Table.InOrder s.circuits) {n : Nat} {y : Scene} (hy : Table.at? s.scenes n = some y) :
    ∃ z, Table.at? (s.firedOn b ids k).scenes n = some z ∧
      y.AfterPlacements z (s.Displaces ids k (.scene n)) ((s.firedOn b ids k).holds (.scene n) = 0) := by
  obtain ⟨z, hz, after⟩ := placeEach_other_scene order ((k.onEach_ids ids).symm ▸ distinct)
    (fun e he => (Contribution.onEach_origin he).trans own) (nofun : Origin.binding b ≠ .scene n) hy
  rw [displaces_iff] at after
  rw [firedOn, judgeBinding_scenes, holds_congr (judgeBinding_circuits ..)]
  exact ⟨z, hz, after⟩

end

/-- What a firing whose contributions a key holds leaves (R66 to R70). -/
theorem firePlacing_fired_held {s : State} (order : Table.InOrder s.circuits) {b : Nat} {x : Binding}
    (hb : Table.at? s.bindings b = some x) (area : Area) {k : Contribution} (own : k.origin = .binding b)
    {key : StationInput} (hk : k.heldBy = some key) : s.Fired (s.firePlacing b area k) b x (s.reached area) k := by
  have distinct := reached_nodup order area
  rw [firePlacing_eq_held distinct hk]
  generalize s.reached area = ids at distinct
  let take := KeyRecord.taking b (s.placedCircuits ids k)
  let t := (s.firedOn b ids k).onKey key take
  have only : s.OnlyClaims (s.firedOn b ids k) := firedOn_onlyClaims
  have circuits : t.circuits = (s.firedOn b ids k).circuits := onKey_circuits ..
  have bindings : t.bindings = (s.firedOn b ids k).bindings := onKey_bindings ..
  have scenes : t.scenes = (s.firedOn b ids k).scenes := onKey_scenes ..
  show s.Fired t b x ids k
  refine ⟨only.onlyLight.onKey key fun _ => rfl, ?_, fun c => ?_, fun refused => ?_, fun kept placed => ?_, fun absent => ?_,
    fun i other => ?_, fun n none => ?_, fun n y hy => ?_, fun free => ?_, fun other apart => ?_, fun holder r same found => ?_⟩
  · exact (onKey_repeats ..).trans (by rw [only])
  · rw [circuits]
    exact firedOn_placedOn distinct c
  · rw [bindings]
    exact firedOn_of_refused distinct own hb refused
  · rw [bindings]
    exact firedOn_of_placed distinct own hb kept placed
  · have none_taken : s.placedCircuits ids k = [] :=
      List.filter_eq_nil_iff.2 fun c hc => by rw [absent c hc]; exact nofun
    show (s.firedOn b ids k).onKey key (KeyRecord.taking b (s.placedCircuits ids k)) = s
    rw [none_taken, firedOn_of_unconfigured absent]
    exact s.onKey_self key
  · rw [bindings]
    exact firedOn_other distinct own other
  · rw [scenes, firedOn, judgeBinding_scenes]
    exact s.placeEach_scene_of_none _ none
  · rw [scenes, holds_congr circuits]
    exact firedOn_scene distinct own order hy
  · exact absurd (hk.symm.trans free) nofun
  · have ne : other ≠ key := fun e => apart (hk.trans (by rw [e]))
    exact (key?_onKey_ne take ne).trans (key?_of_onlyClaims only other)
  · obtain rfl : key = holder := Option.some.inj (hk.symm.trans same)
    refine ⟨(r.taking b (s.placedCircuits ids k)).holdings, ?_, fun p => ?_⟩
    · rw [key?_onKey_self, key?_of_onlyClaims only, found]
      rfl
    · rw [KeyRecord.mem_taking]
      refine or_congr_right (exists_congr fun c => ?_)
      rw [placedCircuits, List.mem_filter, Verdict.places_iff]
      tauto

end State

end Sys2Proof.Machine
end

section
/-! SUPPORT. Contributions removed one after another from the circuits they are on, and the release of a tier (R10, R11, R74). -/

namespace Sys2Proof.Machine

/-! ## What the lists hold when contributions have left -/

theorem Circuit.Dropped.holds_iff {y z : Circuit} {goes : Origin → Prop} (h : y.Dropped z fun k => goes k.origin)
    {o : Origin} : z.holds o = true ↔ y.holds o = true ∧ ¬ goes o := by
  rw [Circuit.holds_iff, Circuit.holds_iff]
  constructor
  · rintro ⟨k, hk, rfl⟩
    obtain ⟨before, stays⟩ := (h.mem k).1 hk
    exact ⟨⟨k, before, rfl⟩, stays⟩
  · rintro ⟨⟨k, hk, rfl⟩, stays⟩
    exact ⟨k, (h.mem k).2 ⟨hk, stays⟩, rfl⟩

namespace State

theorem ClaimsDropped.heldOn_iff {s t : State} {goes : Nat → Origin → Prop}
    (h : s.ClaimsDropped t fun c k => goes c k.origin) {o : Origin} {c : Nat} :
    t.heldOn o c = true ↔ s.heldOn o c = true ∧ ¬ goes c o := by
  obtain ⟨absent, present⟩ := h c
  unfold heldOn
  cases hy : Table.at? s.circuits c with
  | none => simp [absent hy]
  | some y =>
    obtain ⟨z, hz, dropped⟩ := present y hy
    rw [hz, Option.any_some, Option.any_some]
    exact dropped.holds_iff (goes := goes c)

/-! ## What one removal leaves of the owners -/

section
variable {s : State} {byOther : Bool} {o : Origin} {c : Nat}

theorem remove_keeps_binding {i : Nat} (h : byOther = true → o ≠ .binding i) :
    Table.at? (s.remove byOther o c).bindings i = Table.at? s.bindings i := by
  have unmoved : ¬ (s.heldOn o c = true ∧ byOther = true ∧ o = .binding i) := fun ⟨_, party, mine⟩ => h party mine
  rw [remove_bindings_at?]
  simp only [unmoved, if_false, Option.map_id']

theorem remove_clears_binding {i : Nat} (held : s.heldOn o c = true) (party : byOther = true) (mine : o = .binding i) :
    Table.at? (s.remove byOther o c).bindings i = (Table.at? s.bindings i).map fun w => { w with captured := false } := by
  have moved : s.heldOn o c = true ∧ byOther = true ∧ o = .binding i := ⟨held, party, mine⟩
  rw [remove_bindings_at?]
  simp only [if_pos moved]

theorem remove_keeps_scene {n : Nat} (h : o ≠ .scene n) :
    Table.at? (s.remove byOther o c).scenes n = Table.at? s.scenes n := by
  rw [remove_scenes_at?]
  simp only [h, false_and, and_false, if_false, Option.map_id']

theorem remove_scene_of_none {n : Nat} (absent : Table.at? s.scenes n = none) :
    Table.at? (s.remove byOther o c).scenes n = none := by rw [remove_scenes_at?, absent, Option.map_none]

end

/-! ## Removals in turn, each by the binding itself or by another -/

/-- Contributions removed one after another for binding b, each given by its circuit and its origin (R10, R74). -/
def removeAll (s : State) (b : Nat) (removals : List (Nat × Origin)) : State :=
  removals.foldl (fun s e => s.remove (e.2 != .binding b) e.2 e.1) s

theorem removeAll_append (s : State) (b : Nat) (xs ys : List (Nat × Origin)) :
    s.removeAll b (xs ++ ys) = (s.removeAll b xs).removeAll b ys := List.foldl_append

theorem removeAll_onlyClaims (s : State) (b : Nat) (removals : List (Nat × Origin)) : s.OnlyClaims (s.removeAll b removals) :=
  (OnlyClaims.refl s).foldl removals fun _ e h => h.remove _ e.2 e.1

section
variable {s : State} {b : Nat} {removals : List (Nat × Origin)}

theorem removeAll_claimsDropped (sound : s.ListsSound) :
    s.ClaimsDropped (s.removeAll b removals) fun c k => (c, k.origin) ∈ removals := by
  induction removals generalizing s with
  | nil => exact .refl (fun _ _ _ _ _ => List.not_mem_nil) rfl
  | cons e removals ih =>
    refine ((remove_claimsDropped sound _ e.2 e.1).trans (ih (sound.remove _ e.2 e.1))).congr fun c _ _ k _ => ?_
    rw [List.mem_cons, Prod.ext_iff]

theorem removeAll_lightLost (order : s.TablesInOrder) : s.LightLost (s.removeAll b removals) :=
  (LightLost.refl s).foldl order removals fun _ _ hu => remove_lightLost hu

/-- The contributions still to be removed are still there after another one's removal. -/
theorem heldOn_after_remove (sound : s.ListsSound) {e : Nat × Origin} (byOther : Bool) (fresh : e ∉ removals)
    (held : ∀ x ∈ removals, s.heldOn x.2 x.1 = true) :
    ∀ x ∈ removals, (s.remove byOther e.2 e.1).heldOn x.2 x.1 = true := fun x hx =>
  (remove_claimsDropped sound byOther e.2 e.1).heldOn_iff (goes := fun c o => c = e.1 ∧ o = e.2) |>.2
    ⟨held x hx, fun same => fresh (Prod.ext same.1 same.2 ▸ hx)⟩

/-- A binding none of whose contributions another party removed is as it was (R10). -/
theorem removeAll_keeps_binding {i : Nat} (h : i = b ∨ .binding i ∉ removals.map Prod.snd) :
    Table.at? (s.removeAll b removals).bindings i = Table.at? s.bindings i := by
  induction removals generalizing s with
  | nil => rfl
  | cons e removals ih =>
    rw [List.map_cons, List.mem_cons, not_or] at h
    refine (ih (h.imp_right And.right)).trans (remove_keeps_binding fun party mine => ?_)
    exact h.elim (fun own => by simp [mine, own] at party) fun other => other.1 mine.symm

/-- Another binding whose contributions were removed has lost its captured mark (R10, R111). -/
theorem removeAll_clears_binding (sound : s.ListsSound) (distinct : removals.Nodup)
    (held : ∀ x ∈ removals, s.heldOn x.2 x.1 = true) {i : Nat} (other : i ≠ b) (mem : .binding i ∈ removals.map Prod.snd) :
    Table.at? (s.removeAll b removals).bindings i =
      (Table.at? s.bindings i).map fun w => { w with captured := false } := by
  induction removals generalizing s with
  | nil => cases mem
  | cons e removals ih =>
    obtain ⟨fresh, distinct⟩ := List.nodup_cons.1 distinct
    obtain ⟨here, later⟩ := List.forall_mem_cons.1 held
    have rest := ih (sound.remove (e.2 != .binding b) e.2 e.1) distinct (heldOn_after_remove sound _ fresh later)
    by_cases mine : e.2 = .binding i
    · have party : (e.2 != .binding b) = true := by simpa [mine] using other
      have first := remove_clears_binding here party mine
      by_cases more : .binding i ∈ removals.map Prod.snd
      · refine (rest more).trans ?_
        rw [first, Option.map_map]
        rfl
      · exact (removeAll_keeps_binding (.inr more)).trans first
    · have first := remove_keeps_binding (s := s) (c := e.1) fun (_ : (e.2 != .binding b) = true) => mine
      exact (rest ((List.mem_cons.1 mem).resolve_left (Ne.symm mine))).trans (by rw [first])

/-- A scene none of whose contributions were removed is as it was (R11). -/
theorem removeAll_keeps_scene {n : Nat} (h : .scene n ∉ removals.map Prod.snd) :
    Table.at? (s.removeAll b removals).scenes n = Table.at? s.scenes n := by
  induction removals generalizing s with
  | nil => rfl
  | cons e removals ih =>
    rw [List.map_cons, List.mem_cons, not_or] at h
    exact (ih h.2).trans (remove_keeps_scene (Ne.symm h.1))

theorem removeAll_scene_of_none {n : Nat} (absent : Table.at? s.scenes n = none) :
    Table.at? (s.removeAll b removals).scenes n = none := by
  induction removals generalizing s with
  | nil => exact absent
  | cons e removals ih => exact ih (remove_scene_of_none absent)

/-- A scene that lost a contribution is as it was while it holds another, and has ended otherwise (R11, R91). -/
theorem removeAll_scene (order : s.TablesInOrder) (held : ∀ x ∈ removals, s.heldOn x.2 x.1 = true) {n : Nat}
    (mem : .scene n ∈ removals.map Prod.snd) : Table.at? (s.removeAll b removals).scenes n = (Table.at? s.scenes n).map fun w =>
      if (s.removeAll b removals).holds (.scene n) = 0 then w.ended else w := by
  have lost := removeAll_lightLost (b := b) (removals := removals) order
  cases hy : Table.at? s.scenes n with
  | none => rw [removeAll_scene_of_none hy, Option.map_none]
  | some y =>
    obtain ⟨z, hz, same, ends⟩ := lost.scenes n y hy
    obtain ⟨e, he, origin⟩ := List.mem_map.1 mem
    have live : 0 < s.holds (.scene n) := Nat.pos_of_ne_zero fun zero => by
      have absent := (holds_eq_zero order.circuits).1 zero e.1
      rw [← origin, held e he] at absent
      cases absent
    rw [hz, Option.map_some]
    split
    · rw [ends live ‹_›]
    · rw [same.resolve_right fun h => absurd h.2 ‹_›]

end

/-! ## The release of a tier -/

/-- The origins of the contributions of a tier on a circuit, oldest first (R74). -/
def tierOrigins (s : State) (tier c : Nat) : List Origin :=
  ((Table.at? s.circuits c).map fun x => (x.claims.filter fun k => k.tier == tier).map (·.origin)).getD []

/-- What the release of a tier removes from the circuits of a list (R74). -/
def tierRemovals (s : State) (tier : Nat) (ids : List Nat) : List (Nat × Origin) :=
  ids.flatMap fun c => (s.tierOrigins tier c).map fun o => (c, o)

theorem releaseTier_eq (s : State) (b tier c : Nat) :
    s.releaseTier b tier c = s.removeAll b ((s.tierOrigins tier c).map fun o => (c, o)) := by
  rw [removeAll, List.foldl_map]
  rfl

section
variable {s : State} {tier : Nat} {ids : List Nat}

theorem mem_tierOrigins {c : Nat} {o : Origin} : o ∈ s.tierOrigins tier c ↔
    ∃ y, Table.at? s.circuits c = some y ∧ ∃ k ∈ y.claims, k.tier = tier ∧ k.origin = o := by
  unfold tierOrigins
  cases Table.at? s.circuits c with
  | none => simp
  | some y => simp [and_assoc]

theorem mem_tierRemovals {e : Nat × Origin} : e ∈ s.tierRemovals tier ids ↔
    e.1 ∈ ids ∧ ∃ y, Table.at? s.circuits e.1 = some y ∧ ∃ k ∈ y.claims, k.tier = tier ∧ k.origin = e.2 := by
  obtain ⟨c, o⟩ := e
  rw [tierRemovals, List.mem_flatMap, ← mem_tierOrigins]
  constructor
  · rintro ⟨i, hi, mem⟩
    obtain ⟨o', mem, same⟩ := List.mem_map.1 mem
    cases same
    exact ⟨hi, mem⟩
  · exact fun ⟨hc, mem⟩ => ⟨c, hc, List.mem_map_of_mem mem⟩

theorem tierRemovals_held : ∀ e ∈ s.tierRemovals tier ids, s.heldOn e.2 e.1 = true := by
  intro e he
  obtain ⟨_, y, hy, k, hk, _, own⟩ := mem_tierRemovals.1 he
  exact heldOn_iff.2 ⟨y, hy, k, hk, own⟩

theorem tierRemovals_nodup (sound : s.ListsSound) (distinct : ids.Nodup) : (s.tierRemovals tier ids).Nodup := by
  refine List.nodup_flatMap.2 ⟨fun c _ => ?_, distinct.imp fun {c i} apart => ?_⟩
  · refine List.Nodup.map (fun _ _ same => (Prod.ext_iff.1 same).2) ?_
    unfold tierOrigins
    cases hy : Table.at? s.circuits c with
    | none => exact List.nodup_nil
    | some y => exact (sound.at? hy).2.sublist (List.filter_sublist.map _)
  · rintro ⟨j, o⟩ first second
    obtain ⟨_, _, here⟩ := List.mem_map.1 first
    obtain ⟨_, _, there⟩ := List.mem_map.1 second
    cases here
    cases there
    exact apart rfl

/-- Removals on other circuits leave a circuit as it is. -/
theorem removeAll_at?_of_not_mem {b : Nat} {removals : List (Nat × Origin)} {i : Nat} (h : ∀ e ∈ removals, e.1 ≠ i) :
    Table.at? (s.removeAll b removals).circuits i = Table.at? s.circuits i := by
  induction removals generalizing s with
  | nil => rfl
  | cons e removals ih =>
    obtain ⟨here, later⟩ := List.forall_mem_cons.1 h
    exact (ih later).trans (s.remove_at?_ne _ e.2 (Ne.symm here))

/-- A tier released on one circuit after another: what is removed can be told at the start (R74). -/
theorem foldl_releaseTier (b : Nat) (distinct : ids.Nodup) :
    ids.foldl (fun s c => s.releaseTier b tier c) s = s.removeAll b (s.tierRemovals tier ids) := by
  induction ids generalizing s with
  | nil => rfl
  | cons c ids ih =>
    obtain ⟨fresh, distinct⟩ := List.nodup_cons.1 distinct
    have later : (s.releaseTier b tier c).tierRemovals tier ids = s.tierRemovals tier ids := by
      refine List.flatMap_congr fun i hi => ?_
      have same : Table.at? (s.releaseTier b tier c).circuits i = Table.at? s.circuits i := by
        rw [releaseTier_eq]
        refine removeAll_at?_of_not_mem fun e he here => fresh ?_
        obtain ⟨_, _, rfl⟩ := List.mem_map.1 he
        exact (show c = i from here) ▸ hi
      rw [tierOrigins, same, tierOrigins]
    rw [List.foldl_cons, ih distinct, later, releaseTier_eq, ← removeAll_append]
    rfl

end

end State

end Sys2Proof.Machine
end

section
/-! The firings that place and release (O53). -/

namespace Sys2Proof.Machine

namespace State

/-! ## What each action does -/

section
variable {s : State} {b : Nat} {x : Binding} {source : FiringSource} {p : Option Nat} {q : Nat}

theorem perform_level {area : Area} {level tier fade : Nat} {momentary : Bool}
    (h : x.record.action = .level area level tier fade momentary) : s.perform b x source p q =
      s.firePlacing b area (bindingClaim b tier level fade fade (source.heldBy momentary)) := by simp only [perform, h]

theorem perform_toggle_dark {area : Area} {level tier fade : Nat} (h : x.record.action = .toggle area level tier fade)
    (dark : s.holds (.binding b) = 0) :
    s.perform b x source p q = s.firePlacing b area (bindingClaim b tier level fade fade none) := by
  simp only [perform, h, dark, Nat.lt_irrefl, if_false]

theorem perform_toggle_lit {area : Area} {level tier fade : Nat} (h : x.record.action = .toggle area level tier fade)
    (lit : 0 < s.holds (.binding b)) : s.perform b x source p q = s.removeEverywhere (.binding b) := by
  simp only [perform, h, lit, if_true]

theorem perform_release {area : Area} {tier : Nat} (h : x.record.action = .release area tier) :
    s.perform b x source p q = (s.reached area).foldl (fun s c => s.releaseTier b tier c) s := by simp only [perform, h]

end

/-- What a placing action leaves, whether a key holds its contributions or not (R66 to R70). -/
theorem firePlacing_leaves {s : State} (order : Table.InOrder s.circuits) {b : Nat} {x : Binding}
    (hb : Table.at? s.bindings b = some x) (area : Area) {k : Contribution} (own : k.origin = .binding b) :
    s.Fired (s.firePlacing b area k) b x (s.reached area) k := by
  cases hk : k.heldBy with
  | none => exact firePlacing_fired order hb area own hk
  | some key => exact firePlacing_fired_held order hb area own hk

/-! ## TOGGLE off -/

theorem removeEach_own_frame (s : State) (b : Nat) (ids : List Nat) : s.removeEach false (.binding b) ids =
    s.withCircuits (s.removeEach false (.binding b) ids).circuits := by
  induction ids generalizing s with
  | nil => rfl
  | cons c ids ih => rw [removeEach_cons, ih, s.remove_own_frame]; rfl

/-- A binding's contributions removed from every circuit that holds one: each circuit is as the removal alone leaves it
(R73). -/
theorem removeEverywhere_at?_eq {s : State} (sound : s.ListsSound) (o : Origin) (c : Nat) :
    Table.at? (s.removeEverywhere o).circuits c = Table.at? (s.remove false o c).circuits c := by
  refine (removeEach_at?_eq sound false o (s.holders o) c).trans ?_
  by_cases held : c ∈ s.holders o
  · rw [if_pos held]
  · have absent : s.heldOn o c = false := Bool.eq_false_iff.2 fun h => held (mem_holders_of_heldOn h)
    rw [if_neg held, remove_of_not_heldOn absent]

/-! ## RELEASE -/

/-- The owners that lose a contribution to the release of a tier (R74). -/
theorem mem_tierRemovals_origins {s : State} {tier : Nat} {ids : List Nat} {o : Origin} :
    o ∈ (s.tierRemovals tier ids).map Prod.snd ↔ ∃ c ∈ ids, ∃ y, Table.at? s.circuits c = some y ∧
      ∃ k ∈ y.claims, k.tier = tier ∧ k.origin = o := by
  rw [List.mem_map]
  constructor
  · rintro ⟨⟨c, o⟩, mem, rfl⟩
    exact ⟨c, mem_tierRemovals.1 mem⟩
  · exact fun ⟨c, mem⟩ => ⟨(c, o), mem_tierRemovals.2 mem, rfl⟩

/-- On a circuit reached the contributions of the tier are removed and no others (R74). -/
theorem tierReleased {s : State} (sound : s.ListsSound) (tier b : Nat) {ids : List Nat} {c : Nat} (reached : c ∈ ids) :
    (Table.at? s.circuits c = none → Table.at? (s.removeAll b (s.tierRemovals tier ids)).circuits c = none) ∧
      ∀ y, Table.at? s.circuits c = some y → ∃ z,
        Table.at? (s.removeAll b (s.tierRemovals tier ids)).circuits c = some z ∧ y.Dropped z fun k => k.tier = tier := by
  obtain ⟨absent, present⟩ := removeAll_claimsDropped (b := b) (removals := s.tierRemovals tier ids) sound c
  refine ⟨absent, fun y hy => ?_⟩
  obtain ⟨z, hz, dropped⟩ := present y hy
  refine ⟨z, hz, dropped.congr fun k hk => mem_tierRemovals.trans ?_⟩
  constructor
  · rintro ⟨_, y', hy', k', hk', same, own⟩
    obtain rfl : y = y' := Option.some_inj.1 (hy.symm.trans hy')
    rwa [(sound.at? hy).eq_of_origin hk hk' own.symm]
  · exact fun same => ⟨reached, y, hy, k, hk, same, rfl⟩

end State

/-- Settles O53: LEVEL and TOGGLE place by one run of placements, TOGGLE off and RELEASE are runs of removals. -/
theorem firingsThatPlaceAndRelease : Obligations.FiringsThatPlaceAndRelease := by
  unfold Obligations.FiringsThatPlaceAndRelease
  intro s b x source p q idle sound tables hb t
  have order := tables.circuits
  have acts : t = s.perform b x source p (q.getD 0) := State.fire_eq_perform idle b x source p q
  refine ⟨fun area level tier fade momentary ha => ?_, fun area level tier fade ha => ⟨fun dark => ?_, fun lit => ?_⟩,
    fun area tier ha => ?_⟩
  · rw [acts, State.perform_level ha]
    exact State.firePlacing_leaves order hb area rfl
  · rw [acts, State.perform_toggle_dark ha dark]
    exact State.firePlacing_leaves order hb area rfl
  · rw [acts, State.perform_toggle_lit ha lit]
    exact ⟨s.removeEach_own_frame b _, State.removeEverywhere_at?_eq sound _⟩
  · intro hit
    have distinct := State.reached_nodup order area
    have removed : t = s.removeAll b (s.tierRemovals tier (s.reached area)) := by
      rw [acts, State.perform_release ha, State.foldl_releaseTier b distinct]
    have hits (o : Origin) : o ∈ (s.tierRemovals tier (s.reached area)).map Prod.snd ↔ hit o := State.mem_tierRemovals_origins
    have nodup := State.tierRemovals_nodup (tier := tier) sound distinct
    have held := State.tierRemovals_held (s := s) (tier := tier) (ids := s.reached area)
    clear_value t
    subst removed
    refine ⟨s.removeAll_onlyClaims .., fun c hc => ?_, fun c hc y hy => ?_, fun i => ?_, fun n => ?_⟩
    · exact State.removeAll_at?_of_not_mem fun e he here => hc (here ▸ (State.mem_tierRemovals.1 he).1)
    · obtain ⟨z, hz, dropped⟩ := (State.tierReleased sound tier b hc).2 y hy
      refine ⟨z, hz, dropped.claims_eq_filter (sound.at? hy) (by simp), dropped.config, dropped.kept, dropped.resolved⟩
    · by_cases lost : i ≠ b ∧ hit (.binding i)
      · simp only [if_pos lost]
        exact State.removeAll_clears_binding sound nodup held lost.1 ((hits _).2 lost.2)
      · simp only [if_neg lost, Option.map_id']
        refine State.removeAll_keeps_binding ?_
        rw [hits]
        tauto
    · by_cases lost : hit (.scene n)
      · simp only [lost, true_and]
        exact State.removeAll_scene tables held ((hits _).2 lost)
      · simp only [lost, false_and, if_false, Option.map_id']
        exact State.removeAll_keeps_scene ((hits _).not.2 lost)

end Sys2Proof.Machine
end

section
/-! SUPPORT. What the loss of stations takes from their keys: their timers and holdings, the light those held, their repeats and
the captured marks of the bindings on them (R72, R80, R106). -/

namespace Sys2Proof.Machine

/-! ## A change made to the records of a test, and to those of another -/

theorem Table.mem_ids_iff_isSome {α : Type} {t : Table α} {i : Nat} : i ∈ Table.ids t ↔ (Table.at? t i).isSome = true := by
  induction t with
  | nil => simp [Table.ids]
  | cons e t ih =>
    rw [Table.at?_cons]
    by_cases here : e.1 = i
    · simp [Table.ids, here]
    · rw [if_neg here, ← ih]
      simp [Table.ids, Ne.symm here]

theorem Table.mapAll_mapAll {α : Type} (t : Table α) (f g : Nat → α → α) :
    Table.mapAll (Table.mapAll t f) g = Table.mapAll t fun i x => g i (f i x) := by
  simp only [Table.mapAll, List.map_map, Function.comp_def]

theorem Table.mapAll_self {α : Type} {t : Table α} {f : Nat → α → α} (h : ∀ i x, f i x = x) : Table.mapAll t f = t := by
  simp only [Table.mapAll, h, List.map_id']

theorem Table.adjust_eq_mapAll {α : Type} (t : Table α) (i : Nat) (f : α → α) :
    Table.adjust t i f = Table.mapAll t fun j x => if j = i then f x else x := by
  refine List.map_congr_left fun e _ => ?_
  dsimp only
  split <;> rfl

theorem Table.adjust_comm {α : Type} (t : Table α) (i j : Nat) {f g : α → α} (h : ∀ x, f (g x) = g (f x)) :
    Table.adjust (Table.adjust t j g) i f = Table.adjust (Table.adjust t i f) j g := by
  simp only [Table.adjust_eq_mapAll, Table.mapAll_mapAll]
  congr 1
  funext n x
  split
  · split
    · exact h x
    · rfl
  · rfl

/-- A record changed where one test holds and then where another does is changed where either does, when the change is the same
made twice. -/
theorem ite_ite_or {α : Type} (p q : Bool) {f : α → α} (twice : ∀ x, f (f x) = f x) (x : α) :
    (if q then f (if p then f x else x) else if p then f x else x) = if p || q then f x else x := by
  cases p <;> cases q <;> simp [twice]

/-! ## The key records -/

/-- What a key record keeps when its station is lost and the key is let go (R72, R106). -/
def KeyRecord.lost (r : KeyRecord) : KeyRecord := { r.atMissing with holdings := [] }

theorem KeyRecord.atMissing_holdings (r : KeyRecord) : r.atMissing.holdings = r.holdings := by
  unfold KeyRecord.atMissing
  dsimp only
  split
  · rfl
  · split <;> rfl

theorem KeyRecord.lost_eq (r : KeyRecord) : r.lost = { r with
    holdTimer := none, doubleTimer := none, stuckTimer := none, holdings := []
    state := if r.inputClass = .key ∧ r.state = .waitSecond then .up else r.state
    lastUpStamp := if r.inputClass = .key ∧ r.state = .waitSecond then none else r.lastUpStamp
    plainRelease := if r.inputClass = .key ∧ (r.state = .down ∨ r.state = .held) then true else r.plainRelease
    downStamp := if r.inputClass = .key ∧ (r.state = .down ∨ r.state = .held) then none else r.downStamp } := by
  by_cases key : r.inputClass = .key
  · cases state : r.state <;> simp [KeyRecord.lost, KeyRecord.atMissing, key, state]
  · simp [KeyRecord.lost, KeyRecord.atMissing, key]

/-- A key that is lost again loses nothing. -/
theorem KeyRecord.lost_lost (r : KeyRecord) : r.lost.lost = r.lost := by
  rw [r.lost.lost_eq, r.lost_eq]
  by_cases key : r.inputClass = .key
  · cases r.state <;> simp [key]
  · simp [key]

/-! ## The lines, the bindings and the repeats -/

/-- A station record with the key records a test holds of lost. -/
def Station.losing (lost : Nat → Bool) (st : Station) : Station :=
  { st with keys := Table.mapAll st.keys fun i r => if lost i then r.lost else r }

/-- A line unit with the key records a test holds of lost. -/
def LineUnit.losing (lost : Nat → Nat → Bool) (u : LineUnit) : LineUnit :=
  { u with stations := Table.mapAll u.stations fun a st => st.losing (lost a) }

/-- A binding with its captured mark clear. -/
def Binding.withoutCapture (x : Binding) : Binding := { x with captured := false }

/-- A binding with its captured mark clear, where a test holds of its source. -/
def Binding.uncaptured (source : StationInput → Bool) (x : Binding) : Binding :=
  if source x.record.source then x.withoutCapture else x

theorem Station.losing_losing (f g : Nat → Bool) (st : Station) :
    (st.losing f).losing g = st.losing fun i => f i || g i := by
  simp only [Station.losing, Table.mapAll_mapAll, ite_ite_or _ _ KeyRecord.lost_lost]

theorem Station.losing_none {lost : Nat → Bool} (h : ∀ i, lost i = false) (st : Station) : st.losing lost = st := by
  have same : Table.mapAll st.keys (fun i r => if lost i then r.lost else r) = st.keys :=
    Table.mapAll_self fun i r => by simp [h i]
  rw [Station.losing, same]

theorem LineUnit.losing_losing (f g : Nat → Nat → Bool) (u : LineUnit) :
    (u.losing f).losing g = u.losing fun a i => f a i || g a i := by
  simp only [LineUnit.losing, Table.mapAll_mapAll, Station.losing_losing]

theorem LineUnit.losing_none (u : LineUnit) : u.losing (fun _ _ => false) = u := by
  have same : Table.mapAll u.stations (fun _ st => st.losing fun _ => false) = u.stations :=
    Table.mapAll_self fun _ st => st.losing_none fun _ => rfl
  rw [LineUnit.losing, same]

theorem StationInput.beq_mk (l m : Line) (a b i j : Nat) :
    ((⟨l, a, i⟩ : StationInput) == ⟨m, b, j⟩) = (l == m && (a == b && i == j)) := by
  rw [Bool.eq_iff_iff]
  simp

theorem LineUnit.onKey_lost (u : LineUnit) (a i : Nat) :
    { u with stations := Table.adjust u.stations a fun st => { st with keys := Table.adjust st.keys i KeyRecord.lost } } =
      u.losing fun x y => x == a && y == i := by
  simp only [LineUnit.losing, Table.adjust_eq_mapAll]
  congr 2
  funext x st
  split
  · subst x
    simp [Station.losing]
  · rename_i other
    exact (st.losing_none fun y => by simp [other]).symm

theorem Binding.uncaptured_record (f : StationInput → Bool) (x : Binding) : (x.uncaptured f).record = x.record := by
  unfold Binding.uncaptured
  split <;> rfl

theorem Binding.uncaptured_uncaptured (f g : StationInput → Bool) (x : Binding) :
    (x.uncaptured f).uncaptured g = x.uncaptured fun k => f k || g k := by
  rw [Binding.uncaptured, Binding.uncaptured_record]
  exact ite_ite_or (f := Binding.withoutCapture) (f x.record.source) (g x.record.source) (fun _ => rfl) x

theorem Binding.uncaptured_none (t : Table Binding) : Table.mapAll t (fun _ x => x.uncaptured fun _ => false) = t :=
  Table.mapAll_self fun _ _ => rfl

namespace State

/-- The state with the keys a test holds of lost, the captured marks of the bindings on some sources clear, and circuits that
are given besides (R72, R80, R106). -/
def losing (s : State) (lost source : StationInput → Bool) (circuits : Table Circuit) : State := { s with
  circuits := circuits
  bindings := Table.mapAll s.bindings fun _ x => x.uncaptured source
  repeats := s.repeats.filter fun p => !(lost p.key && (s.key? p.key).isSome)
  lineA := s.lineA.losing fun a i => lost ⟨.a, a, i⟩
  lineB := s.lineB.losing fun a i => lost ⟨.b, a, i⟩ }

section
variable (s : State) (lost source : StationInput → Bool) (x : Table Circuit)

theorem losing_unit (l : Line) : (s.losing lost source x).unit l = (s.unit l).losing fun a i => lost ⟨l, a, i⟩ := by
  cases l <;> rfl

theorem losing_station? (l : Line) (a : Nat) :
    (s.losing lost source x).station? l a = (s.station? l a).map fun st => st.losing fun i => lost ⟨l, a, i⟩ := by
  rw [station?, losing_unit, LineUnit.losing, Table.at?_mapAll, station?]

theorem losing_key? (k : StationInput) :
    (s.losing lost source x).key? k = (s.key? k).map fun r => if lost k then r.lost else r := by
  rw [key?, losing_station?, key?]
  cases s.station? k.line k.address with
  | none => rfl
  | some st => exact Table.at?_mapAll st.keys (fun i r => if lost ⟨k.line, k.address, i⟩ then r.lost else r) k.input

theorem losing_losing (lost' source' : StationInput → Bool) (y : Table Circuit) :
    (s.losing lost source x).losing lost' source' y =
      s.losing (fun k => lost k || lost' k) (fun k => source k || source' k) y := by
  have marks : Table.mapAll (s.losing lost source x).bindings (fun _ b => b.uncaptured source') =
      Table.mapAll s.bindings fun _ b => b.uncaptured fun k => source k || source' k := by
    simp only [losing, Table.mapAll_mapAll, Binding.uncaptured_uncaptured]
  have repeats : (s.losing lost source x).repeats.filter (fun p =>
        !(lost' p.key && ((s.losing lost source x).key? p.key).isSome)) =
      s.repeats.filter fun p => !((lost p.key || lost' p.key) && (s.key? p.key).isSome) := by
    simp only [losing_key?, Option.isSome_map]
    simp only [losing, List.filter_filter]
    refine List.filter_congr fun p _ => ?_
    cases lost p.key <;> cases lost' p.key <;> cases (s.key? p.key).isSome <;> rfl
  have lineA := s.lineA.losing_losing (fun a i => lost ⟨.a, a, i⟩) fun a i => lost' ⟨.a, a, i⟩
  have lineB := s.lineB.losing_losing (fun a i => lost ⟨.b, a, i⟩) fun a i => lost' ⟨.b, a, i⟩
  rw [losing, marks, repeats]
  simp only [losing, lineA, lineB]

end

/-! ## Keys that are taken -/

/-- Whether a contribution is one the holdings of a lost key name (R72). -/
def HoldingLost (s : State) (lost : StationInput → Bool) (c : Nat) (k : Contribution) : Prop :=
  ∃ key r b, lost key = true ∧ s.key? key = some r ∧ k.heldBy = some key ∧ k.origin = .binding b ∧ (b, c) ∈ r.holdings

/-- Keys have been lost with what they held, and the captured marks of the bindings on some sources (R72, R80, R106). -/
structure KeysTaken (s t : State) (lost source : StationInput → Bool) : Prop where
  state : t = s.losing lost source t.circuits
  claims : s.ClaimsDropped t (s.HoldingLost lost)

namespace KeysTaken

variable {s t u : State} {lost source lost' source' : StationInput → Bool}

theorem refl (s : State) : s.KeysTaken s (fun _ => false) fun _ => false where
  state := by
    simp only [losing, Binding.uncaptured_none, LineUnit.losing_none, Bool.false_and, Bool.not_false, List.filter_true]
  claims := .refl (fun _ _ _ _ _ ⟨_, _, _, gone, _⟩ => nomatch gone) rfl

theorem station?_eq (h : s.KeysTaken t lost source) (l : Line) (a : Nat) :
    t.station? l a = (s.station? l a).map fun st => st.losing fun i => lost ⟨l, a, i⟩ := by
  rw [h.state, losing_station?]

theorem key?_eq (h : s.KeysTaken t lost source) (k : StationInput) :
    t.key? k = (s.key? k).map fun r => if lost k then r.lost else r := by rw [h.state, losing_key?]

theorem isSome_key? (h : s.KeysTaken t lost source) (k : StationInput) : (t.key? k).isSome = (s.key? k).isSome := by
  rw [h.key?_eq, Option.isSome_map]

/-- A holding lost at the second loss was there at the first. -/
theorem holdingLost_or_iff (h : s.KeysTaken t lost source) {c : Nat} {k : Contribution} :
    s.HoldingLost lost c k ∨ t.HoldingLost lost' c k ↔ s.HoldingLost (fun key => lost key || lost' key) c k := by
  constructor
  · rintro (⟨key, r, b, gone, found, rest⟩ | ⟨key, r, b, gone, found, holds, own, mem⟩)
    · exact ⟨key, r, b, by simp [gone], found, rest⟩
    · rw [h.key?_eq, Option.map_eq_some_iff] at found
      obtain ⟨r, found, rfl⟩ := found
      cases before : lost key with
      | true => simp [before, KeyRecord.lost] at mem
      | false => exact ⟨key, r, b, by simp [gone], found, holds, own, by simpa [before] using mem⟩
  · rintro ⟨key, r, b, gone, found, rest⟩
    cases before : lost key with
    | true => exact .inl ⟨key, r, b, before, found, rest⟩
    | false =>
      refine .inr ⟨key, r, b, by simpa [before] using gone, ?_, rest⟩
      simp [h.key?_eq, found, before]

theorem trans (h : s.KeysTaken t lost source) (k : t.KeysTaken u lost' source') :
    s.KeysTaken u (fun x => lost x || lost' x) fun x => source x || source' x where
  state := calc
    u = t.losing lost' source' u.circuits := k.state
    _ = (s.losing lost source t.circuits).losing lost' source' u.circuits :=
        congrArg (fun t : State => t.losing lost' source' u.circuits) h.state
    _ = _ := s.losing_losing ..
  claims := (h.claims.trans k.claims).congr fun _ _ _ _ _ => h.holdingLost_or_iff

/-- The tests may be written in other ways. -/
theorem of_eq (h : s.KeysTaken t lost source) (keys : ∀ k, lost k = lost' k) (sources : ∀ k, source k = source' k) :
    s.KeysTaken t lost' source' := funext keys ▸ funext sources ▸ h

end KeysTaken

/-! ## One key, the keys of a station, the stations of a line -/

/-- The loss of a key that is found is a change of its record alone. -/
theorem onKey_lost (s : State) (key : StationInput) :
    s.onKey key KeyRecord.lost = { s with
      lineA := s.lineA.losing fun a i => ⟨.a, a, i⟩ == key, lineB := s.lineB.losing fun a i => ⟨.b, a, i⟩ == key } := by
  obtain ⟨l, a, i⟩ := key
  cases l with
  | a =>
    simp only [StationInput.beq_mk, beq_self_eq_true, Bool.true_and, show (Line.b == Line.a) = false from rfl, Bool.false_and,
      LineUnit.losing_none, ← LineUnit.onKey_lost]
    rfl
  | b =>
    simp only [StationInput.beq_mk, beq_self_eq_true, Bool.true_and, show (Line.a == Line.b) = false from rfl, Bool.false_and,
      LineUnit.losing_none, ← LineUnit.onKey_lost]
    rfl

/-- A key taken at its station's loss: its record is as it is then, and it is let go (R72, R80, R106). -/
theorem keyTaken {s : State} (sound : s.ListsSound) {key : StationInput} {r : KeyRecord} (found : s.key? key = some r) :
    s.KeysTaken ((s.onKey key .atMissing).letGo key) (fun k => k == key) fun _ => false := by
  have found' : (s.onKey key .atMissing).key? key = some r.atMissing := by rw [key?_onKey_self, found, Option.map_some]
  have same : ((s.onKey key .atMissing).dropPairs key r.holdings).circuits = (s.dropPairs key r.holdings).circuits := by
    rw [onKey, onStation, dropPairs_onUnit, onUnit_circuits]
  have record : (s.onKey key .atMissing).emptied key = s.onKey key KeyRecord.lost := s.onKey_onKey ..
  have repeats : (s.repeats.filter fun p => p.key != key) =
      s.repeats.filter fun p => !(p.key == key && (s.key? p.key).isSome) := by
    refine List.filter_congr fun p _ => ?_
    by_cases mine : p.key = key
    · simp [mine, found]
    · simp [bne, mine]
  have left := letGo_eq found'
  rw [record, KeyRecord.atMissing_holdings, same, onKey_lost, onKey_repeats, repeats] at left
  generalize (s.onKey key .atMissing).letGo key = t at left
  subst left
  constructor
  · rw [losing, Binding.uncaptured_none]
    rfl
  · refine (dropPairs_claimsDropped sound key r.holdings).of_circuits rfl |>.congr fun c _ _ k _ => ?_
    constructor
    · exact fun ⟨holds, b, own, mem⟩ => ⟨key, r, b, by simp, found, holds, own, mem⟩
    · rintro ⟨key', r', b, gone, there, holds, own, mem⟩
      obtain rfl : key' = key := by simpa using gone
      obtain rfl : r = r' := Option.some_inj.1 (found.symm.trans there)
      exact ⟨holds, b, own, mem⟩

/-- The keys of a list are taken one after another at their station's loss (R106). -/
def takeKeys (s : State) (keys : List StationInput) : State := keys.foldl (fun s k => (s.onKey k .atMissing).letGo k) s

theorem keysTaken_takeKeys {s : State} (sound : s.ListsSound) {keys : List StationInput}
    (present : ∀ k ∈ keys, (s.key? k).isSome = true) :
    s.KeysTaken (s.takeKeys keys) (fun k => keys.contains k) fun _ => false := by
  induction keys generalizing s with
  | nil => exact .refl s
  | cons key keys ih =>
    obtain ⟨here, later⟩ := List.forall_mem_cons.1 present
    obtain ⟨r, found⟩ := Option.isSome_iff_exists.1 here
    have first := keyTaken sound found
    have lists : ((s.onKey key .atMissing).letGo key).ListsSound :=
      (((Moves.refl s).onKey key _).letGo key).keeps Move.listsSound sound
    have rest := ih lists fun k hk => (first.isSome_key? k).trans (later k hk)
    exact (first.trans rest).of_eq (fun k => (List.contains_cons ..).symm) fun _ => rfl

theorem keysTaken_clearCaptures (s : State) (l : Line) (a : Nat) :
    s.KeysTaken (s.clearCaptures l a) (fun _ => false) fun k => k.line == l && k.address == a where
  state := by
    have marks : Table.mapAll s.bindings (fun _ x => x.uncaptured fun k => k.line == l && k.address == a) =
        (s.clearCaptures l a).bindings := by
      simp [clearCaptures, Binding.uncaptured, Binding.withoutCapture]
    rw [losing, marks]
    simp only [LineUnit.losing_none, Bool.false_and, Bool.not_false, List.filter_true]
    rfl
  claims := .refl (fun _ _ _ _ _ ⟨_, _, _, gone, _⟩ => nomatch gone) rfl

/-- The keys of a station are those on it with a record (R97). -/
theorem mem_keysOf {s : State} {l : Line} {a : Nat} {k : StationInput} :
    k ∈ s.keysOf l a ↔ (k.line = l ∧ k.address = a) ∧ (s.key? k).isSome = true := by
  unfold keysOf
  cases station : s.station? l a with
  | none =>
    refine ⟨fun mem => (nomatch mem), ?_⟩
    rintro ⟨⟨rfl, rfl⟩, found⟩
    rw [key?, station] at found
    cases found
  | some st =>
    constructor
    · intro mem
      obtain ⟨i, hi, rfl⟩ := List.mem_map.1 mem
      refine ⟨⟨rfl, rfl⟩, ?_⟩
      rw [key?, station]
      exact Table.mem_ids_iff_isSome.1 hi
    · rintro ⟨⟨rfl, rfl⟩, found⟩
      rw [key?, station] at found
      exact List.mem_map.2 ⟨k.input, Table.mem_ids_iff_isSome.2 found, rfl⟩

/-- A station's keys are taken at its loss, and the captured marks of the bindings on it, where it has key records (R106). -/
theorem keysTaken_gestureMissing {s : State} (sound : s.ListsSound) (l : Line) (a : Nat) :
    s.KeysTaken (s.gestureMissing l a) (fun k => (s.keysOf l a).contains k)
      fun k => k.line == l && k.address == a && !(s.keysOf l a).isEmpty := by
  have taken := keysTaken_takeKeys sound (keys := s.keysOf l a) fun _ hk => (mem_keysOf.1 hk).2
  unfold gestureMissing
  dsimp only
  split
  · rename_i none
    refine (KeysTaken.refl s).of_eq (fun k => ?_) fun k => ?_
    · rw [List.isEmpty_iff.1 none]
      rfl
    · rw [none, Bool.not_true, Bool.and_false]
  · rename_i some
    refine (taken.trans (keysTaken_clearCaptures _ l a)).of_eq (fun k => ?_) fun k => ?_
    · exact Bool.or_false _
    · simp [some]

/-- A loss of keys leaves each station the same inputs. -/
theorem KeysTaken.keysOf_eq {s t : State} {lost source : StationInput → Bool} (h : s.KeysTaken t lost source) (l : Line)
    (a : Nat) : t.keysOf l a = s.keysOf l a := by
  rw [keysOf, h.station?_eq, keysOf]
  cases s.station? l a with
  | none => rfl
  | some st => simp [Station.losing]

/-- The stations of a line are lost one after another (R128). -/
theorem keysTaken_foldl {s : State} (sound : s.ListsSound) (l : Line) (as : List Nat) :
    s.KeysTaken (as.foldl (fun s a => s.gestureMissing l a) s) (fun k => as.any fun a => (s.keysOf l a).contains k)
      fun k => as.any fun a => k.line == l && k.address == a && !(s.keysOf l a).isEmpty := by
  induction as generalizing s with
  | nil => exact .refl s
  | cons a as ih =>
    have first := keysTaken_gestureMissing sound l a
    have lists : (s.gestureMissing l a).ListsSound := ((Moves.refl s).gestureMissing l a).keeps Move.listsSound sound
    have rest := ih lists
    simp only [first.keysOf_eq] at rest
    exact first.trans rest

end State

end Sys2Proof.Machine
end

section
/-! SUPPORT. The loss of stations, the entry of MISSING and the loss of a line (R106, R122, R128, R133). -/

namespace Sys2Proof.Machine

namespace State

/-! ## The settling of group queries -/

/-- Nothing differs but the groups, the notices and the groups that wait on the lines (R133). -/
structure OnlyDeliveries (s t : State) : Prop where
  state : t = { s with groups := t.groups, notices := t.notices, lineA := t.lineA, lineB := t.lineB }
  unit (l : Line) : t.unit l = { s.unit l with waiting := (t.unit l).waiting }

namespace OnlyDeliveries

variable {s t u : State}

theorem refl (s : State) : s.OnlyDeliveries s := ⟨rfl, fun _ => rfl⟩

theorem trans (h : s.OnlyDeliveries t) (k : t.OnlyDeliveries u) : s.OnlyDeliveries u where
  state := by
    rw [k.state, h.state]
  unit l := by rw [k.unit, h.unit]

theorem onGroup (h : s.OnlyDeliveries t) (g : Nat) (f : Group → Group) : s.OnlyDeliveries (t.onGroup g f) :=
  h.trans ⟨rfl, fun l => by cases l <;> rfl⟩

theorem raise (h : s.OnlyDeliveries t) (n : Notice) : s.OnlyDeliveries (t.raise n) :=
  h.trans ⟨rfl, fun l => by cases l <;> rfl⟩

theorem pruneWaiting (h : s.OnlyDeliveries t) (group : Nat) (g : Group) (l : Line) :
    s.OnlyDeliveries (t.pruneWaiting group g l) := by
  unfold State.pruneWaiting
  split
  · exact h
  · refine h.trans ⟨by cases l <;> rfl, fun m => ?_⟩
    cases l <;> cases m <;> rfl

theorem onDelivery (h : s.OnlyDeliveries t) (group : Nat) (f : DeliveryEntry → DeliveryEntry) :
    s.OnlyDeliveries (t.onDelivery group f) := by
  unfold State.onDelivery
  split
  · exact h
  · refine OnlyDeliveries.pruneWaiting (OnlyDeliveries.pruneWaiting ?_ ..) ..
    split
    · exact (h.onGroup ..).raise _
    · exact h.onGroup ..

theorem offlineWhere (h : s.OnlyDeliveries t) (test : Member → Bool) : s.OnlyDeliveries (t.offlineWhere test) := by
  unfold State.offlineWhere
  generalize Table.ids t.groups = groups
  induction groups generalizing t with
  | nil => exact h
  | cons g groups ih => exact ih (h.onDelivery ..)

theorem station?_eq (h : s.OnlyDeliveries t) (l : Line) (a : Nat) : t.station? l a = s.station? l a := by
  rw [station?, h.unit, station?]

end OnlyDeliveries

/-! ## The statement of a loss -/

section
variable {s t u : State} {lost source : StationInput → Bool} {l : Line} {gone : Nat → Prop}

/-- Nothing differs but what the losses and the settling of queries may touch. -/
theorem KeysTaken.frame (h : s.KeysTaken t lost source) (settled : t.OnlyDeliveries u) : u = { s with
    circuits := u.circuits, bindings := u.bindings, repeats := u.repeats, lineA := u.lineA, lineB := u.lineB,
    groups := u.groups, notices := u.notices } := by
  have state := settled.state
  rw [h.state] at state
  rw [state]
  rfl

theorem KeysTaken.repeats_eq (h : s.KeysTaken t lost source) :
    t.repeats = s.repeats.filter fun p => !(lost p.key && (s.key? p.key).isSome) := by
  rw [h.state]
  rfl

theorem KeysTaken.bindings_at? (h : s.KeysTaken t lost source) (b : Nat) :
    Table.at? t.bindings b = (Table.at? s.bindings b).map fun x => x.uncaptured source := by
  rw [h.state]
  exact Table.at?_mapAll s.bindings (fun _ x => x.uncaptured source) b

theorem KeysTaken.station_kept (h : s.KeysTaken t lost source) {a : Nat} (none : ∀ i, lost ⟨l, a, i⟩ = false) :
    t.station? l a = s.station? l a := by
  rw [h.station?_eq]
  simp only [Station.losing_none none, Option.map_id']

theorem KeysTaken.station_lost (h : s.KeysTaken t lost source) {a : Nat} {st : Station} (found : s.station? l a = some st)
    (taken : ∀ i, (s.key? ⟨l, a, i⟩).isSome = true → lost ⟨l, a, i⟩ = true) :
    ∃ keys, t.station? l a = some { st with keys := keys } ∧
      ∀ i, Table.at? keys i = (Table.at? st.keys i).map KeyRecord.lost := by
  refine ⟨_, by rw [h.station?_eq, found, Option.map_some]; rfl, fun i => ?_⟩
  rw [Table.at?_mapAll]
  cases there : Table.at? st.keys i with
  | none => rfl
  | some r =>
    have present : (s.key? ⟨l, a, i⟩).isSome = true := by rw [key?, found, Option.bind_some, there, Option.isSome_some]
    rw [Option.map_some, Option.map_some, if_pos (taken i present)]

theorem KeysTaken.keysLost (h : s.KeysTaken t lost source)
    (keys : ∀ k, lost k = true ↔ (k.line = l ∧ gone k.address) ∧ (s.key? k).isSome = true)
    (sources : ∀ k, source k = true ↔ k.line = l ∧ gone k.address ∧ ∃ i, (s.key? ⟨l, k.address, i⟩).isSome = true) :
    s.KeysLost t (fun k => k.line = l ∧ gone k.address)
      fun k => k.line = l ∧ gone k.address ∧ ∃ i, (s.key? ⟨l, k.address, i⟩).isSome = true := by
  refine ⟨⟨h.repeats_eq ▸ List.filter_sublist, fun p hp => ?_⟩, fun b absent => ?_, fun b x hx => ⟨fun hit => ?_, fun miss => ?_⟩,
    fun c => ?_⟩
  · rw [h.repeats_eq, List.mem_filter, and_iff_right hp, Bool.not_eq_true', ← Bool.not_eq_true, Bool.and_eq_true, keys,
      and_assoc, and_self]
  · rw [h.bindings_at?, absent, Option.map_none]
  · rw [h.bindings_at?, hx, Option.map_some, Binding.uncaptured, if_pos ((sources _).2 hit)]
    rfl
  · rw [h.bindings_at?, hx, Option.map_some, Binding.uncaptured, if_neg ((sources _).not.2 miss)]
  · obtain ⟨absent, present⟩ := h.claims c
    refine ⟨absent, fun y hy => ?_⟩
    obtain ⟨z, hz, dropped⟩ := present y hy
    have same (k : Contribution) : s.HoldingLost lost c k ↔ ∃ key r b, (key.line = l ∧ gone key.address) ∧
        s.key? key = some r ∧ k.heldBy = some key ∧ k.origin = .binding b ∧ (b, c) ∈ r.holdings := by
      refine exists_congr fun key => exists_congr fun r => exists_congr fun b => ?_
      rw [keys]
      refine ⟨fun ⟨⟨here, _⟩, rest⟩ => ⟨here, rest⟩, fun ⟨here, found, rest⟩ => ⟨⟨here, ?_⟩, found, rest⟩⟩
      rw [found, Option.isSome_some]
    have left := dropped.congr fun k _ => same k
    exact ⟨z, hz, left.config, left.sublist, fun k hk => (left.mem k).trans (and_iff_right hk), left.kept, left.resolved⟩

theorem KeysLost.of_onlyDeliveries {p q : StationInput → Prop} (h : s.KeysLost t p q) (settled : t.OnlyDeliveries u) :
    s.KeysLost u p q := by
  rw [settled.state]
  exact h

/-- The keys of the stations of a line for which a test holds have been taken, and queries may have been settled since. -/
theorem KeysTaken.treatedAsMissing (h : s.KeysTaken t lost source) (settled : t.OnlyDeliveries u)
    (keys : ∀ k, lost k = true ↔ (k.line = l ∧ gone k.address) ∧ (s.key? k).isSome = true)
    (sources : ∀ k, source k = true ↔ k.line = l ∧ gone k.address ∧ ∃ i, (s.key? ⟨l, k.address, i⟩).isSome = true) :
    s.TreatedAsMissing u l gone := by
  refine ⟨fun l' => ?_, fun l' a other => ?_, fun a _ absent => ?_, fun a st hit found => ?_,
    (h.keysLost keys sources).of_onlyDeliveries settled⟩
  · rw [settled.unit, h.state, losing_unit]
    rfl
  · refine (settled.station?_eq l' a).trans (h.station_kept fun i => ?_)
    rw [← Bool.not_eq_true, keys]
    rintro ⟨⟨rfl, hit⟩, _⟩
    exact other.elim (fun h => h rfl) fun h => h hit
  · rw [settled.station?_eq, h.station?_eq, absent, Option.map_none]
  · rw [settled.station?_eq, ← funext KeyRecord.lost_eq]
    exact h.station_lost found fun i present => (keys _).2 ⟨⟨rfl, hit⟩, present⟩

/-- The stations of a list of a line have been lost, all those a test holds of being in it. -/
theorem treatedAsMissing_foldl (sound : s.ListsSound) {as : List Nat} (settled :
      (as.foldl (fun s a => s.gestureMissing l a) s).OnlyDeliveries u)
    (all : ∀ a, (s.station? l a).isSome = true → (a ∈ as ↔ gone a)) : s.TreatedAsMissing u l gone := by
  have station {k : StationInput} {a : Nat} (here : k.line = l ∧ k.address = a) (found : (s.key? k).isSome = true) :
      (s.station? l a).isSome = true := by
    obtain ⟨rfl, rfl⟩ := here
    obtain ⟨r, found⟩ := Option.isSome_iff_exists.1 found
    obtain ⟨st, hst, _⟩ := Option.bind_eq_some_iff.1 found
    rw [hst, Option.isSome_some]
  have keys (k : StationInput) : (as.any fun a => (s.keysOf l a).contains k) = true ↔
      (k.line = l ∧ gone k.address) ∧ (s.key? k).isSome = true := by
    simp only [List.any_eq_true, List.contains_iff_mem, mem_keysOf]
    constructor
    · rintro ⟨a, mem, here, found⟩
      have hit := (all a (station here found)).1 mem
      exact ⟨⟨here.1, here.2 ▸ hit⟩, found⟩
    · rintro ⟨⟨line, hit⟩, found⟩
      exact ⟨k.address, (all _ (station ⟨line, rfl⟩ found)).2 hit, ⟨line, rfl⟩, found⟩
  refine (keysTaken_foldl sound l as).treatedAsMissing settled keys fun k => ?_
  have inhabited (a : Nat) : (!(s.keysOf l a).isEmpty) = true ↔ ∃ i, (s.key? ⟨l, a, i⟩).isSome = true := by
    rw [Bool.not_eq_true', List.isEmpty_eq_false_iff_exists_mem]
    constructor
    · rintro ⟨key, mem⟩
      obtain ⟨⟨rfl, rfl⟩, found⟩ := mem_keysOf.1 mem
      exact ⟨key.input, found⟩
    · exact fun ⟨i, found⟩ => ⟨⟨l, a, i⟩, mem_keysOf.2 ⟨⟨rfl, rfl⟩, found⟩⟩
  simp only [List.any_eq_true, Bool.and_eq_true, beq_iff_eq, inhabited]
  constructor
  · rintro ⟨a, mem, ⟨line, rfl⟩, i, found⟩
    exact ⟨line, (all _ (station ⟨rfl, rfl⟩ found)).1 mem, i, found⟩
  · rintro ⟨line, hit, i, found⟩
    exact ⟨k.address, (all _ (station ⟨rfl, rfl⟩ found)).2 hit, ⟨line, rfl⟩, i, found⟩

end

/-! ## The state of a station does not matter to the loss of its keys -/

/-- A station record marked MISSING (R122). -/
def markMissing (s : State) (l : Line) (a : Nat) : State := s.onStation l a fun st => { st with state := .missing }

section
variable (s : State) (l : Line) (a : Nat)

theorem markMissing_station? (m : Line) (b : Nat) : (s.markMissing l a).station? m b =
    (s.station? m b).map fun st => if m = l ∧ b = a then { st with state := .missing } else st := by
  by_cases here : m = l ∧ b = a
  · obtain ⟨rfl, rfl⟩ := here
    rw [markMissing, station?_onStation_self]
    simp
  · rw [markMissing, station?_onStation_ne _ here]
    simp [here]

theorem markMissing_key? (k : StationInput) : (s.markMissing l a).key? k = s.key? k := by
  rw [key?, markMissing_station?, key?]
  cases s.station? k.line k.address with
  | none => rfl
  | some st =>
    rw [Option.map_some]
    split <;> rfl

theorem markMissing_keysOf (m : Line) (b : Nat) : (s.markMissing l a).keysOf m b = s.keysOf m b := by
  rw [keysOf, markMissing_station?, keysOf]
  cases s.station? m b with
  | none => rfl
  | some st =>
    rw [Option.map_some]
    split <;> rfl

theorem markMissing_onKey (k : StationInput) (f : KeyRecord → KeyRecord) :
    (s.markMissing l a).onKey k f = (s.onKey k f).markMissing l a := by
  obtain ⟨m, b, i⟩ := k
  have comm (t : Table Station) := Table.adjust_comm t b a
    (f := fun st => { st with keys := Table.adjust st.keys i f }) (g := fun st => { st with state := .missing }) fun _ => rfl
  cases l with
  | a =>
    cases m with
    | a => simp only [markMissing, onKey, onStation, onUnit, setUnit, unit, comm]
    | b => rfl
  | b =>
    cases m with
    | a => rfl
    | b => simp only [markMissing, onKey, onStation, onUnit, setUnit, unit, comm]

theorem markMissing_letGo (k : StationInput) : (s.markMissing l a).letGo k = (s.letGo k).markMissing l a := by
  cases found : s.key? k with
  | none =>
    rw [letGo, letGo, dropHoldings, dropHoldings, markMissing_key?, found]
    cases l <;> rfl
  | some r =>
    have pairs : (s.markMissing l a).dropPairs k r.holdings = (s.dropPairs k r.holdings).markMissing l a :=
      s.dropPairs_onUnit l (fun u => { u with stations := Table.adjust u.stations a fun st => { st with state := .missing } })
        k r.holdings
    have empty : (s.markMissing l a).emptied k = (s.emptied k).markMissing l a := s.markMissing_onKey ..
    rw [letGo_eq ((s.markMissing_key? l a k).trans found), letGo_eq found, pairs, empty]
    cases l <;> rfl

theorem markMissing_gestureMissing (m : Line) (b : Nat) :
    (s.markMissing l a).gestureMissing m b = (s.gestureMissing m b).markMissing l a := by
  have keys (keys : List StationInput) : (s.markMissing l a).takeKeys keys = (s.takeKeys keys).markMissing l a := by
    induction keys generalizing s with
    | nil => rfl
    | cons k keys ih =>
      have next := ih ((s.onKey k .atMissing).letGo k)
      rw [← markMissing_letGo, ← markMissing_onKey] at next
      exact next
  unfold gestureMissing
  rw [markMissing_keysOf]
  dsimp only
  split
  · rfl
  · have taken := congrArg (fun u : State => u.clearCaptures m b) (keys (s.keysOf m b))
    exact taken.trans (by cases l <;> rfl)

/-- Entering MISSING is the loss of the station's keys, its new state and the settling of its queries (R106, R122, R133). -/
theorem enterMissing_onlyDeliveries : ((s.gestureMissing l a).markMissing l a).OnlyDeliveries (s.enterMissing l a) := by
  rw [← markMissing_gestureMissing]
  exact ((OnlyDeliveries.refl _).offlineWhere _).raise _

end

end State

/-- Settles O60: a key let go gives up the pairs of its holdings one by one, and a station's or a line's loss is that for each
of its keys. -/
theorem holdingsEndWithTheirKey : Obligations.HoldingsEndWithTheirKey := by
  unfold Obligations.HoldingsEndWithTheirKey
  intro s sound tables
  refine ⟨fun key r found => ?_, fun l a st found => ?_, fun l => ?_⟩
  · refine ⟨State.letGo_onlyLight found, ?_, ?_, State.letGo_repeats found, State.letGo_key_self found,
      fun other ne => State.letGo_key_other found ne, fun c => ?_⟩
    · rw [State.letGo_frame found]
    · rw [State.letGo_frame found]
    · obtain ⟨absent, present⟩ := State.letGo_claimsDropped found sound c
      refine ⟨absent, fun y hy => ?_⟩
      obtain ⟨z, hz, dropped⟩ := present y hy
      exact ⟨z, hz, dropped.config, dropped.sublist, dropped.mem, dropped.kept, dropped.resolved⟩
  · have taken := State.keysTaken_gestureMissing sound l a
    have entered := s.enterMissing_onlyDeliveries l a
    refine ⟨by rw [taken.state]; rfl, fun l' => ?_, fun none => ?_, ?_, ?_, rfl, fun l' i => ?_⟩
    · rw [taken.state, State.losing_unit]
      rfl
    · have empty : s.keysOf l a = [] := by rw [State.keysOf, found, Option.map_some, none]; rfl
      simp [State.gestureMissing, empty]
    · exact State.treatedAsMissing_foldl sound (as := [a]) (.refl _) fun i _ => List.mem_singleton
    · refine entered.state.trans ?_
      rw [taken.state]
      cases l <;> rfl
    · rw [entered.station?_eq, State.markMissing_station?]
  · have settled := State.OnlyDeliveries.refl ((Table.ids (s.unit l).stations).foldl (fun s a => s.gestureMissing l a) s)
      |>.offlineWhere fun m => m.line == l
    have taken := State.keysTaken_foldl sound l (Table.ids (s.unit l).stations)
    refine ⟨?_, State.treatedAsMissing_foldl sound settled fun a there => ?_⟩
    · exact taken.frame settled
    · exact iff_true_intro (Table.mem_ids_iff_isSome.2 there)

end Sys2Proof.Machine
end

section
/-! SUPPORT. Runs of placements: what they leave of their own origin's claims, and runs on circuits that have room (R6, R7,
R11). -/

namespace Sys2Proof.Machine

/-! ## The claims of the run's own origin -/

theorem Moves.placeEach {s t : State} (h : Moves s t) (claims : List (Nat × Contribution)) : Moves s (t.placeEach claims) :=
  h.foldl claims fun _ e hu => hu.place e.1 e.2

theorem Inserted.keeps_own {k : Contribution} {l : List Contribution} {r : List Contribution × Verdict}
    (h : Inserted k l r) (held : ∃ y ∈ l, y.origin = k.origin) : ∃ y ∈ r.1, y.origin = k.origin := by
  cases h with
  | refused => exact held
  | _ => exact ⟨k, by simp, rfl⟩

theorem State.place_keeps_own {s : State} {k : Contribution} {i : Nat} (h : s.heldOn k.origin i = true) (c : Nat) :
    (s.place c k).1.heldOn k.origin i = true := by
  obtain ⟨x, hx, held⟩ := State.heldOn_iff.1 h
  refine State.heldOn_iff.2 ⟨_, by rw [State.place_at?, hx]; rfl, ?_⟩
  split
  · rw [Circuit.placed_claims]
    exact (insertClaim_inserted ..).keeps_own held
  · exact held

theorem State.placeEach_keeps_own {s : State} {claims : List (Nat × Contribution)} {o : Origin}
    (own : ∀ e ∈ claims, e.2.origin = o) {i : Nat} (h : s.heldOn o i = true) : (s.placeEach claims).heldOn o i = true := by
  induction claims generalizing s with
  | nil => exact h
  | cons e claims ih =>
    obtain ⟨here, later⟩ := List.forall_mem_cons.1 own
    subst here
    exact ih later (State.place_keeps_own h e.1)

theorem State.mem_holders {s : State} (order : Table.InOrder s.circuits) {o : Origin} {c : Nat} :
    c ∈ s.holders o ↔ s.heldOn o c = true := by
  refine ⟨fun mem => ?_, State.mem_holders_of_heldOn⟩
  obtain ⟨x, hx, held⟩ := Table.mem_idsWhere.1 mem
  exact State.heldOn_iff.2 ⟨x, Table.at?_of_mem order hx, by simpa using held⟩

theorem State.holds_pos {s : State} (order : Table.InOrder s.circuits) {o : Origin} :
    0 < s.holds o ↔ ∃ c, s.heldOn o c = true := by
  rw [Nat.pos_iff_ne_zero, ne_eq, State.holds_eq_zero order]
  simp

/-- The count of the circuits that hold an origin, where they are the members of a list (R11). -/
theorem State.holds_eq_length {s : State} (order : Table.InOrder s.circuits) {o : Origin} {ids : List Nat}
    (distinct : ids.Nodup) (held : ∀ c, s.heldOn o c = true ↔ c ∈ ids) : s.holds o = ids.length := by
  have rise := Table.inOrder_idsWhere order fun c : Circuit => c.claims.any fun k => k.origin == o
  exact ((List.perm_ext_iff_of_nodup (rise.imp Nat.ne_of_lt) distinct).2 fun c =>
    (State.mem_holders order).trans (held c)).length_eq

theorem State.placeEach_inOrder {s : State} (order : Table.InOrder s.circuits) (claims : List (Nat × Contribution)) :
    Table.InOrder (s.placeEach claims).circuits := by
  induction claims generalizing s with
  | nil => exact order
  | cons e claims ih => exact ih (State.place_inOrder order e.1 e.2)

/-! ## Circuits with room -/

/-- A circuit whose list has room for a claim of an origin, or holds one to be replaced (R6, R7). -/
def Circuit.Takes (x : Circuit) (o : Origin) : Prop := x.claims.length < 8 ∨ ∃ k ∈ x.claims, k.origin = o

/-- A verdict by which a claim was taken and no other lost. -/
def Verdict.Takes (v : Verdict) : Prop := v = .replaced ∨ v = .appended none

section
variable {x : Circuit} {k : Contribution} (room : x.Takes k.origin)
include room

/-- Where there is room a claim becomes the newest, and one of its origin gives way (R6, R7). -/
theorem Circuit.Takes.insertClaim (dormant : Bool) : ∃ v : Verdict, v.Takes ∧
    Machine.insertClaim { k with dormant := dormant } x.claims =
      (x.claims.eraseP (fun y => y.origin == k.origin) ++ [{ k with dormant := dormant }], v) := by
  by_cases held : ∃ y ∈ x.claims, y.origin = k.origin
  · exact ⟨_, .inl rfl, insertClaim_of_held (k := { k with dormant := dormant }) held⟩
  · have fresh : ∀ y ∈ x.claims, y.origin ≠ k.origin := fun y hy own => held ⟨y, hy, own⟩
    refine ⟨_, .inr rfl, (insertClaim_of_room (k := { k with dormant := dormant }) fresh (room.resolve_right held)).trans ?_⟩
    rw [List.eraseP_of_forall_not (by simpa using fresh)]

theorem Circuit.Takes.verdict (mode : HouseMode) : (x.verdict mode k).Takes := by
  obtain ⟨v, takes, inserted⟩ := room.insertClaim (dormantIn mode x.config k.tier)
  rw [Circuit.verdict, inserted]
  exact takes

theorem Circuit.Takes.placed (mode : HouseMode) (master : Option Nat) : x.placed mode master k =
    Circuit.resolve master k.arrival { x with
      claims := x.claims.eraseP (fun y => y.origin == k.origin) ++ [{ k with dormant := dormantIn mode x.config k.tier }] } := by
  obtain ⟨v, takes, inserted⟩ := room.insertClaim (dormantIn mode x.config k.tier)
  rcases takes with rfl | rfl <;> simp [Circuit.placed, inserted, Circuit.resolve]

end

theorem State.place_of_takes {s : State} {c : Nat} {k : Contribution} (h : (s.place c k).2.Takes) :
    (s.place c k).1 = s.withCircuits (s.place c k).1.circuits := by
  have outcome := s.place_outcome c k
  generalize s.place c k = r at h outcome
  cases outcome with
  | unconfigured => rfl
  | refused => exact absurd h (by simp [Verdict.Takes])
  | taken => rfl
  | displaced => exact absurd h (by simp [Verdict.Takes])

/-- A run that finds room everywhere tells no owner (R9). -/
theorem State.placeEach_of_takes {s : State} {claims : List (Nat × Contribution)} (distinct : (claims.map Prod.fst).Nodup)
    (takes : ∀ v ∈ s.verdicts claims, v.Takes) :
    s.placeEach claims = s.withCircuits (s.placeEach claims).circuits := by
  induction claims generalizing s with
  | nil => rfl
  | cons e claims ih =>
    obtain ⟨fresh, distinct⟩ := List.nodup_cons.1 distinct
    obtain ⟨here, later⟩ := List.forall_mem_cons.1 takes
    rw [State.placeEach_cons, ih distinct (by rw [s.verdicts_place e.2 fresh]; exact later), State.place_of_takes here]
    rfl

end Sys2Proof.Machine
end

section
/-! SUPPORT. A recall that finds room on the circuit of every entry (R88, R90, R91). -/

namespace Sys2Proof.Machine

theorem State.OnlyClaims.of_bindings {s t : State} (h : s.OnlyClaims t) (same : t.bindings = s.bindings) :
    t = { s with circuits := t.circuits, scenes := t.scenes } := Eq.trans h (by rw [same])

/-- The circuit of every entry is configured, and has room for the scene's claim or holds one. -/
def State.HasRoom (s : State) (n : Nat) (y : Scene) : Prop :=
  ∀ e ∈ y.definition.entries, ∃ x, Table.at? s.circuits e.1 = some x ∧ x.Takes (.scene n)

section
variable {s : State} {n : Nat} {y : Scene} (room : s.HasRoom n y) (tier : Nat) (r : Recaller)
include room

theorem State.HasRoom.verdict {e : Nat × Nat} (mem : e ∈ y.definition.entries) :
    (s.place e.1 (sceneClaim n tier y.definition (some r) e.2)).2.Takes := by
  obtain ⟨x, hx, takes⟩ := room e mem
  rw [State.place_verdict, hx]
  exact Circuit.Takes.verdict takes s.mode

variable (hy : Table.at? s.scenes n = some y) (sorted : (y.definition.entries.map Prod.fst).Pairwise (· < ·))
include hy sorted

/-- No placement is refused, and no owner of another claim is told (R9, R90). -/
theorem State.HasRoom.recall_eq : ∃ circuits, s.recall n tier r =
    ((((s.recallBegun n tier r).withCircuits circuits).judgeScene n false).judgeLive n) := by
  have distinct : ((y.definition.placements n tier r).map Prod.fst).Nodup :=
    (y.definition.placements_ids n tier r).symm ▸ sorted.imp Nat.ne_of_lt
  obtain ⟨refused, iff, eq⟩ := State.recall_eq hy (sorted.imp Nat.ne_of_lt) tier r
  have takes : ∀ v ∈ s.verdicts (y.definition.placements n tier r), v.Takes := by
    intro v hv
    obtain ⟨e, he, rfl⟩ := State.mem_verdicts.1 hv
    obtain ⟨e, mem, rfl⟩ := List.mem_map.1 he
    exact room.verdict tier r mem
  have none_refused : refused = false := Bool.eq_false_iff.2 fun h => absurd (takes _ (iff.1 h)) (by simp [Verdict.Takes])
  have begun : (s.recallBegun n tier r).verdicts (y.definition.placements n tier r) =
      s.verdicts (y.definition.placements n tier r) :=
    List.map_congr_left fun e _ => State.place_verdict_congr (s := s) (t := s.recallBegun n tier r) rfl rfl e.2
  rw [none_refused, State.placeEach_of_takes distinct (begun ▸ takes)] at eq
  exact ⟨_, eq⟩

theorem State.HasRoom.recall_frame :
    s.recall n tier r = { s with circuits := (s.recall n tier r).circuits, scenes := (s.recall n tier r).scenes } := by
  obtain ⟨circuits, eq⟩ := room.recall_eq tier r hy sorted
  obtain ⟨only, _⟩ := State.recall_recalled hy sorted tier r
  exact only.of_bindings (by rw [eq, State.judgeLive_bindings]; rfl)

/-- On each entry's circuit the scene's claim is the newest, and resolved with the fade in (R88). -/
theorem State.HasRoom.recall_at? {e : Nat × Nat} (mem : e ∈ y.definition.entries) {x : Circuit}
    (hx : Table.at? s.circuits e.1 = some x) : Table.at? (s.recall n tier r).circuits e.1 =
      some (Circuit.resolve (s.masterOf x.config) y.definition.fadeIn { x with
        claims := x.claims.eraseP (fun k => k.origin == .scene n) ++
          [{ sceneClaim n tier y.definition (some r) e.2 with dormant := dormantIn s.mode x.config tier }] }) := by
  obtain ⟨_, own, _⟩ := State.recall_recalled hy sorted tier r
  obtain ⟨x', hx', takes⟩ := room e mem
  obtain rfl : x' = x := Option.some.inj (hx'.symm.trans hx)
  rw [own e mem, State.place_at?, hx, Option.map_some, if_pos rfl]
  exact congrArg some (Circuit.Takes.placed (k := sceneClaim n tier y.definition (some r) e.2) takes s.mode _)

/-- A recalled scene that found room holds a claim on every one of its entries' circuits (R91). -/
theorem State.HasRoom.recall_holds (order : Table.InOrder s.circuits) (within : s.WithinEntries n y) :
    (s.recall n tier r).holds (.scene n) = y.definition.entries.length := by
  obtain ⟨_, _, others, _⟩ := State.recall_recalled hy sorted tier r
  have sound : Table.InOrder (s.recall n tier r).circuits := by
    obtain ⟨refused, _, eq⟩ := State.recall_eq hy (sorted.imp Nat.ne_of_lt) tier r
    rw [eq, State.judgeLive_circuits]
    exact State.placeEach_inOrder (s := s.recallBegun n tier r) order _
  rw [State.holds_eq_length sound (ids := y.definition.entries.map Prod.fst) (sorted.imp Nat.ne_of_lt), List.length_map]
  intro c
  by_cases entry : c ∈ y.definition.entries.map Prod.fst
  · obtain ⟨e, mem, rfl⟩ := List.mem_map.1 entry
    obtain ⟨x, hx, _⟩ := room e mem
    refine iff_of_true (State.heldOn_iff.2 ⟨_, room.recall_at? tier r hy sorted mem hx, ?_⟩) entry
    exact ⟨_, List.mem_append_right _ (List.mem_singleton_self _), rfl⟩
  · refine iff_of_false (fun held => entry (within.mem ?_)) entry
    rwa [State.heldOn, others c entry] at held

/-- The recalled scene's marks are clear, its tier and recaller known, and no other scene is told (R88, R90). -/
theorem State.HasRoom.recall_scenes (order : Table.InOrder s.circuits) (within : s.WithinEntries n y)
    (some_entry : y.definition.entries ≠ []) (m : Nat) :
    Table.at? (s.recall n tier r).scenes m = if m = n then
      some { y with liveTier := some tier, recaller := some r, partialMark := false, displacedMark := false }
      else Table.at? s.scenes m := by
  have all := room.recall_holds tier r hy sorted order within
  have some_held : 0 < y.definition.entries.length := List.length_pos_iff.2 some_entry
  obtain ⟨circuits, eq⟩ := room.recall_eq tier r hy sorted
  let u := (s.recallBegun n tier r).withCircuits circuits
  have held : (u.judgeScene n false).holds (.scene n) = y.definition.entries.length := by
    rw [← all, eq]
    exact (State.holds_congr (State.judgeLive_circuits ..) _).symm
  have judged : u.holds (.scene n) = y.definition.entries.length := held
  rw [eq, State.judgeLive_scenes_at?, State.judgeScene_at?, held, judged]
  by_cases own : m = n
  · subst own
    simp [State.recallBegun, hy, Scene.judged, Nat.ne_of_gt some_held]
  · simp [State.recallBegun, Table.at?_adjust, own]

end

end Sys2Proof.Machine
end

section
/-! SUPPORT. RecallScene, ReleaseScene and ReadScene: their checks, their answers and what a release leaves (R92, R95, R96). -/

namespace Sys2Proof.Machine

/-! ## What a release leaves -/

theorem State.removeEach_of_not_held {s : State} {o : Origin} (absent : ∀ c, s.heldOn o c = false) (byOther : Bool)
    (ids : List Nat) : s.removeEach byOther o ids = s := by
  induction ids with
  | nil => rfl
  | cons c ids ih => rw [State.removeEach_cons, State.remove_of_not_heldOn (absent c), ih]

section
variable {s : State} {n : Nat}

theorem State.releaseScene_frame (s : State) (n : Nat) : s.releaseScene n =
    { s with circuits := (s.releaseScene n).circuits, scenes := (s.releaseScene n).scenes } :=
  (s.releaseScene_onlyClaims n).of_bindings (s.releaseScene_bindings n)

theorem State.releaseScene_of_not_held (none : s.holds (.scene n) = 0) : s.releaseScene n = s := by
  have absent (c : Nat) : s.heldOn (.scene n) c = false := Bool.eq_false_iff.2 fun held =>
    List.ne_nil_of_mem (State.mem_holders_of_heldOn held) (List.length_eq_zero_iff.1 none)
  cases hy : Table.at? s.scenes n with
  | none => rw [State.releaseScene, hy]
  | some y => rw [State.releaseScene_eq hy, State.removeEach_of_not_held absent]

variable {y : Scene} (hy : Table.at? s.scenes n = some y)
include hy

/-- The circuits of a scene's entries hold no claim of it once it is released (R92). -/
theorem State.releaseScene_gone (sound : s.ListsSound) {e : Nat × Nat} (mem : e ∈ y.definition.entries) {x : Circuit}
    (hx : Table.at? (s.releaseScene n).circuits e.1 = some x) : ∀ k ∈ x.claims, k.origin ≠ .scene n := by
  rw [State.releaseScene_eq hy, State.removeEach_at? sound, Option.map_eq_some_iff] at hx
  obtain ⟨x', hx', rfl⟩ := hx
  rw [if_pos (List.mem_map_of_mem mem), Circuit.removed_claims]
  exact origin_ne_of_mem_eraseP (sound.at? hx').2 _

theorem State.releaseScene_own_scene : ∃ z, Table.at? (s.releaseScene n).scenes n = some z ∧ z.definition = y.definition ∧
    z.partialMark = y.partialMark ∧ z.displacedMark = y.displacedMark := by
  obtain ⟨z, hz, same | ended, _⟩ := s.removeEach_own_scene true (y.definition.entries.map Prod.fst) hy
  · exact ⟨z, State.releaseScene_eq hy ▸ hz, by rw [same]; exact ⟨rfl, rfl, rfl⟩⟩
  · exact ⟨z, State.releaseScene_eq hy ▸ hz, by rw [ended]; exact ⟨rfl, rfl, rfl⟩⟩

end

/-! ## The checks -/

/-- A scene's body: its identifier, the two fades, the count, and three bytes for each entry (section 12.5). -/
theorem encodeScene_length (n : Nat) (d : SceneDef) : (encodeScene n d).length = 6 + d.entries.length * 3 := by
  have entries := length_flatMap_of_const (n := 3)
    (f := fun e : Nat × Nat => [byteOf (e.1 / 16), byteOf (e.1 % 16 * 16 + e.2 / 256), byteOf e.2]) (fun _ => rfl) d.entries
  simp only [encodeScene, List.length_append, List.length_cons, List.length_nil, bytes16_length, entries]

section
variable {s : State} {n tier : Byte}

theorem recallScene_outOfRange (out : n = 0 ∨ 96 < n.toNat ∨ 2 < tier.toNat) :
    recallScene [n, tier] s = .refuse .outOfRange s := by
  have check : (!within 1 96 n.toNat || !within 0 2 tier.toNat) = true := by
    rw [byte_eq_zero_iff] at out
    simp only [Bool.or_eq_true, Bool.not_eq_true', within_eq_false]
    omega
  rw [recallScene, check, State.inOrder_cons_true]

theorem releaseScene_outOfRange (out : n = 0 ∨ 96 < n.toNat) : releaseScene [n] s = .refuse .outOfRange s := by
  rw [releaseScene, within_eq_false.2 (out.imp_left byte_eq_zero_iff.1), Bool.not_false, State.inOrder_cons_true]

theorem readScene_outOfRange (out : n = 0 ∨ 96 < n.toNat) : readScene [n] s = .refuse .outOfRange s := by
  simp [readScene, within_eq_false.2 (out.imp_left byte_eq_zero_iff.1)]

section
variable (h1 : n ≠ 0) (h2 : n.toNat ≤ 96)
include h1 h2

theorem sceneId_within : within 1 96 n.toNat = true := within_iff.2 ⟨Nat.not_lt.1 (byte_eq_zero_iff.not.1 h1), h2⟩

/-- The check left where scene and tier are in range. -/
theorem recallScene_of_inRange (ht : tier.toNat ≤ 2) : recallScene [n, tier] s =
    s.inOrder [((Table.at? s.scenes n.toNat).isNone, .noSuch)]
      (.read ((s.recall n.toNat tier.toNat .host).recallBody n.toNat) (s.recall n.toNat tier.toNat .host)) := by
  rw [recallScene, sceneId_within h1 h2, within_iff.2 ⟨Nat.zero_le _, ht⟩]
  rfl

theorem recallScene_noSuch (ht : tier.toNat ≤ 2) (absent : Table.at? s.scenes n.toNat = none) :
    recallScene [n, tier] s = .refuse .noSuch s := by
  rw [recallScene_of_inRange h1 h2 ht, absent, Option.isNone_none, State.inOrder_cons_true]

theorem releaseScene_noSuch (absent : Table.at? s.scenes n.toNat = none) : releaseScene [n] s = .refuse .noSuch s := by
  rw [releaseScene, sceneId_within h1 h2, Bool.not_true, State.inOrder_cons_false, absent, Option.isNone_none,
    State.inOrder_cons_true]

theorem readScene_noSuch (absent : Table.at? s.scenes n.toNat = none) : readScene [n] s = .refuse .noSuch s := by
  simp [readScene, sceneId_within h1 h2, absent]

variable {y : Scene} (hy : Table.at? s.scenes n.toNat = some y)
include hy

theorem recallScene_of_defined (ht : tier.toNat ≤ 2) : recallScene [n, tier] s =
    .read ((s.recall n.toNat tier.toNat .host).recallBody n.toNat) (s.recall n.toNat tier.toNat .host) := by
  rw [recallScene_of_inRange h1 h2 ht, hy, Option.isNone_some, State.inOrder_cons_false, State.inOrder_nil]

theorem releaseScene_of_defined : releaseScene [n] s = .done (s.releaseScene n.toNat) := by
  rw [releaseScene, sceneId_within h1 h2, Bool.not_true, State.inOrder_cons_false, hy, Option.isNone_some,
    State.inOrder_cons_false, State.inOrder_nil]

/-- The answer of ReadScene fits its body (R85, R163). -/
theorem readScene_of_defined (few : y.definition.entries.length ≤ 64) : readScene [n] s =
    .answered { result := .ok, body := encodeScene n.toNat y.definition ++
      [byteOf (s.holds (.scene n.toNat)), orAbsent (y.liveTier.map byteOf)] ++ recallerBytes y.recaller ++
      [y.marks] ++ bytes16 s.poolInUse } s := by
  simp only [readScene, sceneId_within h1 h2, hy, Bool.not_true, Bool.false_eq_true, if_false]
  refine Work.read_of_short ?_ s
  simp only [encodeScene_length, List.length_append, List.length_cons, List.length_nil, bytes16_length,
    recallerBytes_length]
  omega

end

end

/-! ## The answer of a recall -/

theorem State.recallBody_of_defined {s : State} {n : Nat} {z : Scene} (hz : Table.at? s.scenes n = some z) :
    s.recallBody n = [byteOf (s.holds (.scene n)), orAbsent (z.liveTier.map byteOf), flagByte z.partialMark,
      flagByte z.displacedMark] := by rw [State.recallBody, hz]

/-- RecallScene on a defined scene answers with what the recall leaves of it (R95). -/
theorem exec_recallScene {s : State} {tag n tier : Byte} (take : s.TakesRequests) (h1 : n ≠ 0) (h2 : n.toNat ≤ 96)
    (ht : tier.toNat ≤ 2) {y z : Scene} (hy : Table.at? s.scenes n.toNat = some y)
    (only : s.OnlyClaims (s.recall n.toNat tier.toNat .host))
    (hz : Table.at? (s.recall n.toNat tier.toNat .host).scenes n.toNat = some z) :
    exec (.recallScene tag [n, tier]) s = .next ((s.recall n.toNat tier.toNat .host).answered 2 tag .ok false
      [byteOf ((s.recall n.toNat tier.toNat .host).holds (.scene n.toNat)), orAbsent (z.liveTier.map byteOf),
        flagByte z.partialMark, flagByte z.displacedMark]) := by
  have recalled : (s.taken 0x33 tag [n, tier]).recall n.toNat tier.toNat .host =
      (s.recall n.toNat tier.toNat .host).taken 0x33 tag [n, tier] :=
    only.taken_comm (f := fun s => s.recall n.toNat tier.toNat .host) (by simp) ..
  refine congrArg Host.Outcome.next (take.answered (r := { result := .ok, body := _ }) (by simp) ?_)
  rw [recallScene_of_defined (s := s.taken 0x33 tag [n, tier]) h1 h2 hy ht, recalled,
    State.recallBody_of_defined (s := (s.recall n.toNat tier.toNat .host).taken 0x33 tag [n, tier]) hz]
  exact Work.read_of_short (by simp) _

theorem byteOf_toNat (b : Byte) : byteOf b.toNat = b := (BitVec.ofNat_toNat 8 b).trans (BitVec.setWidth_eq b)

end Sys2Proof.Machine
end

section
/-! The recall, the release and the report of a scene (O37). -/

namespace Sys2Proof.Machine

/-- Settles O37: the recall by `recall_recalled` and, where there is room, by its circuits and scenes; the release and the read
by their own equations. -/
theorem recallReleaseAndReadScene : Obligations.RecallReleaseAndReadScene := by
  unfold Obligations.RecallReleaseAndReadScene
  intro s tag take
  have refuse {n tier : Byte} {r : Result} (hw : recallScene [n, tier] (s.taken 0x33 tag [n, tier]) = .refuse r (s.taken ..)) :
      exec (.recallScene tag [n, tier]) s = .next (s.answered 2 tag r false []) :=
    congrArg Host.Outcome.next (take.refused (by simp) hw)
  have release {n : Byte} {r : Reply} {t : State}
      (hw : releaseScene [n] (s.taken 0x34 tag [n]) = .answered r (t.taken 0x34 tag [n])) :
      exec (.releaseScene tag [n]) s = .next (t.answered 1 tag r.result r.clamped r.body) :=
    congrArg Host.Outcome.next (take.answered (by simp) hw)
  have read {n : Byte} {r : Reply} (hw : readScene [n] (s.taken 0x31 tag [n]) = .answered r (s.taken ..)) :
      exec (.readScene tag [n]) s = .next (s.answered 1 tag r.result r.clamped r.body) :=
    congrArg Host.Outcome.next (take.answered (by simp) hw)
  refine ⟨fun n tier => ⟨fun out => refuse (recallScene_outOfRange out), fun h1 h2 ht absent =>
      refuse (recallScene_noSuch h1 h2 ht absent)⟩,
    fun n => ⟨fun out => ⟨release (releaseScene_outOfRange out), read (readScene_outOfRange out)⟩, fun h1 h2 absent =>
      ⟨release (releaseScene_noSuch h1 h2 absent), read (readScene_noSuch h1 h2 absent)⟩⟩,
    fun n y h1 h2 hy => ⟨fun tier ht sorted => ?_, fun tier ht sound order some_entry sorted within room => ?_, ?_,
      fun few => read (r := { result := .ok, body := _ }) (readScene_of_defined (s := s.taken ..) h1 h2 hy few)⟩⟩
  · have recalled := State.recall_recalled hy sorted tier.toNat .host
    have ⟨only, _, _, _, _, z, hz, _⟩ := recalled
    exact ⟨_, z, exec_recallScene take h1 h2 ht hy only hz, hz, recalled⟩
  · have room : s.HasRoom n.toNat y := room
    obtain ⟨only, _, others, _⟩ := State.recall_recalled hy sorted tier.toNat .host
    have all := room.recall_holds tier.toNat .host hy sorted order within
    have scenes := room.recall_scenes tier.toNat .host hy sorted order within some_entry
    refine ⟨s.recall n.toNat tier.toNat .host, ?_, room.recall_frame _ _ hy sorted, scenes, others,
      fun e mem x hx => room.recall_at? _ _ hy sorted mem hx⟩
    have answer := exec_recallScene (tag := tag) take h1 h2 ht hy only ((scenes _).trans (if_pos rfl))
    rw [all] at answer
    simpa [orAbsent, byteOf_toNat, flagByte] using answer
  · refine ⟨s.releaseScene n.toNat, release (r := { result := .ok })
      ((releaseScene_of_defined (s := s.taken ..) h1 h2 hy).trans (congrArg Work.done
        ((s.releaseScene_onlyClaims _).taken_comm (f := fun s => s.releaseScene n.toNat) (by simp) ..))),
      s.releaseScene_frame _, fun sound e mem x hx => State.releaseScene_gone hy sound mem hx,
      State.releaseScene_own_scene hy, State.releaseScene_of_not_held⟩

end Sys2Proof.Machine
end

section
/-! SUPPORT. What the rewrite of a live scene leaves: the placements of its new and changed entries, the removals of the dropped
ones, and the judgement of its marks (R90, R93). -/

namespace Sys2Proof.Machine

/-! ## Removals and the claims of others -/

section
variable {s : State} {o o' : Origin} (ne : o' ≠ o)
include ne

theorem State.removeEach_heldOn_ne (byOther : Bool) (ids : List Nat) (i : Nat) :
    (s.removeEach byOther o ids).heldOn o' i = s.heldOn o' i := by
  induction ids generalizing s with
  | nil => rfl
  | cons c ids ih =>
    rw [State.removeEach_cons, ih]
    exact Bool.eq_iff_iff.2 ⟨State.heldOn_of_remove, State.heldOn_remove_ne ne⟩

theorem State.removeEach_holds_ne (order : Table.InOrder s.circuits) (byOther : Bool) (ids : List Nat) :
    (s.removeEach byOther o ids).holds o' = 0 ↔ s.holds o' = 0 := by
  rw [State.holds_eq_zero order, State.holds_eq_zero (State.removeEach_inOrder order byOther o ids)]
  simp only [State.removeEach_heldOn_ne ne]

end

/-! ## What a scene's run tells the bindings -/

section
variable {s : State} {claims : List (Nat × Contribution)} {n : Nat} (distinct : (claims.map Prod.fst).Nodup)
  (own : ∀ e ∈ claims, e.2.origin = .scene n)
include distinct own

theorem State.placeEach_displaced_binding {b : Nat} (h : ∃ v ∈ s.verdicts claims, v.Displaces (.binding b)) :
    Table.at? (s.placeEach claims).bindings b =
      (Table.at? s.bindings b).map fun x => { x with displacedMark := true, captured := false } := by
  rw [s.placeEach_bindings_at? distinct own]
  simp only [Binding.foldl_afterPlacement_of_displaced (nofun : Origin.scene n ≠ .binding b) h]

theorem State.placeEach_kept_binding {b : Nat} (h : ¬ ∃ v ∈ s.verdicts claims, v.Displaces (.binding b)) :
    Table.at? (s.placeEach claims).bindings b = Table.at? s.bindings b := by
  have kept : ∀ v ∈ s.verdicts claims, ¬ v.Displaces (.binding b) := fun v hv hd => h ⟨v, hv, hd⟩
  rw [s.placeEach_bindings_at? distinct own]
  simp only [Binding.foldl_afterPlacement_of_kept kept fun _ => (nofun : Origin.scene n ≠ .binding b), Option.map_id']

end

/-! ## The entries of a rewrite -/

/-- A rewrite leaves the claim of an entry alone: it is an old one with its level, and the fades are the old ones (R93). -/
def SceneDef.Keeps (old new : SceneDef) (e : Nat × Nat) : Prop :=
  e ∈ old.entries ∧ old.fadeIn = new.fadeIn ∧ old.fadeOut = new.fadeOut

theorem rewritePlaces_iff {old new : SceneDef} {e : Nat × Nat} : rewritePlaces old new e = true ↔ ¬ old.Keeps new e := by
  rw [rewritePlaces, Bool.not_eq_true', ← Bool.not_eq_true]
  exact not_congr (by simp [SceneDef.Keeps, and_assoc])

theorem mem_rewriteDrops {old new : SceneDef} {c : Nat} :
    c ∈ rewriteDrops old new ↔ c ∈ old.entries.map Prod.fst ∧ c ∉ new.entries.map Prod.fst := by
  simp [rewriteDrops]

/-- The contribution a rewrite places for an entry's level: at the live tier, for the recaller, under the new fades (R93). -/
def Scene.rewriteClaim (y : Scene) (n : Nat) (d : SceneDef) (level : Nat) : Contribution :=
  sceneClaim n (y.liveTier.getD 0) d y.recaller level

/-- The placements of a rewrite, by circuit (R93). -/
def Scene.rewriting (y : Scene) (n : Nat) (d : SceneDef) : List (Nat × Contribution) :=
  (d.entries.filter (rewritePlaces y.definition d)).map fun e => (e.1, y.rewriteClaim n d e.2)

section
variable {y : Scene} {n : Nat} {d : SceneDef}

theorem Scene.mem_rewriting {p : Nat × Contribution} : p ∈ y.rewriting n d ↔
    ∃ e ∈ d.entries, ¬ y.definition.Keeps d e ∧ p = (e.1, y.rewriteClaim n d e.2) := by
  simp only [Scene.rewriting, List.mem_map, List.mem_filter, rewritePlaces_iff, and_assoc, @eq_comm _ _ p]

theorem Scene.rewriting_origin : ∀ p ∈ y.rewriting n d, p.2.origin = .scene n := by
  intro p hp
  obtain ⟨e, _, _, rfl⟩ := Scene.mem_rewriting.1 hp
  rfl

theorem Scene.rewriting_ids :
    (y.rewriting n d).map Prod.fst = (d.entries.filter (rewritePlaces y.definition d)).map Prod.fst := by
  simp [Scene.rewriting, Function.comp_def]

theorem Scene.rewriting_nodup (distinct : (d.entries.map Prod.fst).Nodup) : ((y.rewriting n d).map Prod.fst).Nodup :=
  Scene.rewriting_ids ▸ distinct.sublist (List.filter_sublist.map _)

theorem Scene.rewriting_ids_subset : (y.rewriting n d).map Prod.fst ⊆ d.entries.map Prod.fst :=
  Scene.rewriting_ids ▸ (List.filter_sublist.map _).subset

/-- A kept entry's circuit is not placed on. -/
theorem Scene.not_mem_rewriting_ids (distinct : (d.entries.map Prod.fst).Nodup) {e : Nat × Nat} (mem : e ∈ d.entries)
    (kept : y.definition.Keeps d e) : e.1 ∉ (y.rewriting n d).map Prod.fst := by
  intro h
  obtain ⟨p, hp, same⟩ := List.mem_map.1 h
  obtain ⟨e', mem', changed, rfl⟩ := Scene.mem_rewriting.1 hp
  exact changed (List.inj_on_of_nodup_map distinct mem mem' same.symm ▸ kept)

theorem Scene.rewriting_of_kept (kept : ∀ e ∈ d.entries, y.definition.Keeps d e) : y.rewriting n d = [] := by
  refine List.eq_nil_iff_forall_not_mem.2 fun p hp => ?_
  obtain ⟨e, mem, changed, _⟩ := Scene.mem_rewriting.1 hp
  exact changed (kept e mem)

theorem State.exists_rewriting_verdict {s : State} {P : Verdict → Prop} : (∃ v ∈ s.verdicts (y.rewriting n d), P v) ↔
    ∃ e ∈ d.entries, ¬ y.definition.Keeps d e ∧ P (s.place e.1 (y.rewriteClaim n d e.2)).2 := by
  constructor
  · rintro ⟨v, hv, holds⟩
    obtain ⟨p, hp, rfl⟩ := State.mem_verdicts.1 hv
    obtain ⟨e, mem, changed, rfl⟩ := Scene.mem_rewriting.1 hp
    exact ⟨e, mem, changed, holds⟩
  · rintro ⟨e, mem, changed, holds⟩
    exact ⟨_, State.mem_verdicts.2 ⟨_, Scene.mem_rewriting.2 ⟨e, mem, changed, rfl⟩, rfl⟩, holds⟩

theorem State.place_ne_unconfigured {s : State} {c : Nat} (known : Table.at? s.circuits c ≠ none) (k : Contribution) :
    (s.place c k).2 ≠ .unconfigured := by
  rw [State.place_verdict]
  cases hx : Table.at? s.circuits c with
  | none => exact absurd hx known
  | some x => exact insertClaim_ne_unconfigured _ _

end

/-! ## The steps of a rewrite -/

/-- A scene given its new definition. -/
def State.redefined (s : State) (n : Nat) (d : SceneDef) : State := s.onScene n fun x => { x with definition := d }

/-- A rewrite with its placements made. -/
def State.rewritePlaced (s : State) (n : Nat) (y : Scene) (d : SceneDef) : State :=
  (s.redefined n d).placeEach (y.rewriting n d)

/-- A rewrite with its placements and its removals made. -/
def State.rewriteMoved (s : State) (n : Nat) (y : Scene) (d : SceneDef) : State :=
  (s.rewritePlaced n y d).removeEach true (.scene n) (rewriteDrops y.definition d)

section
variable {s : State} {n : Nat} {y : Scene} {d : SceneDef}

theorem State.redefined_verdicts (claims : List (Nat × Contribution)) :
    (s.redefined n d).verdicts claims = s.verdicts claims :=
  List.map_congr_left fun e _ => State.place_verdict_congr (s := s) (t := s.redefined n d) rfl rfl e.2

theorem State.rewritePlaced_onlyClaims : s.OnlyClaims (s.rewritePlaced n y d) :=
  ((State.OnlyClaims.refl s).onScene ..).placeEach _

theorem State.rewriteMoved_onlyClaims : s.OnlyClaims (s.rewriteMoved n y d) :=
  State.rewritePlaced_onlyClaims.trans (State.removeEach_onlyClaims ..)

theorem State.rewritePlaced_moves : Moves s (s.rewritePlaced n y d) := ((Moves.refl s).onScene n _).placeEach _

/-- On a circuit the removals of a rewrite leave what the removal alone leaves, or nothing is removed. -/
theorem State.rewriteMoved_at? (sound : s.ListsSound) (c : Nat) : Table.at? (s.rewriteMoved n y d).circuits c =
    (Table.at? (s.rewritePlaced n y d).circuits c).map fun x =>
      if c ∈ rewriteDrops y.definition d then x.removed (s.masterOf x.config) (.scene n) else x := by
  rw [State.rewriteMoved, State.removeEach_at? (State.rewritePlaced_moves.keeps Move.listsSound sound)]
  simp only [State.rewritePlaced_onlyClaims.masterOf]

section
variable (sound : s.ListsSound)
include sound

theorem State.rewriteMoved_at?_of_dropped {c : Nat} (dropped : c ∈ rewriteDrops y.definition d) :
    Table.at? (s.rewriteMoved n y d).circuits c = Table.at? (s.remove true (.scene n) c).circuits c := by
  have placed : Table.at? (s.rewritePlaced n y d).circuits c = Table.at? s.circuits c :=
    (s.redefined n d).placeEach_at?_of_not_mem fun h => (mem_rewriteDrops.1 dropped).2 (Scene.rewriting_ids_subset h)
  rw [State.rewriteMoved_at? sound, placed, State.remove_at?]
  simp only [dropped, if_true]

theorem State.rewriteMoved_at?_of_not_dropped {c : Nat} (stays : c ∉ rewriteDrops y.definition d) :
    Table.at? (s.rewriteMoved n y d).circuits c = Table.at? (s.rewritePlaced n y d).circuits c := by
  rw [State.rewriteMoved_at? sound]
  simp only [stays, if_false, Option.map_id']

theorem State.rewriteMoved_at?_of_not_placed {c : Nat} (stays : c ∉ rewriteDrops y.definition d)
    (unplaced : c ∉ (y.rewriting n d).map Prod.fst) :
    Table.at? (s.rewriteMoved n y d).circuits c = Table.at? s.circuits c :=
  (State.rewriteMoved_at?_of_not_dropped sound stays).trans ((s.redefined n d).placeEach_at?_of_not_mem unplaced)

theorem State.rewriteMoved_at?_of_placed (distinct : (d.entries.map Prod.fst).Nodup) {e : Nat × Nat} (mem : e ∈ d.entries)
    (changed : ¬ y.definition.Keeps d e) : Table.at? (s.rewriteMoved n y d).circuits e.1 =
      Table.at? (s.place e.1 (y.rewriteClaim n d e.2)).1.circuits e.1 := by
  have placed := (s.redefined n d).placeEach_at?_of_mem (Scene.rewriting_nodup (y := y) (n := n) distinct)
    (Scene.mem_rewriting.2 ⟨e, mem, changed, rfl⟩)
  rw [State.rewriteMoved_at?_of_not_dropped sound fun dropped => (mem_rewriteDrops.1 dropped).2 (List.mem_map_of_mem mem)]
  exact placed.trans (State.place_at?_congr (s := s) (t := s.redefined n d) rfl rfl rfl _)

end

theorem State.rewriteMoved_bindings : (s.rewriteMoved n y d).bindings = (s.rewritePlaced n y d).bindings :=
  State.removeEach_scene_bindings ..

/-- Another scene is told of the placements alone (R9, R11). -/
theorem State.rewriteMoved_other_scene (order : Table.InOrder s.circuits) (distinct : (d.entries.map Prod.fst).Nodup)
    {m : Nat} (other : m ≠ n) {w : Scene} (hw : Table.at? s.scenes m = some w) :
    ∃ z, Table.at? (s.rewriteMoved n y d).scenes m = some z ∧
      w.AfterPlacements z (∃ v ∈ s.verdicts (y.rewriting n d), v.Displaces (.scene m))
        ((s.rewriteMoved n y d).holds (.scene m) = 0) := by
  have begun : Table.at? (s.redefined n d).scenes m = some w := by simp [State.redefined, Table.at?_adjust, other, hw]
  obtain ⟨z, hz, after⟩ := State.placeEach_other_scene (s := s.redefined n d) order (Scene.rewriting_nodup distinct)
    Scene.rewriting_origin (fun same => other (Origin.scene.inj same).symm) begun
  refine ⟨z, (State.removeEach_scenes_at?_ne _ true other _).trans hz, ?_⟩
  have placedOrder : Table.InOrder (s.rewritePlaced n y d).circuits :=
    State.placeEach_inOrder (s := s.redefined n d) order _
  rw [State.rewriteMoved, State.removeEach_holds_ne (fun same => other (Origin.scene.inj same)) placedOrder]
  rwa [State.redefined_verdicts] at after

theorem State.rewriteMoved_scene_of_none {m : Nat} (other : m ≠ n) (absent : Table.at? s.scenes m = none) :
    Table.at? (s.rewriteMoved n y d).scenes m = none := by
  refine (State.removeEach_scenes_at?_ne _ true other _).trans (State.placeEach_scene_of_none _ _ ?_)
  simp [State.redefined, Table.at?_adjust, other, absent]

/-- The rewritten scene itself before its marks are judged: it has ended if its last claim has left (R91, R93). -/
theorem State.rewriteMoved_own_scene (order : s.TablesInOrder) (hy : Table.at? s.scenes n = some y)
    (live : 0 < s.holds (.scene n)) : ∃ mark, ((∀ e ∈ d.entries, y.definition.Keeps d e) → mark = y.partialMark) ∧
      Table.at? (s.rewriteMoved n y d).scenes n = some
        (if (s.rewriteMoved n y d).holds (.scene n) = 0 then Scene.ended { y with definition := d, partialMark := mark }
          else { y with definition := d, partialMark := mark }) := by
  have begun : Table.at? (s.redefined n d).scenes n = some { y with definition := d } := by simp [State.redefined, hy]
  obtain ⟨mark, hm⟩ := State.placeEach_own_scene (s.redefined n d) (Scene.rewriting_origin (y := y) (d := d)) begun
  have orderP : (s.rewritePlaced n y d).TablesInOrder := State.rewritePlaced_moves.keeps Move.tablesInOrder order
  have liveP : 0 < (s.rewritePlaced n y d).holds (.scene n) := by
    obtain ⟨c, held⟩ := (State.holds_pos order.circuits).1 live
    exact (State.holds_pos orderP.circuits).2
      ⟨c, State.placeEach_keeps_own (s := s.redefined n d) Scene.rewriting_origin held⟩
  obtain ⟨z, hz, ends, ended⟩ :=
    (State.LightLost.removeEach orderP true (.scene n) (rewriteDrops y.definition d)).scenes n _ hm
  refine ⟨mark, fun kept => ?_, hz.trans (congrArg some ?_)⟩
  · rw [Scene.rewriting_of_kept kept] at hm
    exact (Scene.mk.inj (Option.some.inj (hm.symm.trans begun))).2.2.2.1
  · by_cases none : (s.rewriteMoved n y d).holds (.scene n) = 0
    · rw [if_pos none]
      exact ended liveP none
    · rw [if_neg none]
      exact ends.resolve_right fun h => none h.2

end

/-! ## A rewrite -/

section
variable {s : State} {n : Nat} {y : Scene} {d : SceneDef} (distinct : (d.entries.map Prod.fst).Nodup)
include distinct

/-- A rewrite is its placements, its removals, and a judgement of the marks where a placement was made (R93). -/
theorem State.rewriteLive_eq (known : ∀ e ∈ d.entries, Table.at? s.circuits e.1 ≠ none) :
    ∃ t : Tally, (t.any = true ↔ ∃ e ∈ d.entries, ¬ y.definition.Keeps d e) ∧
      (t.refused = true ↔ ∃ e ∈ d.entries, ¬ y.definition.Keeps d e ∧
        (s.place e.1 (y.rewriteClaim n d e.2)).2 = .refused) ∧
      s.rewriteLive n y d =
        if t.any then (s.rewriteMoved n y d).judgeScene n t.refused else s.rewriteMoved n y d := by
  refine ⟨(s.verdicts (y.rewriting n d)).foldl Tally.count ⟨false, false⟩, ?_, ?_, ?_⟩
  · rw [Tally.foldl_count_any, State.exists_rewriting_verdict]
    simp only [Bool.false_eq_true, false_or]
    exact exists_congr fun e => and_congr_right fun mem => and_iff_left (State.place_ne_unconfigured (known e mem) _)
  · rw [Tally.foldl_count_refused, ← State.exists_rewriting_verdict (P := fun v => v = .refused)]
    simp
  · have run := (s.redefined n d).placeAll_eq (Scene.rewriting_nodup (y := y) (n := n) distinct)
    rw [State.redefined_verdicts] at run
    exact congrArg (fun r : State × Tally =>
      let u := r.1.removeEach true (.scene n) (rewriteDrops y.definition d)
      if r.2.any then u.judgeScene n r.2.refused else u) run

variable (known : ∀ e ∈ d.entries, Table.at? s.circuits e.1 ≠ none)
include known

theorem State.rewriteLive_onlyClaims : s.OnlyClaims (s.rewriteLive n y d) := by
  obtain ⟨t, _, _, eq⟩ := State.rewriteLive_eq (n := n) (y := y) distinct known
  rw [eq]
  split
  · exact State.rewriteMoved_onlyClaims.onScene ..
  · exact State.rewriteMoved_onlyClaims

theorem State.rewriteLive_circuits : (s.rewriteLive n y d).circuits = (s.rewriteMoved n y d).circuits := by
  obtain ⟨t, _, _, eq⟩ := State.rewriteLive_eq (n := n) (y := y) distinct known
  rw [eq]
  split <;> rfl

theorem State.rewriteLive_bindings : (s.rewriteLive n y d).bindings = (s.rewritePlaced n y d).bindings := by
  obtain ⟨t, _, _, eq⟩ := State.rewriteLive_eq (n := n) (y := y) distinct known
  rw [eq, ← State.rewriteMoved_bindings]
  split <;> rfl

theorem State.rewriteLive_scenes_ne {m : Nat} (other : m ≠ n) :
    Table.at? (s.rewriteLive n y d).scenes m = Table.at? (s.rewriteMoved n y d).scenes m := by
  obtain ⟨t, _, _, eq⟩ := State.rewriteLive_eq (n := n) (y := y) distinct known
  rw [eq]
  split
  · rw [State.judgeScene_at?]
    simp only [other, if_false, Option.map_id']
  · rfl

/-- The rewritten scene itself at the end (R90, R91, R93). -/
theorem State.rewriteLive_own_scene (order : s.TablesInOrder) (hy : Table.at? s.scenes n = some y)
    (live : 0 < s.holds (.scene n)) :
    let placed : Prop := ∃ e ∈ d.entries, ¬ y.definition.Keeps d e
    let refused : Prop := ∃ e ∈ d.entries, ¬ y.definition.Keeps d e ∧
      (s.place e.1 (y.rewriteClaim n d e.2)).2 = .refused
    let held := (s.rewriteLive n y d).holds (.scene n)
    ∃ z, Table.at? (s.rewriteLive n y d).scenes n = some z ∧ z.definition = d ∧
      (refused → z.partialMark = true ∧ z.displacedMark = y.displacedMark) ∧
      (placed → ¬ refused → z.partialMark = false ∧
        (z.displacedMark = true ↔ y.displacedMark = true ∧ held ≠ d.entries.length)) ∧
      (¬ placed → z.partialMark = y.partialMark ∧ z.displacedMark = y.displacedMark) ∧
      (0 < held → z.liveTier = y.liveTier ∧ z.recaller = y.recaller) ∧
      (held = 0 → z.liveTier = none ∧ z.recaller = none) := by
  intro placed refused held
  have holds : held = (s.rewriteMoved n y d).holds (.scene n) :=
    State.holds_congr (State.rewriteLive_circuits distinct known) _
  obtain ⟨t, any, refuses, eq⟩ := State.rewriteLive_eq (n := n) (y := y) distinct known
  obtain ⟨mark, kept, own⟩ := State.rewriteMoved_own_scene (d := d) order hy live
  rw [← holds] at own
  rw [eq]
  by_cases place : placed
  · rw [if_pos (any.2 place), State.judgeScene_at?, own, Option.map_some, if_pos rfl, ← holds]
    refine ⟨_, rfl, ?_⟩
    by_cases refuse : refused
    · rw [refuses.2 refuse]
      by_cases zero : held = 0 <;> simp [Scene.judged, Scene.ended, zero, refuse, place, Nat.pos_iff_ne_zero]
    · rw [Bool.eq_false_iff.2 (refuses.not.2 refuse)]
      by_cases zero : held = 0 <;> simp [Scene.judged, Scene.ended, zero, refuse, place, Nat.pos_iff_ne_zero]
  · have refuse : ¬ refused := fun ⟨e, mem, changed, _⟩ => place ⟨e, mem, changed⟩
    have same : mark = y.partialMark := kept fun e mem => by_contra fun changed => place ⟨e, mem, changed⟩
    rw [if_neg (any.not.2 place), own]
    refine ⟨_, rfl, ?_⟩
    by_cases zero : held = 0 <;> simp [Scene.ended, zero, refuse, place, same, Nat.pos_iff_ne_zero]

/-- What a rewrite of a live scene leaves (R90, R93). -/
theorem State.rewriteLive_rewritten (sound : s.ListsSound) (order : s.TablesInOrder)
    (hy : Table.at? s.scenes n = some y) (live : 0 < s.holds (.scene n)) :
    s.Rewritten (s.rewriteLive n y d) n y d := by
  have circuits := State.rewriteLive_circuits (n := n) (y := y) distinct known
  have stays {c : Nat} (mem : c ∈ d.entries.map Prod.fst) : c ∉ rewriteDrops y.definition d :=
    fun dropped => (mem_rewriteDrops.1 dropped).2 mem
  refine ⟨fun e mem kept => ?_, fun e mem changed => ?_, fun c out => ?_, fun b => ?_, fun _ m other =>
    ⟨fun absent => ?_, fun w hw => ?_⟩, State.rewriteLive_own_scene distinct known order hy live⟩
  · rw [circuits]
    exact State.rewriteMoved_at?_of_not_placed sound (stays (List.mem_map_of_mem mem))
      (Scene.not_mem_rewriting_ids distinct mem kept)
  · rw [circuits]
    exact State.rewriteMoved_at?_of_placed sound distinct mem changed
  · rw [circuits]
    split
    next old => exact State.rewriteMoved_at?_of_dropped sound (mem_rewriteDrops.2 ⟨old, out⟩)
    next new =>
      exact State.rewriteMoved_at?_of_not_placed sound (fun dropped => new (mem_rewriteDrops.1 dropped).1)
        fun placed => out (Scene.rewriting_ids_subset placed)
  · rw [State.rewriteLive_bindings distinct known]
    have displaced := State.exists_rewriting_verdict (s := s) (y := y) (n := n) (d := d) (P := (·.Displaces (.binding b)))
    rw [← State.redefined_verdicts (n := n) (d := d)] at displaced
    exact ⟨fun h => State.placeEach_displaced_binding (Scene.rewriting_nodup distinct) Scene.rewriting_origin (displaced.2 h),
      fun h => State.placeEach_kept_binding (Scene.rewriting_nodup distinct) Scene.rewriting_origin (displaced.not.2 h)⟩
  · rw [State.rewriteLive_scenes_ne distinct known other]
    exact State.rewriteMoved_scene_of_none other absent
  · rw [State.rewriteLive_scenes_ne distinct known other, State.holds_congr circuits]
    obtain ⟨z, hz, after⟩ := State.rewriteMoved_other_scene (y := y) order.circuits distinct other hw
    rw [State.exists_rewriting_verdict] at after
    exact ⟨z, hz, after⟩

end

end Sys2Proof.Machine
end

section
/-! SUPPORT. WriteScene and DeleteScene: their checks in order and what is done when they pass (R86, R87, R93, R94). -/

namespace Sys2Proof.Machine

/-! ## The entries of a scene body -/

theorem rising_pairwise {l : List Nat} (h : rising l = true) : l.Pairwise (· < ·) := by
  rw [← List.isChain_iff_pairwise]
  induction l with
  | nil => exact .nil
  | cons a l ih =>
    cases l with
    | nil => exact .singleton a
    | cons b l =>
      obtain ⟨less, rest⟩ := Bool.and_eq_true_iff.1 h
      exact .cons_cons (of_decide_eq_true less) (ih rest)

/-- A scene that decodes names each circuit once, in rising order (R86). -/
theorem decodeScene_sorted {body : List Byte} {n : Nat} {d : SceneDef} (read : decodeScene body = .ok (n, d)) :
    (d.entries.map Prod.fst).Pairwise (· < ·) := by
  unfold decodeScene at read
  split at read
  next id ih il oh ol count rest =>
    cases entries : decodeEntries rest with
    | none => simp [entries] at read
    | some es =>
      simp only [entries] at read
      split at read
      · cases read
      next sound =>
        split at read
        · obtain ⟨_, rfl⟩ := Prod.mk.inj (Parsed.ok.inj read)
          exact rising_pairwise (by_contra fun h => sound (.inr (.inr h)))
        · cases read
  · cases read

/-! ## WriteScene -/

/-- What WriteScene does once its checks pass: a live scene is rewritten, another defined (R87, R93). -/
def State.sceneWritten (s : State) (n : Nat) (d : SceneDef) : State :=
  match Table.at? s.scenes n with
  | some x => if s.live n then s.rewriteLive n x d else s.withScenes (Table.put s.scenes n (.define d))
  | none => s.withScenes (Table.put s.scenes n (.define d))

theorem writeScene_busySaving {s : State} {body : List Byte} (saving : s.saving.isSome = true) :
    writeScene body s = .refuse .busySaving s := State.parsed_of_saving saving ..

section
variable {s : State} {body : List Byte} (idle : s.saving = none)
include idle

theorem writeScene_badRequest (malformed : decodeScene body = .malformed) : writeScene body s = .refuse .badRequest s := by
  rw [writeScene, malformed, State.parsed_malformed idle]

theorem writeScene_outOfRange (out : decodeScene body = .outOfRange) : writeScene body s = .refuse .outOfRange s := by
  rw [writeScene, out, State.parsed_outOfRange idle]

variable {n : Nat} {d : SceneDef} (read : decodeScene body = .ok (n, d))
include read

/-- The last two checks of WriteScene (R86). -/
theorem writeScene_of_decoded : writeScene body s =
    s.inOrder
      [(d.entries.any fun e => (Table.at? s.circuits e.1).isNone, .noSuch),
        (decide (2048 < s.poolInUse - ((Table.at? s.scenes n).map fun x => x.definition.entries.length).getD 0 +
          d.entries.length), .full)]
      (.done (s.sceneWritten n d)) := by
  rw [writeScene, read, State.parsed_ok idle]
  rfl

theorem writeScene_noSuch (unknown : ∃ e ∈ d.entries, Table.at? s.circuits e.1 = none) :
    writeScene body s = .refuse .noSuch s := by
  have check : (d.entries.any fun e => (Table.at? s.circuits e.1).isNone) = true := by simpa using unknown
  rw [writeScene_of_decoded idle read, check, State.inOrder_cons_true]

variable (known : ¬ ∃ e ∈ d.entries, Table.at? s.circuits e.1 = none)
include known

/-- The check on the pool, where every entry's circuit is configured (R85, R86). -/
theorem writeScene_of_known : writeScene body s =
    s.inOrder [(decide (2048 < s.poolInUse - ((Table.at? s.scenes n).map fun x => x.definition.entries.length).getD 0 +
      d.entries.length), .full)] (.done (s.sceneWritten n d)) := by
  have check : (d.entries.any fun e => (Table.at? s.circuits e.1).isNone) = false := by
    rw [← Bool.not_eq_true, List.any_eq_true]
    simpa using known
  rw [writeScene_of_decoded idle read, check, State.inOrder_cons_false]

theorem writeScene_full (many : 2048 < s.poolInUse -
    ((Table.at? s.scenes n).map fun x => x.definition.entries.length).getD 0 + d.entries.length) :
    writeScene body s = .refuse .full s := by
  rw [writeScene_of_known idle read known, decide_eq_true many, State.inOrder_cons_true]

theorem writeScene_taken (few : s.poolInUse -
    ((Table.at? s.scenes n).map fun x => x.definition.entries.length).getD 0 + d.entries.length ≤ 2048) :
    writeScene body s = .done (s.sceneWritten n d) := by
  rw [writeScene_of_known idle read known, decide_eq_false (Nat.not_lt.2 few), State.inOrder_cons_false, State.inOrder_nil]

end

section
variable {s : State} {n : Nat} {d : SceneDef}

/-- A scene that is undefined or not live is defined (R87). -/
theorem State.sceneWritten_of_not_live (idle : Table.at? s.scenes n = none ∨ s.holds (.scene n) = 0) :
    s.sceneWritten n d = s.withScenes (Table.put s.scenes n (.define d)) := by
  unfold State.sceneWritten
  split
  next y hy =>
    have none_held : s.holds (.scene n) = 0 := idle.resolve_left (by simp [hy])
    exact if_neg (by simp [State.live, none_held])
  · rfl

/-- A live scene is rewritten (R93). -/
theorem State.sceneWritten_of_live {y : Scene} (hy : Table.at? s.scenes n = some y) (live : 0 < s.holds (.scene n)) :
    s.sceneWritten n d = s.rewriteLive n y d := by
  unfold State.sceneWritten
  rw [hy]
  exact if_pos (decide_eq_true live)

@[simp] theorem State.withExchange_rewriteLive (s : State) (a : List Byte) (h : HostSlot) (f : Option Firing) (n : Nat)
    (y : Scene) (d : SceneDef) :
    (s.withExchange a h f).rewriteLive n y d = (s.rewriteLive n y d).withExchange a h f := by
  simp only [State.rewriteLive, State.withExchange_onScene, State.withExchange_placeAll]
  rw [State.withExchange_foldl _ a h f (g := fun s c => s.remove true (.scene n) c) (by simp)]
  split <;> rfl

end

/-! ## DeleteScene -/

/-- A binding names a scene (R94). -/
def State.SceneNamed (s : State) (n : Nat) : Prop := ∃ e ∈ s.bindings, e.2.record.action.sceneTarget? = some n

/-- The state once a scene has been released and its record dropped (R94). -/
def State.sceneDeleted (s : State) (n : Nat) : State :=
  (s.releaseScene n).withScenes (Table.remove (s.releaseScene n).scenes n)

section
variable {s : State} {n : Byte}

/-- The checks of DeleteScene, in order (R94). -/
theorem deleteScene_eq (n : Byte) (s : State) : deleteScene [n] s =
    s.inOrder
      [(s.saving.isSome, .busySaving), (!within 1 96 n.toNat, .outOfRange), ((Table.at? s.scenes n.toNat).isNone, .noSuch),
        (s.bindings.any fun e => e.2.record.action.sceneTarget? == some n.toNat, .inUse)]
      (.done (s.sceneDeleted n.toNat)) := rfl

theorem deleteScene_busySaving (saving : s.saving.isSome = true) : deleteScene [n] s = .refuse .busySaving s := by
  rw [deleteScene_eq, saving, State.inOrder_cons_true]

section
variable (idle : s.saving = none)
include idle

theorem deleteScene_outOfRange (out : n = 0 ∨ 96 < n.toNat) : deleteScene [n] s = .refuse .outOfRange s := by
  rw [deleteScene_eq, idle, Option.isSome_none, State.inOrder_cons_false,
    within_eq_false.2 (out.imp_left byte_eq_zero_iff.1), Bool.not_false, State.inOrder_cons_true]

variable (h1 : n ≠ 0) (h2 : n.toNat ≤ 96)
include h1 h2

/-- The checks left where no save runs and the scene is in range. -/
theorem deleteScene_of_inRange : deleteScene [n] s =
    s.inOrder
      [((Table.at? s.scenes n.toNat).isNone, .noSuch),
        (s.bindings.any fun e => e.2.record.action.sceneTarget? == some n.toNat, .inUse)]
      (.done (s.sceneDeleted n.toNat)) := by
  rw [deleteScene_eq, idle, Option.isSome_none, State.inOrder_cons_false, sceneId_within h1 h2, Bool.not_true,
    State.inOrder_cons_false]

theorem deleteScene_noSuch (absent : Table.at? s.scenes n.toNat = none) : deleteScene [n] s = .refuse .noSuch s := by
  rw [deleteScene_of_inRange idle h1 h2, absent, Option.isNone_none, State.inOrder_cons_true]

variable {y : Scene} (hy : Table.at? s.scenes n.toNat = some y)
include hy

theorem deleteScene_inUse (named : s.SceneNamed n.toNat) : deleteScene [n] s = .refuse .inUse s := by
  have check : (s.bindings.any fun e => e.2.record.action.sceneTarget? == some n.toNat) = true := by
    simpa [State.SceneNamed] using named
  rw [deleteScene_of_inRange idle h1 h2, hy, Option.isNone_some, State.inOrder_cons_false, check, State.inOrder_cons_true]

theorem deleteScene_taken (unnamed : ¬ s.SceneNamed n.toNat) : deleteScene [n] s = .done (s.sceneDeleted n.toNat) := by
  have check : (s.bindings.any fun e => e.2.record.action.sceneTarget? == some n.toNat) = false := by
    rw [← Bool.not_eq_true, List.any_eq_true]
    simpa [State.SceneNamed] using unnamed
  rw [deleteScene_of_inRange idle h1 h2, hy, Option.isNone_some, State.inOrder_cons_false, check, State.inOrder_cons_false,
    State.inOrder_nil]

end

end

theorem State.releaseScene_scenes_ne (s : State) {n m : Nat} (other : m ≠ n) :
    Table.at? (s.releaseScene n).scenes m = Table.at? s.scenes m := by
  cases hy : Table.at? s.scenes n with
  | none => rw [State.releaseScene, hy]
  | some y => rw [State.releaseScene_eq hy, State.removeEach_scenes_at?_ne s true other]

theorem State.sceneDeleted_onlyClaims (s : State) (n : Nat) : s.OnlyClaims (s.sceneDeleted n) :=
  (s.releaseScene_onlyClaims n).withScenes _

theorem State.sceneDeleted_scenes_at? (s : State) (n m : Nat) :
    Table.at? (s.sceneDeleted n).scenes m = if m = n then none else Table.at? s.scenes m := by
  rw [State.sceneDeleted, State.withScenes_scenes, Table.at?_remove]
  split
  · rfl
  · exact s.releaseScene_scenes_ne ‹_›

@[simp] theorem State.withExchange_sceneDeleted (s : State) (a : List Byte) (h : HostSlot) (f : Option Firing) (n : Nat) :
    (s.withExchange a h f).sceneDeleted n = (s.sceneDeleted n).withExchange a h f := by
  rw [State.sceneDeleted, State.withExchange_releaseScene]
  rfl

end Sys2Proof.Machine
end

section
/-! The definition and the deletion of a scene (O36). -/

namespace Sys2Proof.Machine

/-- Settles O36: the checks in order; a live scene's rewrite by `rewriteLive_rewritten`, and the deletion by its release. -/
theorem writeSceneAndDeleteScene : Obligations.WriteSceneAndDeleteScene := by
  unfold Obligations.WriteSceneAndDeleteScene
  intro s tag take
  refine ⟨fun body short => ?_, fun n => ?_⟩
  · intro c refused
    have answers {r : Result} {t : State} (hw : writeScene body (s.taken 0x30 tag body) =
        .answered { result := r } (t.taken 0x30 tag body)) : exec c s = .next (t.answered body.length tag r false []) :=
      congrArg Host.Outcome.next (take.answered short hw)
    refine ⟨fun saving => answers (writeScene_busySaving saving), fun idle =>
      ⟨fun malformed => answers (writeScene_badRequest idle malformed), fun out => answers (writeScene_outOfRange idle out),
        fun n d read => ⟨fun unknown => answers (writeScene_noSuch idle read unknown),
          fun known many => answers (writeScene_full idle read known many), fun known few =>
            ⟨fun dark => ?_, fun y hy live => ?_⟩⟩⟩⟩
    · exact answers (t := s.withScenes (Table.put s.scenes n (.define d)))
        ((writeScene_taken (s := s.taken ..) idle read known few).trans
          (congrArg Work.done (State.sceneWritten_of_not_live (s := s.taken ..) dark)))
    · have distinct : (d.entries.map Prod.fst).Nodup := (decodeScene_sorted read).imp Nat.ne_of_lt
      have configured : ∀ e ∈ d.entries, Table.at? s.circuits e.1 ≠ none := fun e mem absent => known ⟨e, mem, absent⟩
      have only : s.OnlyClaims (s.rewriteLive n y d) := State.rewriteLive_onlyClaims distinct configured
      refine ⟨s.rewriteLive n y d, answers ((writeScene_taken (s := s.taken ..) idle read known few).trans
        (congrArg Work.done ?_)), only, fun sound order => State.rewriteLive_rewritten distinct configured sound order hy live⟩
      exact (State.sceneWritten_of_live (s := s.taken ..) hy live).trans
        (only.taken_comm (f := fun s => s.rewriteLive n y d) (by simp) ..)
  · intro refused named
    have answers {r : Result} {t : State} (hw : deleteScene [n] (s.taken 0x32 tag [n]) =
        .answered { result := r } (t.taken 0x32 tag [n])) :
        exec (.deleteScene tag [n]) s = .next (t.answered 1 tag r false []) :=
      congrArg Host.Outcome.next (take.answered (by simp) hw)
    refine ⟨fun saving => answers (deleteScene_busySaving saving), fun idle out => answers (deleteScene_outOfRange idle out),
      fun idle h1 h2 absent => answers (deleteScene_noSuch idle h1 h2 absent), fun y idle h1 h2 hy =>
        ⟨fun named => answers (deleteScene_inUse idle h1 h2 hy named), fun unnamed => ?_⟩⟩
    have only := s.sceneDeleted_onlyClaims n.toNat
    have scenes := s.sceneDeleted_scenes_at? n.toNat
    refine ⟨s.sceneDeleted n.toNat, answers ((deleteScene_taken (s := s.taken ..) idle h1 h2 hy unnamed).trans
      (congrArg Work.done (only.taken_comm (f := fun s => s.sceneDeleted n.toNat) (by simp) ..))), only,
      (scenes _).trans (if_pos rfl), s.releaseScene_bindings _, fun m other => (scenes m).trans (if_neg other),
      fun sound e mem x hx => State.releaseScene_gone hy sound mem hx⟩

end Sys2Proof.Machine
end

section
/-! SUPPORT. The pickup of a fader binding: its reference, and what an offered MOVE does captured and not captured (R108 to
R110). -/

namespace Sys2Proof.Machine

/-! ## The reference -/

/-- The level of a binding's own contribution on a circuit, if it has one there (R109). -/
def Circuit.ownLevel (b : Nat) (y : Circuit) : Option Nat :=
  (y.claims.find? fun k => k.origin == .binding b).map (·.level)

theorem Circuit.ownLevel_eq_none {b : Nat} {y : Circuit} (lacks : ∀ k ∈ y.claims, k.origin ≠ .binding b) :
    y.ownLevel b = none := by
  rw [Circuit.ownLevel, List.find?_eq_none.2 (by simpa using lacks), Option.map_none]

/-- A sound list has one contribution of the binding at most, so the one found is any that is there. -/
theorem Circuit.ownLevel_of_mem {b : Nat} {y : Circuit} (sound : ListSound y.claims) {k : Contribution}
    (mem : k ∈ y.claims) (own : k.origin = .binding b) : y.ownLevel b = some k.level := by
  have present : (y.claims.find? fun k => k.origin == .binding b).isSome := List.find?_isSome.2 ⟨k, mem, by simpa using own⟩
  obtain ⟨k', found⟩ := Option.isSome_iff_exists.1 present
  have own' : k'.origin = .binding b := by simpa using List.find?_some found
  obtain rfl := sound.eq_of_origin mem (List.mem_of_find?_eq_some found) (own.trans own'.symm)
  rw [Circuit.ownLevel, found, Option.map_some]

namespace State

variable {s : State} {b : Nat} {x : Binding} {p : Option Nat} {q : Nat}

theorem reference_followMaster {z : Nat} {zone : Zone} (hz : Table.at? s.zones z = some zone) :
    s.reference b (.followMaster z) = some zone.master := by simp only [reference, hz, Option.map_some]

/-- The circuits a FOLLOW_LEVEL binding reaches are asked in turn for its own level, and failing all the lowest gives its raw
value. -/
theorem reference_followLevel (area : Area) (tier fade : Nat) : s.reference b (.followLevel area tier fade) =
    (((s.reached area).filterMap (Table.at? s.circuits)).findSome? (Circuit.ownLevel b)).or
      (((s.reached area).filterMap (Table.at? s.circuits)).head?.map (·.resolved.raw)) := by
  rw [← List.head?_filterMap]
  unfold reference Circuit.ownLevel
  dsimp only
  generalize (s.reached area).filterMap (Table.at? s.circuits) = circuits
  generalize circuits.filterMap _ = own
  match own, circuits with
  | _ :: _, _ | [], _ :: _ | [], [] => rfl

/-- The lowest circuit reached that has a contribution of the binding gives the reference (R109). -/
theorem reference_own (sound : s.ListsSound) {area : Area} {tier fade : Nat} {before rest : List Circuit} {y : Circuit}
    (reached : (s.reached area).filterMap (Table.at? s.circuits) = before ++ y :: rest)
    (lack : ∀ w ∈ before, ∀ k ∈ w.claims, k.origin ≠ .binding b) {k : Contribution} (mem : k ∈ y.claims)
    (own : k.origin = .binding b) : s.reference b (.followLevel area tier fade) = some k.level := by
  have listed : y ∈ (s.reached area).filterMap (Table.at? s.circuits) := by simp [reached]
  obtain ⟨c, -, hy⟩ := List.mem_filterMap.1 listed
  have passed : before.findSome? (Circuit.ownLevel b) = none :=
    List.findSome?_eq_none_iff.2 fun w hw => Circuit.ownLevel_eq_none (lack w hw)
  rw [reference_followLevel, reached, List.findSome?_append, passed, Option.none_or,
    List.findSome?_cons_of_isSome] <;> simp [Circuit.ownLevel_of_mem (sound.at? hy) mem own]

/-- With no contribution of the binding on any circuit reached, the lowest gives its raw value (R109). -/
theorem reference_raw {area : Area} {tier fade : Nat} {y : Circuit} {rest : List Circuit}
    (reached : (s.reached area).filterMap (Table.at? s.circuits) = y :: rest)
    (lack : ∀ w ∈ y :: rest, ∀ k ∈ w.claims, k.origin ≠ .binding b) :
    s.reference b (.followLevel area tier fade) = some y.resolved.raw := by
  have passed : (y :: rest).findSome? (Circuit.ownLevel b) = none :=
    List.findSome?_eq_none_iff.2 fun w hw => Circuit.ownLevel_eq_none (lack w hw)
  rw [reference_followLevel, reached, passed, Option.none_or, List.head?_cons, Option.map_some]

theorem reference_of_nil {area : Area} {tier fade : Nat}
    (empty : (s.reached area).filterMap (Table.at? s.circuits) = []) :
    s.reference b (.followLevel area tier fade) = none := by
  rw [reference_followLevel, empty]
  rfl

end State

/-! ## Capture -/

theorem captures_iff {p : Option Nat} {q r : Nat} : captures p q r = true ↔
    q = r ∨ ∃ old, p = some old ∧ (old < r ∧ r < q ∨ q < r ∧ r < old) := by
  cases p <;> simp [captures]

namespace State

variable {s : State} {b : Nat} {x : Binding} {p : Option Nat} {q : Nat}

theorem perform_followMaster_station {key : StationInput} {z : Nat} (h : x.record.action = .followMaster z) :
    s.perform b x (.station key) p q = s.pickup b x.captured (.followMaster z) p q := by simp only [perform, h]

theorem perform_followLevel_station {key : StationInput} {area : Area} {tier fade : Nat}
    (h : x.record.action = .followLevel area tier fade) :
    s.perform b x (.station key) p q = s.pickup b x.captured (.followLevel area tier fade) p q := by
  simp only [perform, h]

theorem pickup_captured {action : Action} : s.pickup b true action p q = s.applyPosition b q action := if_pos rfl

/-- With no reference there is nothing to meet (R109). -/
theorem pickup_of_none {action : Action} (absent : s.reference b action = none) : s.pickup b false action p q = s := by
  simp only [pickup, absent, Bool.false_eq_true, if_false]

/-- A fader that meets or crosses the reference captures its binding, whose record in the table is then known. -/
theorem pickup_meets (order : Table.InOrder s.bindings) (hb : Table.at? s.bindings b = some x) {action : Action} {r : Nat}
    (reference : s.reference b action = some r) (meets : captures p q r = true) : s.pickup b false action p q =
      (s.withBindings (Table.adjust s.bindings b fun _ => { x with captured := true })).applyPosition b q action := by
  simp only [pickup, reference, if_pos meets, onBinding, Table.adjust_const order hb, Bool.false_eq_true,
    if_false]

theorem pickup_misses {action : Action} {r : Nat} (reference : s.reference b action = some r)
    (misses : ¬ captures p q r = true) : s.pickup b false action p q = s := by
  simp only [pickup, reference, Bool.false_eq_true, if_false, if_neg misses]

/-- An event of a FADER record that carries a position is a move of the fader (R98, R108). -/
theorem stationEvent_fader {key : StationInput} {r : KeyRecord} (found : s.key? key = some r) (kind : r.inputClass = .fader)
    (seq position : Nat) (stamp : Stamp) :
    s.stationEvent key.line key.address ⟨seq, key.input, .move position, stamp⟩ = s.faderMove key r position := by
  unfold stationEvent
  simp only [found, kind]

end State

end Sys2Proof.Machine
end

section
/-! The pickup of faders (O56). -/

namespace Sys2Proof.Machine

/-- Settles O56: the captured mark and `captures` at the reference pick the branch of a pickup, and a position applied is a
master change or a firing that places. -/
theorem fadersCaptureAndFollow : Obligations.FadersCaptureAndFollow := by
  unfold Obligations.FadersCaptureAndFollow
  intro s b x key p q idle sound tables hb t own lacks meets x' s'
  have order := tables.circuits
  have acts : t = s.perform b x (.station key) p q := State.fire_eq_perform idle b x (.station key) p (some q)
  have hb' : Table.at? s'.bindings b = some x' := by simp [s', hb]
  refine ⟨fun z zone ha hz => ?_, fun area tier fade ha => ?_, fun r seq position stamp found kind =>
    State.stationEvent_fader found kind seq position stamp⟩
  · have reference := State.reference_followMaster (s := s) (b := b) hz
    rw [acts, State.perform_followMaster_station ha]
    refine ⟨fun captured => ?_, fun free met => ?_, fun free missed => ?_⟩
    · rw [captured, State.pickup_captured]
      exact State.masterChange_masterChanged order hz q 0 (some b)
    · rw [free, State.pickup_meets tables.bindings hb reference (captures_iff.2 met)]
      exact State.masterChange_masterChanged (s := s') order hz q 0 (some b)
    · rw [free, State.pickup_misses reference (captures_iff.not.2 missed)]
  · intro claim circuits reference
    have known (r : Nat) (h : reference r) : s.reference b (.followLevel area tier fade) = some r := by
      rcases h with ⟨before, y, rest, reached, ⟨k, mem, hk, rfl⟩, lack⟩ | ⟨y, rest, reached, rfl, lack⟩
      · exact State.reference_own sound reached lack mem hk
      · exact State.reference_raw reached (reached ▸ lack)
    rw [acts, State.perform_followLevel_station ha]
    refine ⟨fun captured => ?_, fun free r hr met => ?_, fun free r hr missed => ?_, fun free empty => ?_⟩
    · rw [captured, State.pickup_captured]
      exact State.firePlacing_fired order hb area rfl rfl
    · rw [free, State.pickup_meets tables.bindings hb (known r hr) (captures_iff.2 met)]
      exact State.firePlacing_fired (s := s') order hb' area rfl rfl
    · rw [free, State.pickup_misses (known r hr) (captures_iff.not.2 missed)]
    · rw [free, State.pickup_of_none (State.reference_of_nil empty)]

end Sys2Proof.Machine
end

section
/-! SUPPORT. A line unit as a part of the state: a change to one unit after another, and the events of a line in a part that
runs. -/

namespace Sys2Proof.Machine

namespace State

variable {s : State} {l m : Line}

@[simp] theorem setUnit_unit (s : State) (l : Line) : s.setUnit l (s.unit l) = s := by cases l <;> rfl

@[simp] theorem setUnit_setUnit (s : State) (l : Line) (u v : LineUnit) : (s.setUnit l u).setUnit l v = s.setUnit l v := by
  cases l <;> rfl

@[simp] theorem raise_unit (s : State) (n : Notice) (l : Line) : (s.raise n).unit l = s.unit l := by cases l <;> rfl

theorem setUnit_raise_lines (s : State) (l : Line) (u : LineUnit) :
    (s.setUnit l u).raise .lines = { s.setUnit l u with notices := { s.notices with lines := true } } := by cases l <;> rfl

end State

/-! ## The events of a line in a part that runs -/

section
variable {s : State} (running : s.power = .running) (l : Line)
include running

theorem exec_restartListenExpiry : exec (.restartListenExpiry l) s = .next (s.listenExpiry l) :=
  congrArg Host.Outcome.next (State.whileRunning_of_running running _)

theorem exec_slotStart : exec (.slotStart l) s = .next (s.startSlot l) :=
  congrArg Host.Outcome.next (State.whileRunning_of_running running _)

theorem exec_markedCharacterSent (echo : Bool) : exec (.markedCharacterSent l echo) s = .next (s.markedSent l echo) :=
  congrArg Host.Outcome.next (State.whileRunning_of_running running _)

theorem exec_stationAnswer (heard : List Heard) : exec (.stationAnswer l heard) s = .next (s.answerHeard l heard) :=
  congrArg Host.Outcome.next (State.whileRunning_of_running running _)

theorem exec_snapshotAnswer (heard : List Heard) : exec (.snapshotAnswer l heard) s = .next (s.snapshotHeard l heard) :=
  congrArg Host.Outcome.next (State.whileRunning_of_running running _)

theorem exec_answerWindowExpiry : exec (.answerWindowExpiry l) s = .next (s.windowExpiry l) :=
  congrArg Host.Outcome.next (State.whileRunning_of_running running _)

theorem exec_foreignCharacter : exec (.foreignCharacter l) s = .next (s.foreignHeard l) :=
  congrArg Host.Outcome.next (State.whileRunning_of_running running _)

theorem exec_probeTimerExpiry : exec (.probeTimerExpiry l) s = .next (s.probeExpiry l) :=
  congrArg Host.Outcome.next (State.whileRunning_of_running running _)

theorem exec_healTimerExpiry : exec (.healTimerExpiry l) s = .next (s.healExpiry l) :=
  congrArg Host.Outcome.next (State.whileRunning_of_running running _)

theorem exec_stationFrameSent : exec (.stationFrameSent l) s = .next (s.frameSent l) :=
  congrArg Host.Outcome.next (State.whileRunning_of_running running _)

end

end Sys2Proof.Machine
end

section
/-! SUPPORT. Echoes, the entry into SPLIT, the heal, and the probe and heal timers (R120, R126, R127). -/

namespace Sys2Proof.Machine

/-- A line unit that has entered SPLIT (R126). -/
def LineUnit.split (u : LineUnit) : LineUnit := { u with
  state := .split, continuity := 0, healTimer := some 2000, takenOver := true
  stations := Table.mapAll u.stations fun _ st => { st with reach := none }
  slot := u.slot.map fun x => { x with otherSide := match x.carries with
    | .call _ | .survey _ => some (otherEnd x.side)
    | _ => x.otherSide } }

/-- A line unit that has healed (R127). -/
def LineUnit.healed (u : LineUnit) : LineUnit := { u with
  state := .intact, preferredInUse := u.preferred, active := u.preferred, healTimer := none, continuity := 0
  stations := Table.mapAll u.stations fun _ st => { st with reach := none } }

namespace State

section
variable (s : State) (l : Line)

theorem enterSplit_eq : s.enterSplit l = (s.setUnit l (s.unit l).split).raise .lines := by
  cases slot : (s.unit l).slot with
  | none => simp [enterSplit, onUnit, LineUnit.split, slot]
  | some x =>
    obtain ⟨carries, _, _, _, _, _⟩ := x
    cases carries <;> simp [enterSplit, onUnit, LineUnit.split, slot]

theorem heal_eq : s.heal l = (s.setUnit l (s.unit l).healed).raise .lines := rfl

end

/-! ## A marked character's echo -/

section
variable {s : State} {l : Line}

theorem markedSent_of_none (idle : (s.unit l).slot = none) (echo : Bool) : s.markedSent l echo = s := by
  simp only [markedSent, idle]

section
variable {x : Slot} (slot : (s.unit l).slot = some x)
include slot

theorem markedSent_of_sent (done : x.sending = []) (echo : Bool) : s.markedSent l echo = s := by
  simp [markedSent, slot, done]

section
variable (sending : x.sending ≠ [])
include sending

/-- In INTACT a heard echo clears the count, and a missed one raises it up to the third (R126). -/
theorem markedSent_of_intact (state : (s.unit l).state = .intact) (echo : Bool) : s.markedSent l echo =
    if echo then s.setUnit l { s.unit l with continuity := 0 }
    else if 2 ≤ (s.unit l).continuity then (s.setUnit l (s.unit l).split).raise .lines
    else s.setUnit l { s.unit l with continuity := (s.unit l).continuity + 1 } := by
  simp [markedSent, slot, sending, state, ← enterSplit_eq, onUnit]

/-- In SPLIT only the echo of a Continuity counts (R127). -/
theorem markedSent_of_split (state : (s.unit l).state = .split) (echo : Bool) : s.markedSent l echo =
    if x.carries ≠ .continuity then s
    else if echo = false then s.setUnit l { s.unit l with continuity := 0 }
    else if 2 ≤ (s.unit l).continuity then (s.setUnit l (s.unit l).healed).raise .lines
    else s.setUnit l { s.unit l with continuity := (s.unit l).continuity + 1 } := by
  simp [markedSent, slot, sending, state, ← heal_eq, onUnit]

end

end

/-! ## The timers of a line -/

theorem probeExpiry_of_stopped (stopped : (s.unit l).probeTimer = none) : s.probeExpiry l = s := by
  simp [probeExpiry, stopped]

theorem probeExpiry_of_running {n : Nat} (runs : (s.unit l).probeTimer = some n) (idle : (s.unit l).survey = none) :
    s.probeExpiry l = s.setUnit l { (s.unit l).addProbes with probeTimer := some 1000 } := by
  simp [probeExpiry, runs, onUnit, idle, LineUnit.addProbes]

theorem healExpiry_of_stopped (stopped : (s.unit l).healTimer = none) : s.healExpiry l = s := by
  simp [healExpiry, stopped]

theorem healExpiry_of_running {n : Nat} (runs : (s.unit l).healTimer = some n) (idle : (s.unit l).survey = none) :
    s.healExpiry l = s.setUnit l { s.unit l with healTimer := some 2000, continuityAsked := true } := by
  simp [healExpiry, runs, onUnit, idle]

end

end State

theorem StationState.probed_eq (x : StationState) : x.probed = (x == .expected || x == .missing || x == .mismatch) := by
  cases x <;> rfl

/-- The stations to be probed join the list in rising address (R120). -/
theorem LineUnit.addProbes_eq (u : LineUnit) : u.addProbes = { u with
    probeList := u.probeList ++ ((u.stations.filter fun e =>
      e.2.state == .expected || e.2.state == .missing || e.2.state == .mismatch).map Prod.fst).filter
        fun a => !u.probeList.contains a } := by
  simp only [LineUnit.addProbes, Table.idsWhere, StationState.probed_eq]

/-- Settles O42: the echo by the state of the line, and each expiry by whether its timer runs. -/
theorem echoesSplitAndHeal : Obligations.EchoesSplitAndHeal := by
  unfold Obligations.EchoesSplitAndHeal
  intro s l running u unknownReach
  simp only [exec_markedCharacterSent running, exec_probeTimerExpiry running, exec_healTimerExpiry running]
  refine ⟨fun idle echo => ?_, fun x slot done echo => ?_, fun x slot sending => ⟨fun intact => ?_, fun split other echo => ?_,
    fun split asked => ?_⟩, fun stopped => ?_, fun n runs idle => ?_, fun stopped => ?_, fun n runs idle => ?_⟩
  · rw [State.markedSent_of_none idle]
  · rw [State.markedSent_of_sent slot done]
  · simp only [State.markedSent_of_intact slot sending intact]
    refine ⟨rfl, fun few => ?_, fun many => ⟨u.split, ?_, rfl, rfl, rfl, rfl, fun a => ?_, rfl, ?_⟩⟩
    · rw [if_neg (by decide), if_neg (Nat.not_le.2 few)]
    · rw [if_neg (by decide), if_pos many, State.setUnit_raise_lines]
    · exact Table.at?_mapAll u.stations (fun _ st => { st with reach := none }) a
    · rw [LineUnit.split, slot]
      rfl
  · rw [State.markedSent_of_split slot sending split, if_pos other]
  · have only : ¬ x.carries ≠ .continuity := not_not.2 asked
    simp only [State.markedSent_of_split slot sending split, if_neg only]
    refine ⟨rfl, fun few => ?_, fun many => ⟨u.healed, ?_, rfl, rfl, rfl, rfl, rfl, fun a => ?_⟩⟩
    · rw [if_neg (by decide), if_neg (Nat.not_le.2 few)]
    · rw [if_neg (by decide), if_pos many, State.setUnit_raise_lines]
    · exact Table.at?_mapAll u.stations (fun _ st => { st with reach := none }) a
  · rw [State.probeExpiry_of_stopped stopped]
  · rw [State.probeExpiry_of_running runs idle, LineUnit.addProbes_eq]
  · rw [State.healExpiry_of_stopped stopped]
  · rw [State.healExpiry_of_running runs idle]

end Sys2Proof.Machine
end

section
/-! SUPPORT. What a slot carries: the order of the choices, the station called by turn, and the frames that follow from its
record (R120, R126, R127, R133, R134, R135). -/

namespace Sys2Proof.Machine

/-! ## The least of a rising list -/

theorem head?_eq_some_iff_of_rising {l : List Nat} (rise : l.Pairwise (· < ·)) {i : Nat} :
    l.head? = some i ↔ i ∈ l ∧ ∀ j ∈ l, i ≤ j := by
  cases l with
  | nil => simp
  | cons x rest =>
    have least : ∀ j ∈ x :: rest, x ≤ j :=
      List.forall_mem_cons.2 ⟨le_rfl, fun j hj => Nat.le_of_lt (List.rel_of_pairwise_cons rise hj)⟩
    rw [List.head?_cons, Option.some.injEq]
    constructor
    · rintro rfl
      exact ⟨List.mem_cons_self, least⟩
    · exact fun ⟨mem, low⟩ => Nat.le_antisymm (least i mem) (low x List.mem_cons_self)

/-- The first of a rising list from a number on, or its first: the least from there on, or the least of all where there is none
(R120). -/
theorem find?_or_head?_of_rising {l : List Nat} (rise : l.Pairwise (· < ·)) {n a : Nat}
    (found : (l.find? fun a => n ≤ a).or l.head? = some a) :
    a ∈ l ∧ (n ≤ a → ∀ b ∈ l, n ≤ b → a ≤ b) ∧ (a < n → ∀ b ∈ l, b < n ∧ a ≤ b) := by
  cases above : l.find? fun a => n ≤ a with
  | some x =>
    rw [above, Option.some_or, Option.some.injEq] at found
    subst found
    obtain ⟨high, before, after, rfl, below⟩ := List.find?_eq_some_iff_append.1 above
    refine ⟨by simp, fun _ b mem from_n => ?_, fun low => absurd (of_decide_eq_true high) (Nat.not_le.2 low)⟩
    rcases List.mem_append.1 mem with mem | mem
    · exact absurd from_n (by simpa using below b mem)
    · rcases List.mem_cons.1 mem with rfl | mem
      · exact le_rfl
      · exact Nat.le_of_lt (List.rel_of_pairwise_cons (List.pairwise_append.1 rise).2.1 mem)
  | none =>
    rw [above, Option.none_or, head?_eq_some_iff_of_rising rise] at found
    obtain ⟨mem, least⟩ := found
    have below : ∀ b ∈ l, b < n := fun b hb => by simpa using List.find?_eq_none.1 above b hb
    exact ⟨mem, fun high => absurd (below a mem) (Nat.not_lt.2 high), fun _ b hb => ⟨below b hb, least b hb⟩⟩

theorem Table.mem_idsWhere_iff {α : Type} {t : Table α} (order : Table.InOrder t) {p : α → Bool} {i : Nat} :
    i ∈ Table.idsWhere t p ↔ ∃ x, Table.at? t i = some x ∧ p x = true := by
  rw [Table.mem_idsWhere]
  exact exists_congr fun x => and_congr_left fun _ => ⟨Table.at?_of_mem order, Table.mem_of_at?⟩

/-! ## The station that is called -/

theorem StationState.polled_iff {x : StationState} : x.polled = true ↔ x = .online ∨ x = .joining := by
  cases x <;> simp [StationState.polled]

theorem StationState.probed_iff {x : StationState} : x.probed = true ↔ x = .expected ∨ x = .missing ∨ x = .mismatch := by
  cases x <;> simp [StationState.probed]

namespace LineUnit

variable {u : LineUnit}

theorem nextPoll_eq_none (order : Table.InOrder u.stations) :
    u.nextPoll = none ↔ ∀ a st, Table.at? u.stations a = some st → st.state.polled = false := by
  have empty : u.nextPoll = none ↔ ∀ a, a ∉ Table.idsWhere u.stations fun st => st.state.polled := by
    rw [nextPoll, Option.or_eq_none_iff, List.head?_eq_none_iff, List.eq_nil_iff_forall_not_mem, and_iff_right_iff_imp]
    exact fun none => List.find?_eq_none.2 fun a mem => absurd mem (none a)
  rw [empty]
  simp [Table.mem_idsWhere_iff order]

/-- The next polled call goes to the lowest of the polled set from the next polled address on, or to its lowest (R120). -/
theorem nextPoll_eq_some (order : Table.InOrder u.stations) {a : Nat} (found : u.nextPoll = some a) :
    let polled (a : Nat) : Prop := ∃ st, Table.at? u.stations a = some st ∧ st.state.polled = true
    polled a ∧ (u.nextPolled ≤ a → ∀ b, polled b → u.nextPolled ≤ b → a ≤ b) ∧
      (a < u.nextPolled → ∀ b, polled b → b < u.nextPolled ∧ a ≤ b) := by
  have rise := Table.inOrder_idsWhere order fun st : Station => st.state.polled
  simpa only [Table.mem_idsWhere_iff order] using find?_or_head?_of_rising rise found

/-- The next probe call goes to the first of the probe list that is to be probed (R120). -/
theorem nextProbe_eq_some {a : Nat} : u.nextProbe = some a ↔ ∃ before rest, u.probeList = before ++ a :: rest ∧
    (∃ st, Table.at? u.stations a = some st ∧ st.state.probed = true) ∧
    ∀ b ∈ before, ¬ ∃ st, Table.at? u.stations b = some st ∧ st.state.probed = true := by
  rw [nextProbe, List.find?_eq_some_iff_append]
  simp only [Option.any_eq_true, Bool.not_eq_true', ← Bool.not_eq_true]
  constructor
  · exact fun ⟨here, before, rest, eq, others⟩ => ⟨before, rest, eq, here, others⟩
  · exact fun ⟨before, rest, eq, here, others⟩ => ⟨here, before, rest, eq, others⟩

theorem nextProbe_eq_none : u.nextProbe = none ↔
    ∀ a ∈ u.probeList, ¬ ∃ st, Table.at? u.stations a = some st ∧ st.state.probed = true := by
  rw [nextProbe, List.find?_eq_none]
  simp only [Option.any_eq_true]

end LineUnit

/-! ## The frames of a station call -/

/-- What a station call carries: the frame, the lamp states sent with it, the group it queries, and its bytes (R120, R121). -/
structure CallPlan where
  frame : CallFrame
  lampsSent : Option (List (Nat × LampState))
  query : Option Nat
  content : List (List Byte)

namespace State

/-- A station record whose desired lamps have been derived (R134). -/
def derived (s : State) (l : Line) (a : Nat) (st : Station) : Station :=
  { st with lamps := st.lamps.map fun p => { p with desired := s.desiredLamp ⟨l, a, p.key⟩ } }

/-- What the record of a station calls for (R120, R121, R124, R135). -/
def callPlan (s : State) (l : Line) (a : Nat) (st : Station) : CallPlan :=
  let configure : CallPlan := ⟨.configure, none, none, [configureFrame a st.setup (s.groupSet ⟨l, a⟩)]⟩
  match st.state with
  | .joining => configure
  | .online =>
    if st.configurePending then configure
    else if st.snapshotNeeded then ⟨.snapshotCall, none, none, [snapshotCallFrame a]⟩
    else
      let query := s.owedQuery ⟨l, a⟩
      let sent := st.lamps.map fun p => (p.key, p.desired)
      if st.lamps.any Lamp.differs then
        ⟨.call, some sent, query, [lampFrame a sent, callFrame a st.accepted true query]⟩
      else ⟨.call, none, query, [callFrame a st.accepted false query]⟩
  | .expected | .missing | .mismatch => ⟨.call, none, none, [callFrame a st.accepted false none]⟩

/-- The slot of a station call (R116, R120). -/
def callSlot (s : State) (l : Line) (a : Nat) (st : Station) (probe : Bool) : Slot :=
  let plan := s.callPlan l a (s.derived l a st)
  let sides := (s.unit l).callSides st.reach
  ⟨.call ⟨a, plan.frame, plan.lampsSent, plan.query, probe, false⟩, plan.content, sides.1, plan.content, sides.2, none⟩

section
variable {s : State} {l : Line}

theorem derived_setUnit (s : State) (l : Line) (u : LineUnit) : (s.setUnit l u).derived = s.derived := by cases l <;> rfl

theorem callPlan_setUnit (s : State) (l : Line) (u : LineUnit) : (s.setUnit l u).callPlan = s.callPlan := by
  cases l <;> rfl

theorem beginCall_eq {a : Nat} {st : Station} (found : s.station? l a = some st) (probe : Bool) :
    s.beginCall l a probe = s.setUnit l { s.unit l with
      stations := Table.adjust (s.unit l).stations a (s.derived l a), slot := some (s.callSlot l a st probe) } := by
  have there : (s.deriveLamps l a).station? l a = some (s.derived l a st) := by
    rw [deriveLamps, station?_onStation_self, found, Option.map_some]
    rfl
  have begun (carries : SlotUse) (content : List (List Byte)) (sides : LineEnd × Option LineEnd) :
      (s.deriveLamps l a).beginSlot l carries content sides = s.setUnit l { s.unit l with
        stations := Table.adjust (s.unit l).stations a (s.derived l a)
        slot := some ⟨carries, content, sides.1, content, sides.2, none⟩ } := by
    cases l <;> rfl
  have groups (m : Member) : (s.deriveLamps l a).groupSet m = s.groupSet m := by cases l <;> rfl
  have owed (m : Member) : (s.deriveLamps l a).owedQuery m = s.owedQuery m := by cases l <;> rfl
  have sides (reach : Option LineEnd) : ((s.deriveLamps l a).unit l).callSides reach = (s.unit l).callSides reach := by
    cases l <;> rfl
  have reach : (s.derived l a st).reach = st.reach := rfl
  rw [beginCall]
  dsimp only
  rw [there]
  simp only [begun, groups, owed, sides, callSlot, callPlan, reach]
  cases (s.derived l a st).state with
  | online =>
    dsimp only
    split
    · rfl
    · split
      · rfl
      · split <;> rfl
  | _ => rfl

/-! ## The choice by turn -/

/-- A line unit after it has begun a call to a station of the polled set or of the probe list (R120). -/
def called (s : State) (l : Line) (a : Nat) (st : Station) (probe : Bool) : LineUnit := { s.unit l with
  turn := if probe then .polled else .probe
  nextPolled := if probe then (s.unit l).nextPolled else if a < 60 then a + 1 else 1
  stations := Table.adjust (s.unit l).stations a (s.derived l a), slot := some (s.callSlot l a st probe) }

theorem beginStationCall_of_none (poll : (s.unit l).nextPoll = none) (probe : (s.unit l).nextProbe = none) :
    s.beginStationCall l = s := by
  simp only [beginStationCall, poll, probe]

theorem beginStationCall_of_turn {a : Nat} {probe : Bool} {st : Station} (found : s.station? l a = some st)
    (turn : if probe then (s.unit l).nextProbe = some a ∧ ((s.unit l).nextPoll = none ∨ (s.unit l).turn = .probe)
      else (s.unit l).nextPoll = some a ∧ ((s.unit l).nextProbe = none ∨ (s.unit l).turn = .polled)) :
    s.beginStationCall l = s.setUnit l (s.called l a st probe) := by
  have begun (u : LineUnit) (stations : u.stations = (s.unit l).stations) (sides : u.callSides = (s.unit l).callSides) :
      (s.setUnit l u).beginCall l a probe = s.setUnit l { u with
        stations := Table.adjust (s.unit l).stations a (s.derived l a), slot := some (s.callSlot l a st probe) } := by
    have there : (s.setUnit l u).station? l a = some st := by rw [station?, unit_setUnit_self, stations]; exact found
    rw [beginCall_eq there, callSlot, callSlot, derived_setUnit, callPlan_setUnit, unit_setUnit_self, setUnit_setUnit,
      stations, sides]
  cases probe with
  | false =>
    obtain ⟨poll, other⟩ := turn
    have chosen : s.beginStationCall l = (s.setUnit l { s.unit l with
        turn := .probe, nextPolled := if a < 60 then a + 1 else 1 }).beginCall l a false := by
      rcases none : (s.unit l).nextProbe with _ | b
      · simp only [beginStationCall, poll, none, onUnit]
      · have mine := other.resolve_left (by simp [none])
        simp only [beginStationCall, poll, none, mine, onUnit, if_pos]
    refine chosen.trans ((begun _ ?_ ?_).trans rfl) <;> rfl
  | true =>
    obtain ⟨probe, other⟩ := turn
    have chosen : s.beginStationCall l = (s.setUnit l { s.unit l with turn := .polled }).beginCall l a true := by
      rcases none : (s.unit l).nextPoll with _ | b
      · simp only [beginStationCall, probe, none, onUnit]
      · have mine := other.resolve_left (by simp [none])
        simp [beginStationCall, probe, none, mine, onUnit]
    refine chosen.trans ((begun _ ?_ ?_).trans rfl) <;> rfl

/-! ## The choices in order -/

theorem startSlot_of_barred (barred : (s.unit l).slot.isSome = true ∨ (s.unit l).listen.isSome = true ∨
    (s.unit l).state = .off ∨ (s.unit l).state = .contested) : s.startSlot l = s := by
  rcases barred with h | h | h | h <;> simp [startSlot, h]

section
variable (idle : (s.unit l).slot = none) (quiet : (s.unit l).listen = none)
  (runs : (s.unit l).state = .intact ∨ (s.unit l).state = .split)
include idle quiet runs

theorem startSlot_of_survey {v : Survey} (survey : (s.unit l).survey = some v) : s.startSlot l =
    s.beginSlot l (.survey v.next) [callFrame v.next (((s.station? l v.next).map (·.accepted)).getD 0) false none]
      ((s.unit l).callSides none) := by
  rcases runs with h | h <;> simp [startSlot, idle, quiet, h, survey]

section
variable (free : (s.unit l).survey = none)
include free

theorem startSlot_of_continuity (asked : (s.unit l).continuityAsked = true) : s.startSlot l =
    (s.onUnit l fun u => { u with continuityAsked := false }).beginSlot l .continuity [continuityFrame]
      ((s.unit l).broadcastSides.1, none) := by
  rcases runs with h | h <;> simp [startSlot, idle, quiet, h, free, asked]

section
variable (unasked : (s.unit l).continuityAsked = false)
include unasked

theorem startSlot_of_waiting {g : Nat} {rest : List Nat} (waiting : (s.unit l).waiting = g :: rest) {x : Group}
    (found : Table.at? s.groups g = some x) : s.startSlot l =
      s.beginSlot l (.groupLamp g) [groupLampFrame g x.banner x.lastNumber] (s.unit l).broadcastSides := by
  rcases runs with h | h <;> simp [startSlot, idle, quiet, h, free, unasked, waiting, found]

theorem startSlot_of_nothing_waiting (waiting : (s.unit l).waiting = []) : s.startSlot l = s.beginStationCall l := by
  rcases runs with h | h <;> simp [startSlot, idle, quiet, h, free, unasked, waiting]

end

end

end

/-! ## The end of a frame -/

theorem frameSent_of_none (idle : (s.unit l).slot = none) : s.frameSent l = s := by simp only [frameSent, idle]

section
variable {x : Slot} (slot : (s.unit l).slot = some x)
include slot

theorem frameSent_of_more {f g : List Byte} {rest : List (List Byte)} (sending : x.sending = f :: g :: rest) :
    s.frameSent l = s.setUnit l { s.unit l with slot := some { x with sending := g :: rest } } := by
  simp only [frameSent, slot, sending, onUnit]

section
variable {f : List Byte} (sending : x.sending = [f])
include sending

theorem frameSent_of_call {c : StationCall} (carries : x.carries = .call c ∨ ∃ a, x.carries = .survey a) :
    s.frameSent l = s.setUnit l { s.unit l with slot := some { x with sending := [], window := some 3 } } := by
  rcases carries with carries | ⟨a, carries⟩ <;> simp only [frameSent, slot, sending, carries, onUnit]

theorem frameSent_of_continuity (carries : x.carries = .continuity) :
    s.frameSent l = s.setUnit l { s.unit l with slot := none } := by
  simp only [frameSent, slot, sending, carries, onUnit]

theorem frameSent_of_groupLamp_last {g : Nat} (carries : x.carries = .groupLamp g) (other : x.otherSide = none) :
    s.frameSent l = s.setUnit l { s.unit l with slot := none, waiting := (s.unit l).waiting.filter (· != g) } := by
  simp only [frameSent, slot, sending, carries, other, onUnit]

theorem frameSent_of_groupLamp_first {g : Nat} {e : LineEnd} (carries : x.carries = .groupLamp g)
    (other : x.otherSide = some e) : s.frameSent l = s.setUnit l { s.unit l with
      slot := some { x with side := e, otherSide := none, sending := x.content } } := by
  simp only [frameSent, slot, sending, carries, other, onUnit]

end

end

end

end State

/-! ## The sides -/

theorem LineUnit.callSides_eq (u : LineUnit) (reach : Option LineEnd) : u.callSides reach =
    (if u.state = .split then reach.getD u.preferredInUse else u.active,
      if u.state = .split ∧ reach = none then some (otherEnd u.preferredInUse) else none) := by
  by_cases split : u.state = .split <;> cases reach <;> simp [LineUnit.callSides, split]

theorem LineUnit.broadcastSides_eq (u : LineUnit) : u.broadcastSides =
    (if u.state = .split then u.preferredInUse else u.active,
      if u.state = .split then some (otherEnd u.preferredInUse) else none) := by
  by_cases split : u.state = .split <;> simp [LineUnit.broadcastSides, split]

theorem continuityFrame_eq : continuityFrame = [0, 6, 0xFA] := by decide

/-- Settles O43: the choices in their order, the calls by `beginStationCall_of_turn`, and the end of a frame by what the slot
carries. -/
theorem slotsAreChosenInOrder : Obligations.SlotsAreChosenInOrder := by
  unfold Obligations.SlotsAreChosenInOrder
  intro s l running u
  simp only [exec_slotStart running, exec_stationFrameSent running]
  refine ⟨fun barred => ?_, fun idle quiet runs => ⟨fun v survey => ?_, fun g rest order waiting => ?_, fun free asked => ?_,
    fun g rest x free unasked waiting found => ?_, fun free unasked waiting poll probe => ?_,
    fun a probe st free unasked waiting found turn => ?_⟩, ⟨fun order => ⟨?_, fun a next => ?_⟩, ?_, fun a => ?_⟩,
    fun x f g rest slot sending => ?_, fun x f slot sending => ⟨fun c carries => ?_, fun carries => ?_,
      fun g carries other => ?_, fun g e carries other => ?_⟩, fun idle => ?_⟩
  · rw [State.startSlot_of_barred barred]
  · rw [State.startSlot_of_survey idle quiet runs survey, LineUnit.callSides_eq]
    simp [State.beginSlot, State.onUnit, u]
  · have rise := order.2.2
    rw [waiting] at rise ⊢
    exact List.forall_mem_cons.2 ⟨le_rfl, fun i hi => Nat.le_of_lt (List.rel_of_pairwise_cons rise hi)⟩
  · rw [State.startSlot_of_continuity idle quiet runs free asked, LineUnit.broadcastSides_eq, continuityFrame_eq]
    cases l <;> rfl
  · rw [State.startSlot_of_waiting idle quiet runs free unasked waiting found, LineUnit.broadcastSides_eq]
    rfl
  · have noPoll : u.nextPoll = none := by
      have none : Table.idsWhere u.stations (fun st => st.state.polled) = [] := by
        simpa [Table.idsWhere] using fun i st mem => poll (i, st) mem
      rw [LineUnit.nextPoll, none]
      rfl
    have noProbe : u.nextProbe = none := LineUnit.nextProbe_eq_none.2 fun a mem ⟨st, found, probed⟩ => by
      rw [probe a mem st found] at probed
      cases probed
    rw [State.startSlot_of_nothing_waiting idle quiet runs free unasked waiting,
      State.beginStationCall_of_none noPoll noProbe]
  · rw [State.startSlot_of_nothing_waiting idle quiet runs free unasked waiting, State.beginStationCall_of_turn found turn]
    refine ⟨s.called l a st probe, s.callSlot l a st probe, _, rfl, rfl, rfl, rfl, rfl, rfl, rfl, rfl, ?_, ?_⟩
    · exact congrArg Prod.fst (LineUnit.callSides_eq ..)
    · exact congrArg Prod.snd (LineUnit.callSides_eq ..)
  · rw [LineUnit.nextPoll_eq_none order]
    simp only [← StationState.polled_iff, not_exists, not_and, Bool.not_eq_true]
    rfl
  · have chosen := LineUnit.nextPoll_eq_some order next
    simp only [StationState.polled_iff] at chosen
    exact chosen
  · have none := LineUnit.nextProbe_eq_none (u := u)
    simp only [StationState.probed_iff] at none
    exact none
  · have chosen := LineUnit.nextProbe_eq_some (u := u) (a := a)
    simp only [StationState.probed_iff] at chosen
    exact chosen
  · rw [State.frameSent_of_more slot sending]
  · rw [State.frameSent_of_call slot sending carries]
  · rw [State.frameSent_of_continuity slot sending carries]
  · rw [State.frameSent_of_groupLamp_last slot sending carries other]
  · rw [State.frameSent_of_groupLamp_first slot sending carries other]
  · rw [State.frameSent_of_none idle]

end Sys2Proof.Machine
end

section
/-! SUPPORT. The desired lamp of a key, by the lowest linked binding on it, and the group a call queries (R133, R134). -/

namespace Sys2Proof.Machine

/-- In a table in order the first record a test holds of is the one of the least identifier. -/
theorem Table.find?_eq_some_iff {α : Type} {t : Table α} (order : Table.InOrder t) {p : α → Bool} {i : Nat} {x : α} :
    t.find? (fun e => p e.2) = some (i, x) ↔
      (Table.at? t i = some x ∧ p x = true) ∧ ∀ j y, Table.at? t j = some y → p y = true → i ≤ j := by
  have first : (t.find? fun e => p e.2).map Prod.fst = (Table.idsWhere t p).head? := by
    rw [Table.idsWhere, List.head?_map, List.head?_filter]
  have least := head?_eq_some_iff_of_rising (Table.inOrder_idsWhere order p) (i := i)
  simp only [Table.mem_idsWhere_iff order, ← first] at least
  constructor
  · intro found
    have here := Table.at?_of_mem order (List.mem_of_find?_eq_some found)
    have holds : p x = true := List.find?_some (p := fun e : Nat × α => p e.2) found
    obtain ⟨_, low⟩ := least.1 (by rw [found, Option.map_some])
    exact ⟨⟨here, holds⟩, fun j y there holds => low j ⟨y, there, holds⟩⟩
  · rintro ⟨⟨here, holds⟩, low⟩
    have first := least.2 ⟨⟨x, here, holds⟩, fun j ⟨y, there, holds⟩ => low j y there holds⟩
    obtain ⟨⟨j, y⟩, found, same⟩ := Option.map_eq_some_iff.1 first
    obtain rfl : j = i := same
    have there := Table.at?_of_mem order (List.mem_of_find?_eq_some found)
    rw [found, Option.some_inj.1 (here.symm.trans there)]

namespace State

variable {s : State}

/-- A binding has a lamp link, is ARMED, and its source is a key (R134). -/
def Linked (s : State) (key : StationInput) (b : Nat) (x : Binding) : Prop :=
  Table.at? s.bindings b = some x ∧ x.record.source = key ∧ x.record.suspended = false ∧ x.record.lamp ≠ none

section
variable (order : Table.InOrder s.bindings) {key : StationInput} {b : Nat} {x : Binding}
include order

theorem lampBinding_of_least (linked : s.Linked key b x) (least : ∀ i y, s.Linked key i y → b ≤ i) :
    s.lampBinding key = some (b, x) := by
  have test (y : Binding) : (y.record.source == key && !y.record.suspended && y.record.lamp.isSome) = true ↔
      y.record.source = key ∧ y.record.suspended = false ∧ y.record.lamp ≠ none := by
    simp [and_assoc, Option.isSome_iff_ne_none]
  rw [lampBinding, Table.find?_eq_some_iff order
    (p := fun y => y.record.source == key && !y.record.suspended && y.record.lamp.isSome)]
  exact ⟨⟨linked.1, (test x).2 linked.2⟩, fun j y there holds => least j y ⟨there, (test y).1 holds⟩⟩

theorem desiredLamp_of_none (none : ∀ b x, ¬ s.Linked key b x) : s.desiredLamp key = .off := by
  have absent : s.lampBinding key = .none := by
    rw [lampBinding, List.find?_eq_none]
    rintro ⟨b, x⟩ mem holds
    refine none b x ⟨Table.at?_of_mem order mem, ?_⟩
    simpa [and_assoc, Option.isSome_iff_ne_none] using holds
  rw [desiredLamp, absent]

end

section
variable {key : StationInput} {b : Nat} {x : Binding} (followed : s.lampBinding key = some (b, x))
include followed

/-- A FOLLOW lamp flashes while a circuit that holds a contribution of the binding is not STEADY (R134). -/
theorem desiredLamp_of_follow (lamp : x.record.lamp = some .follow) : s.desiredLamp key =
    if (s.holders (.binding b)).isEmpty then .off
    else if (s.holders (.binding b)).any fun c => (Table.at? s.circuits c).any fun y => y.transition.phase != .steady
      then .flash
    else .on := by
  simp only [desiredLamp, followed, lamp]

theorem desiredLamp_of_scene (lamp : x.record.lamp = some .scene) {n tier : Nat}
    (scene : x.record.action = .scene n tier ∨ x.record.action = .sceneOff n) :
    s.desiredLamp key = if 0 < s.holds (.scene n) then .on else .off := by
  rcases scene with action | action <;> simp [desiredLamp, followed, lamp, action, Action.sceneTarget?, live]

theorem desiredLamp_of_mode (lamp : x.record.lamp = some .mode) {m : HouseMode} (action : x.record.action = .mode m) :
    s.desiredLamp key = if s.mode = m then .on else .off := by
  simp only [desiredLamp, followed, lamp, action]

/-- The FOLLOW lamp by the circuits that hold a contribution of the binding (R134). -/
theorem desiredLamp_follow_iff (order : Table.InOrder s.circuits) (lamp : x.record.lamp = some .follow) :
    let holding (e : Nat × Circuit) : Prop := e ∈ s.circuits ∧ ∃ k ∈ e.2.claims, k.origin = .binding b
    ((∀ e, ¬ holding e) → s.desiredLamp key = .off) ∧
    ((∃ e, holding e ∧ e.2.transition.phase ≠ .steady) → s.desiredLamp key = .flash) ∧
    ((∃ e, holding e) → (∀ e, holding e → e.2.transition.phase = .steady) → s.desiredLamp key = .on) := by
  intro holding
  have holder {c : Nat} : c ∈ s.holders (.binding b) ↔ ∃ y, holding (c, y) := by
    simp [holders, Table.mem_idsWhere, holding]
  have some_of {e : Nat × Circuit} (h : holding e) : (s.holders (.binding b)).isEmpty = false :=
    List.isEmpty_eq_false_iff_exists_mem.2 ⟨e.1, holder.2 ⟨e.2, h⟩⟩
  rw [desiredLamp_of_follow followed lamp]
  refine ⟨fun none => ?_, fun ⟨e, h, moving⟩ => ?_, fun ⟨e, h⟩ steady => ?_⟩
  · have empty : s.holders (.binding b) = [] :=
      List.eq_nil_iff_forall_not_mem.2 fun c mem => (holder.1 mem).elim fun y => none (c, y)
    rw [empty]
    rfl
  · have unsteady : ((s.holders (.binding b)).any fun c =>
        (Table.at? s.circuits c).any fun y => y.transition.phase != .steady) = true := by
      refine List.any_eq_true.2 ⟨e.1, holder.2 ⟨e.2, h⟩, ?_⟩
      rw [Table.at?_of_mem order h.1, Option.any_some]
      exact bne_iff_ne.2 moving
    rw [some_of h, unsteady]
    rfl
  · have still : ((s.holders (.binding b)).any fun c =>
        (Table.at? s.circuits c).any fun y => y.transition.phase != .steady) = false := by
      refine List.any_eq_false.2 fun c mem => ?_
      obtain ⟨y, hy⟩ := holder.1 mem
      rw [Table.at?_of_mem order hy.1, Option.any_some, steady _ hy]
      exact Bool.false_ne_true
    rw [some_of h, still]
    rfl

end

/-- A group's delivery holds PENDING for a member (R133). -/
def Owes (s : State) (m : Member) (g : Nat) : Prop := ∃ x es, Table.at? s.groups g = some x ∧ x.delivery = some es ∧
  ∃ e ∈ es, e.member = m ∧ e.code = .pending

theorem owedQuery_eq_some (order : Table.InOrder s.groups) {m : Member} {g : Nat} :
    s.owedQuery m = some g ↔ s.Owes m g ∧ ∀ h, s.Owes m h → g ≤ h := by
  have owes (h : Nat) : h ∈ (Table.idsWhere s.groups fun x =>
      (x.delivery.getD []).any fun e => e.member == m && e.code == .pending) ↔ s.Owes m h := by
    rw [Table.mem_idsWhere_iff order, Owes]
    refine exists_congr fun x => ?_
    cases x.delivery <;> simp
  rw [owedQuery, head?_eq_some_iff_of_rising (Table.inOrder_idsWhere order _), owes]
  simp only [owes]

/-! ## The plan of a call by the record -/

section
variable {l : Line} {a : Nat} {st : Station}

theorem callPlan_of_configure (configures : st.state = .joining ∨ st.state = .online ∧ st.configurePending = true) :
    s.callPlan l a st = ⟨.configure, none, none, [configureFrame a st.setup (s.groupSet ⟨l, a⟩)]⟩ := by
  rcases configures with joining | ⟨online, pending⟩
  · simp only [callPlan, joining]
  · simp only [callPlan, online, pending, if_pos]

theorem callPlan_of_probed (probed : st.state = .expected ∨ st.state = .missing ∨ st.state = .mismatch) :
    s.callPlan l a st = ⟨.call, none, none, [callFrame a st.accepted false none]⟩ := by
  rcases probed with h | h | h <;> simp only [callPlan, h]

section
variable (online : st.state = .online) (set : st.configurePending = false)
include online set

theorem callPlan_of_snapshot (needed : st.snapshotNeeded = true) :
    s.callPlan l a st = ⟨.snapshotCall, none, none, [snapshotCallFrame a]⟩ := by
  simp [callPlan, online, set, needed]

theorem callPlan_of_online (known : st.snapshotNeeded = false) : s.callPlan l a st =
    if st.lamps.any Lamp.differs then
      ⟨.call, some (st.lamps.map fun p => (p.key, p.desired)), s.owedQuery ⟨l, a⟩,
        [lampFrame a (st.lamps.map fun p => (p.key, p.desired)), callFrame a st.accepted true (s.owedQuery ⟨l, a⟩)]⟩
    else ⟨.call, none, s.owedQuery ⟨l, a⟩, [callFrame a st.accepted false (s.owedQuery ⟨l, a⟩)]⟩ := by
  simp [callPlan, online, set, known]

end

end

end State

theorem Lamp.any_differs {lamps : List Lamp} : lamps.any Lamp.differs = true ↔ ∃ p ∈ lamps, p.confirmed ≠ some p.desired := by
  simp [Lamp.differs]

/-- The bytes of a Call by its lamp bit (R115). -/
theorem callFrame_eq (a accepted : Nat) (deltas : Bool) (query : Option Nat) : callFrame a accepted deltas query =
    withCheck [byteOf a, 1, byteOf accepted ||| (if deltas then 0x80 else 0), byteOf (query.getD 0)] := by
  cases deltas <;> rfl

/-- Settles O58: the lamp by the binding it follows, and the call by the plan of the record. -/
theorem lampsFollowAndAreSent : Obligations.LampsFollowAndAreSent := by
  unfold Obligations.LampsFollowAndAreSent
  intro s tables
  refine ⟨fun key => ⟨State.desiredLamp_of_none tables.bindings, fun b x linked least => ?_⟩, fun l a st => ?_⟩
  · have followed := State.lampBinding_of_least tables.bindings linked least
    exact ⟨State.desiredLamp_follow_iff followed tables.circuits, fun n tier lamp =>
      State.desiredLamp_of_scene followed lamp, fun m lamp => State.desiredLamp_of_mode followed lamp⟩
  · intro u running idle quiet runs free unasked waiting found turn lamps sent owed
    obtain ⟨probe, turn⟩ : ∃ probe : Bool, if probe then u.nextProbe = some a ∧ (u.nextPoll = none ∨ u.turn = .probe)
        else u.nextPoll = some a ∧ (u.nextProbe = none ∨ u.turn = .polled) := by
      rcases turn with ⟨poll, none⟩ | ⟨none, probe⟩
      · exact ⟨false, poll, .inl none⟩
      · exact ⟨true, probe, .inl none⟩
    rw [exec_slotStart running, State.startSlot_of_nothing_waiting idle quiet runs free unasked waiting,
      State.beginStationCall_of_turn found turn]
    refine ⟨_, s.callSlot l a st probe, _, rfl, by rw [State.unit_setUnit_self]; rfl, rfl, rfl, ?_, ?_⟩
    · rw [State.station?, State.unit_setUnit_self, State.called, Table.at?_adjust_self]
      exact congrArg (Option.map (s.derived l a)) found
    · intro sends call
      refine ⟨fun configures => ?_, fun online set asks => ?_, fun online set known => ?_, fun probed => ?_⟩
      · have plan := State.callPlan_of_configure (s := s) (l := l) (a := a) (st := s.derived l a st) configures
        simp only [sends, State.callSlot, plan, and_true, true_and]
        rfl
      · have plan := State.callPlan_of_snapshot (s := s) (l := l) (a := a) (st := s.derived l a st) online set asks
        simp only [sends, State.callSlot, plan, snapshotCallFrame, and_self]
      · have plan := State.callPlan_of_online (s := s) (l := l) (a := a) (st := s.derived l a st) online set known
        have derived : (s.derived l a st).lamps = lamps := rfl
        have accepted : (s.derived l a st).accepted = st.accepted := rfl
        simp only [sends, call, State.callSlot, plan, derived, accepted, callFrame_eq]
        refine ⟨fun g => ?_, fun same => ?_, fun differ => ?_⟩
        · have query := State.owedQuery_eq_some tables.groups (m := ⟨l, a⟩) (g := g)
          split <;> exact query
        · have none : ¬ lamps.any Lamp.differs = true := by
            rw [Lamp.any_differs]
            simpa using same
          simp [none]
        · simp [Lamp.any_differs.2 differ, sent]
      · have plan := State.callPlan_of_probed (s := s) (l := l) (a := a) (st := s.derived l a st) probed
        have accepted : (s.derived l a st).accepted = st.accepted := rfl
        simp [sends, call, State.callSlot, plan, callFrame_eq, accepted]

end Sys2Proof.Machine
end

section
/-! SUPPORT. The line units with the key records of their stations left out: claims, scenes, modes, actions and gestures leave
them as they are (R65, R97). -/

namespace Sys2Proof.Machine

/-- A station record without its key records. -/
def Station.bare (st : Station) : Station := { st with keys := [] }

/-- A line unit without the key records of its stations. -/
def LineUnit.bare (u : LineUnit) : LineUnit := { u with stations := Table.mapAll u.stations fun _ st => st.bare }

namespace State

/-- The line units without key records. -/
def bare (s : State) : LineUnit × LineUnit := (s.lineA.bare, s.lineB.bare)

section
variable {s t : State} (h : t.bare = s.bare)
include h

theorem unit_of_bare (l : Line) : (t.unit l).bare = (s.unit l).bare := by
  cases l
  · exact congrArg Prod.fst h
  · exact congrArg Prod.snd h

/-- Stations apart, the line units are the same. -/
theorem unit_eq_of_bare (l : Line) : t.unit l = { s.unit l with stations := (t.unit l).stations } := by
  have same := unit_of_bare h l
  generalize t.unit l = u at same
  generalize s.unit l = v at same
  cases u
  cases v
  simp_all [LineUnit.bare]

/-- Key records apart, the station records are the same. -/
theorem station?_of_bare (l : Line) (a : Nat) : (t.station? l a).map Station.bare = (s.station? l a).map Station.bare := by
  have same := congrArg (fun u : LineUnit => Table.at? u.stations a) (unit_of_bare h l)
  simp only [LineUnit.bare, Table.at?_mapAll] at same
  exact same

theorem station?_of_bare_some {l : Line} {a : Nat} {st : Station} (found : s.station? l a = some st) :
    ∃ keys, t.station? l a = some { st with keys := keys } := by
  have same := station?_of_bare h l a
  rw [found, Option.map_some] at same
  obtain ⟨st', there, bare⟩ := Option.map_eq_some_iff.1 same
  refine ⟨st'.keys, there.trans ?_⟩
  cases st
  cases st'
  simp_all [Station.bare]

end

theorem bare_of_onlyClaims {s t : State} (h : s.OnlyClaims t) : t.bare = s.bare := by
  rw [h]
  rfl

theorem bare_of_onlyLight {s t : State} (h : s.OnlyLight t) : t.bare = s.bare := by
  have forget (u : LineUnit) : u.withoutHoldings.bare = u.bare := by
    simp [LineUnit.bare, LineUnit.withoutHoldings, Station.bare, Table.mapAll]
  obtain ⟨_, lineA, lineB⟩ := h
  rw [bare, ← forget t.lineA, ← forget t.lineB, lineA, lineB, forget, forget, bare]

section
variable (s : State)

/-! ## Fields, tables and key records -/

theorem bare_foldl {α : Type} {f : State → α → State} (hf : ∀ s x, (f s x).bare = s.bare) (xs : List α) :
    (xs.foldl f s).bare = s.bare := by
  induction xs generalizing s with
  | nil => rfl
  | cons x xs ih => rw [List.foldl_cons, ih, hf]

/-- The same for a run that also counts. -/
theorem bare_foldlFst {α β : Type} {f : State × β → α → State × β} (hf : ∀ acc x, (f acc x).1.bare = acc.1.bare)
    (xs : List α) (acc : State × β) : (xs.foldl f acc).1.bare = acc.1.bare := by
  induction xs generalizing acc with
  | nil => rfl
  | cons x xs ih => rw [List.foldl_cons, ih, hf]

@[simp] theorem bare_ite (p : Prop) [Decidable p] (t u : State) :
    (if p then t else u).bare = if p then t.bare else u.bare := apply_ite ..

@[simp] theorem bare_withCircuits (x : Table Circuit) : (s.withCircuits x).bare = s.bare := rfl
@[simp] theorem bare_withZones (x : Table Zone) : (s.withZones x).bare = s.bare := rfl
@[simp] theorem bare_withBindings (x : Table Binding) : (s.withBindings x).bare = s.bare := rfl
@[simp] theorem bare_withGroups (x : Table Group) : (s.withGroups x).bare = s.bare := rfl
@[simp] theorem bare_withRepeats (x : List Repeat) : (s.withRepeats x).bare = s.bare := rfl
@[simp] theorem bare_withOffered (x : Option Firing) : (s.withOffered x).bare = s.bare := rfl
@[simp] theorem bare_withMode (x : HouseMode) : (s.withMode x).bare = s.bare := rfl
@[simp] theorem bare_raise (n : Notice) : (s.raise n).bare = s.bare := rfl
@[simp] theorem bare_onBinding (b : Nat) (f : Binding → Binding) : (s.onBinding b f).bare = s.bare := rfl

@[simp] theorem bare_onStation_keys (l : Line) (a : Nat) (f : Station → Table KeyRecord) :
    (s.onStation l a fun st => { st with keys := f st }).bare = s.bare := by
  have stations (t : Table Station) : Table.mapAll (Table.adjust t a fun st => { st with keys := f st }) (fun _ st => st.bare) =
      Table.mapAll t fun _ st => st.bare := by
    simp only [Table.adjust_eq_mapAll, Table.mapAll, List.map_map]
    refine List.map_congr_left fun e _ => ?_
    by_cases here : e.1 = a <;> simp [here, Station.bare]
  cases l <;> simp [bare, LineUnit.bare, onStation, onUnit, setUnit, unit, stations]

@[simp] theorem bare_onKey (k : StationInput) (f : KeyRecord → KeyRecord) : (s.onKey k f).bare = s.bare :=
  s.bare_onStation_keys k.line k.address fun st => Table.adjust st.keys k.input f

/-! ## Claims, scenes and modes -/

@[simp] theorem bare_place (c : Nat) (k : Contribution) : (s.place c k).1.bare = s.bare :=
  bare_of_onlyClaims ((OnlyClaims.refl s).place c k)

@[simp] theorem bare_remove (byOther : Bool) (o : Origin) (c : Nat) : (s.remove byOther o c).bare = s.bare :=
  bare_of_onlyClaims ((OnlyClaims.refl s).remove byOther o c)

@[simp] theorem bare_removeEverywhere (o : Origin) : (s.removeEverywhere o).bare = s.bare :=
  bare_of_onlyClaims (s.removeEverywhere_onlyClaims o)

@[simp] theorem bare_placeAll (claims : List (Nat × Contribution)) : (s.placeAll claims).1.bare = s.bare :=
  bare_foldlFst (by simp) claims (s, _)

@[simp] theorem bare_judgeScene (n : Nat) (refused : Bool) : (s.judgeScene n refused).bare = s.bare := rfl

@[simp] theorem bare_judgeLive (n : Nat) : (s.judgeLive n).bare = s.bare :=
  bare_of_onlyClaims ((OnlyClaims.refl s).judgeLive n)

@[simp] theorem bare_onScene (n : Nat) (f : Scene → Scene) : (s.onScene n f).bare = s.bare := rfl

@[simp] theorem bare_recall (n tier : Nat) (r : Recaller) : (s.recall n tier r).bare = s.bare := by
  unfold State.recall
  split <;> simp

@[simp] theorem bare_releaseScene (n : Nat) : (s.releaseScene n).bare = s.bare :=
  bare_of_onlyClaims (s.releaseScene_onlyClaims n)

@[simp] theorem bare_releaseLight (b : Nat) : (s.releaseLight b).bare = s.bare :=
  bare_of_onlyLight (s.releaseLight_onlyLight b)

@[simp] theorem bare_masterChange (z v tenths : Nat) (maker : Option Nat) :
    (s.masterChange z v tenths maker).bare = s.bare := by
  unfold masterChange
  split
  · rfl
  · split
    · rfl
    · rw [bare_withBindings]
      exact bare_foldl _ (fun t c => bare_withCircuits ..) _

@[simp] theorem bare_redormBeforeReport : s.redormBeforeReport.bare = s.bare := by
  rw [redormBeforeReport_frame]
  rfl

@[simp] theorem bare_changeMode (m : HouseMode) : (s.changeMode m).bare = s.bare := by
  have redorm (t : State) : t.redormAll.bare = t.bare := rfl
  have report (t : State) (f : Feed) : (t.reportFeed f).bare = t.bare := rfl
  simp [changeMode, bare_foldl, redorm, report]

/-! ## Actions -/

@[simp] theorem bare_recordHolding (b c : Nat) (key : Option StationInput) (v : Verdict) :
    (s.recordHolding b c key v).bare = s.bare := by
  unfold recordHolding
  split <;> simp

@[simp] theorem bare_firePlacing (b : Nat) (area : Area) (k : Contribution) : (s.firePlacing b area k).bare = s.bare := by
  simp only [firePlacing, judgeBinding, bare_ite, bare_onBinding, ite_self]
  exact bare_foldlFst (by simp) _ (s, _)

@[simp] theorem bare_fireRepeat (b z : Nat) (upward : Bool) (n : Nat) (source : FiringSource) :
    (s.fireRepeat b z upward n source).bare = s.bare := by
  have step : (s.stepMaster z upward n).bare = s.bare := by
    unfold stepMaster
    split <;> simp
  cases source <;> simp [fireRepeat, startRepeat, step]

@[simp] theorem bare_applyPosition (b q : Nat) (a : Action) : (s.applyPosition b q a).bare = s.bare := by
  cases a <;> simp [applyPosition]

@[simp] theorem bare_pickup (b : Nat) (captured : Bool) (a : Action) (p : Option Nat) (q : Nat) :
    (s.pickup b captured a p q).bare = s.bare := by
  unfold pickup
  split
  · simp
  · split <;> simp

@[simp] theorem bare_fireMode (m : HouseMode) (source : FiringSource) : (s.fireMode m source).bare = s.bare := by
  cases source <;> simp [fireMode]

/-- No action reaches a line but for the holdings of a key. -/
@[simp] theorem bare_perform (b : Nat) (x : Binding) (source : FiringSource) (p : Option Nat) (q : Nat) :
    (s.perform b x source p q).bare = s.bare := by
  unfold perform
  split
  case h_3 => exact s.bare_foldl (fun _ _ => bare_foldl _ (by simp) _) _
  case h_9 | h_10 => cases source <;> simp
  all_goals simp

@[simp] theorem bare_report (key : StationInput) (g : Gesture) (p q : Option Nat) : (s.report key g p q).bare = s.bare := by
  refine s.bare_foldl (fun s b => ?_) _
  unfold offer
  split <;> simp [fire]

/-! ## Gestures -/

@[simp] theorem bare_letGo (key : StationInput) : (s.letGo key).bare = s.bare := by
  unfold letGo dropHoldings dropRepeats
  split <;> simp [bare_foldl]

@[simp] theorem bare_firstPress (key : StationInput) (stamp : Option Stamp) : (s.firstPress key stamp).bare = s.bare := by
  simp [firstPress]

@[simp] theorem bare_pressNow (key : StationInput) : (s.pressNow key).bare = s.bare := by simp [pressNow]

@[simp] theorem bare_synthesizedUp (key : StationInput) (was : KeyState) : (s.synthesizedUp key was).bare = s.bare := by
  cases was <;> simp [synthesizedUp]

@[simp] theorem bare_keyDown (key : StationInput) (r : KeyRecord) (stamp : Stamp) : (s.keyDown key r stamp).bare = s.bare := by
  unfold keyDown
  split <;> simp [secondPress]

@[simp] theorem bare_keyUp (key : StationInput) (r : KeyRecord) (stamp : Stamp) : (s.keyUp key r stamp).bare = s.bare := by
  unfold keyUp
  dsimp only
  split <;> simp

@[simp] theorem bare_contactEvent (key : StationInput) (edge : EdgeMode) (closing : Bool) :
    (s.contactEvent key edge closing).bare = s.bare := by simp [contactEvent, dropRepeats]

@[simp] theorem bare_faderMove (key : StationInput) (r : KeyRecord) (q : Nat) : (s.faderMove key r q).bare = s.bare := by
  simp [faderMove]

/-- An event of a station changes no more of its record than its key records (R98). -/
@[simp] theorem bare_stationEvent (l : Line) (a : Nat) (e : StationEvent) : (s.stationEvent l a e).bare = s.bare := by
  unfold stationEvent
  dsimp only
  split
  · rfl
  · split <;> simp

@[simp] theorem bare_compareSnapshot (l : Line) (a : Nat) (inputs : List (Nat × InputReading)) :
    (s.compareSnapshot l a inputs).bare = s.bare := by
  refine s.bare_foldl (fun s reading => ?_) _
  unfold compareInput
  dsimp only
  split
  · rfl
  · split
    · split <;> simp
    · split <;> simp
    all_goals simp

@[simp] theorem bare_clearCaptures (l : Line) (a : Nat) : (s.clearCaptures l a).bare = s.bare := rfl

@[simp] theorem bare_gestureMissing (l : Line) (a : Nat) : (s.gestureMissing l a).bare = s.bare := by
  simp [gestureMissing, bare_foldl]

@[simp] theorem bare_discardKeys (l : Line) (a : Nat) : (s.discardKeys l a).bare = s.bare := by
  rw [discardKeys, bare_onStation_keys _ l a fun _ => [], bare_clearCaptures]
  exact s.bare_foldl (by simp) _

end

end State

end Sys2Proof.Machine
end

section
/-! SUPPORT. The events of an Answer, by the distance of their numbers from the next (R123). -/

namespace Sys2Proof.Machine

/-- How far the number of an event lies beyond the next one, modulo 16 (R123). -/
def StationEvent.beyond (e : StationEvent) (accepted : Nat) : Nat := (e.sequence + 16 - (accepted + 1) % 16) % 16

namespace State

variable {s : State} {l : Line} {a : Nat} {st : Station}

/-- The next event is taken: its number is the last accepted, and it is carried out (R123). -/
def takeEvent (s : State) (l : Line) (a : Nat) (e : StationEvent) : State :=
  (s.onStation l a fun x => { x with accepted := e.sequence }).stationEvent l a e

/-- An event taken leaves the record of its station but for the number and the key records. -/
theorem station?_takeEvent (found : s.station? l a = some st) (e : StationEvent) :
    ∃ keys, (s.takeEvent l a e).station? l a = some { st with accepted := e.sequence, keys := keys } := by
  have there : (s.onStation l a fun x => { x with accepted := e.sequence }).station? l a =
      some { st with accepted := e.sequence } := by rw [station?_onStation_self, found, Option.map_some]
  exact station?_of_bare_some (bare_stationEvent _ l a e) there

theorem acceptEvents_cons (found : s.station? l a = some st) (e : StationEvent) (rest : List StationEvent) :
    s.acceptEvents l a (e :: rest) =
      if e.beyond st.accepted = 0 then (s.takeEvent l a e).acceptEvents l a rest
      else if 10 ≤ e.beyond st.accepted then s.acceptEvents l a rest
      else s.onStation l a fun x => { x with snapshotNeeded := true } := by
  have turn : (e.sequence + 32 - (st.accepted + 1) % 16) % 16 = e.beyond st.accepted := by
    unfold StationEvent.beyond
    omega
  rw [acceptEvents, found, Option.map_some, Option.getD_some, turn]
  rfl

/-- Events that were among the last six accepted are dropped (R123). -/
theorem acceptEvents_of_repeated (found : s.station? l a = some st) {events : List StationEvent}
    (old : ∀ e ∈ events, 10 ≤ e.beyond st.accepted) : s.acceptEvents l a events = s := by
  induction events with
  | nil => rfl
  | cons e rest ih =>
    obtain ⟨here, later⟩ := List.forall_mem_cons.1 old
    rw [acceptEvents_cons found, if_neg (by omega), if_pos here, ih later]

/-- Events that follow on the last accepted one are all taken, and the last of them is the last accepted then (R123). -/
theorem acceptEvents_following (found : s.station? l a = some st) (low : st.accepted < 16) {events : List StationEvent}
    (follows : ∀ i e, events[i]? = some e → e.sequence = (st.accepted + 1 + i) % 16) :
    ∃ keys, (s.acceptEvents l a events).station? l a =
      some { st with accepted := (st.accepted + events.length) % 16, keys := keys } := by
  induction events generalizing s st with
  | nil => exact ⟨st.keys, by simpa [acceptEvents, Nat.mod_eq_of_lt low] using found⟩
  | cons e rest ih =>
    have number : e.sequence = (st.accepted + 1) % 16 := follows 0 e rfl
    obtain ⟨keys, taken⟩ := station?_takeEvent found e
    have next : e.beyond st.accepted = 0 := by
      rw [StationEvent.beyond, number]
      omega
    rw [number] at taken
    obtain ⟨keys', later⟩ := ih taken (Nat.mod_lt _ (by decide)) fun i x there => by
      have number' := follows (i + 1) x (by simpa using there)
      dsimp only
      omega
    have total : ((st.accepted + 1) % 16 + rest.length) % 16 = (st.accepted + (rest.length + 1)) % 16 := by omega
    refine ⟨keys', ?_⟩
    rw [acceptEvents_cons found, if_pos next, later, List.length_cons, ← total]

end State

/-- Settles O52: an event by its distance beyond the next number, and an Answer sent again by its events being the last six. -/
theorem eventsAreAcceptedOnceInOrder : Obligations.EventsAreAcceptedOnceInOrder := by
  unfold Obligations.EventsAreAcceptedOnceInOrder
  intro s l a st found low
  refine ⟨rfl, fun e rest _ => ?_, fun events few follows => ?_⟩
  · have distance : (e.sequence + 16 - (st.accepted + 1) % 16) % 16 = e.beyond st.accepted := rfl
    rw [distance, State.acceptEvents_cons found]
    dsimp only
    refine ⟨fun next => if_pos next, fun old => ?_, fun ahead near => ?_⟩
    · rw [if_neg (by omega), if_pos old]
    · rw [if_neg (by omega), if_neg (by omega)]
  · obtain ⟨keys, taken⟩ := State.acceptEvents_following found low follows
    refine ⟨State.acceptEvents_of_repeated taken fun e mem => ?_, fun _ => by rw [taken, Option.map_some]⟩
    obtain ⟨i, there⟩ := List.mem_iff_getElem?.1 mem
    obtain ⟨inside, _⟩ := List.getElem?_eq_some_iff.1 there
    rw [StationEvent.beyond, follows i e there]
    dsimp only
    omega

end Sys2Proof.Machine
end

section
/-! SUPPORT. What keys lose and a return restores touches nothing but circuits, bindings, repeats and key records (R72, R80, R98,
R106). -/

namespace Sys2Proof.Machine

namespace State

/-- Nothing differs but circuits, bindings, repeats and the key records of stations. -/
structure OnlyKeys (s t : State) : Prop where
  state : t = { s with
    circuits := t.circuits, bindings := t.bindings, repeats := t.repeats, lineA := t.lineA, lineB := t.lineB }
  bare : t.bare = s.bare

namespace OnlyKeys

variable {s t u : State}

theorem refl (s : State) : s.OnlyKeys s := ⟨rfl, rfl⟩

theorem trans (h : s.OnlyKeys t) (k : t.OnlyKeys u) : s.OnlyKeys u where
  state := by rw [k.state, h.state]
  bare := k.bare.trans h.bare

theorem onStation_keys (h : s.OnlyKeys t) (l : Line) (a : Nat) (f : Station → Table KeyRecord) :
    s.OnlyKeys (t.onStation l a fun st => { st with keys := f st }) :=
  h.trans ⟨by cases l <;> rfl, t.bare_onStation_keys l a f⟩

theorem onKey (h : s.OnlyKeys t) (k : StationInput) (f : KeyRecord → KeyRecord) : s.OnlyKeys (t.onKey k f) :=
  h.onStation_keys k.line k.address fun st => Table.adjust st.keys k.input f

theorem letGo (h : s.OnlyKeys t) (k : StationInput) : s.OnlyKeys (t.letGo k) := by
  refine h.trans ⟨?_, t.bare_letGo k⟩
  cases found : t.key? k with
  | none =>
    rw [State.letGo, dropHoldings, found]
    rfl
  | some r =>
    rw [letGo_frame found]

theorem clearCaptures (h : s.OnlyKeys t) (l : Line) (a : Nat) : s.OnlyKeys (t.clearCaptures l a) := h.trans ⟨rfl, rfl⟩

theorem foldl {α : Type} {f : State → α → State} (h : s.OnlyKeys t) (xs : List α)
    (k : ∀ u x, s.OnlyKeys u → s.OnlyKeys (f u x)) : s.OnlyKeys (xs.foldl f t) := by
  induction xs generalizing t with
  | nil => exact h
  | cons x xs ih => exact ih (k t x h)

theorem gestureMissing (h : s.OnlyKeys t) (l : Line) (a : Nat) : s.OnlyKeys (t.gestureMissing l a) := by
  unfold State.gestureMissing
  dsimp only
  split
  · exact h
  · exact (h.foldl _ fun _ k hu => (hu.onKey k _).letGo k).clearCaptures l a

theorem gestureReturn (h : s.OnlyKeys t) (l : Line) (a : Nat) : s.OnlyKeys (t.gestureReturn l a) :=
  h.foldl _ fun _ k hu => hu.onKey k _

theorem discardKeys (h : s.OnlyKeys t) (l : Line) (a : Nat) : s.OnlyKeys (t.discardKeys l a) :=
  ((h.foldl _ fun _ k hu => hu.letGo k).clearCaptures l a).onStation_keys l a _

theorem unit_eq (h : s.OnlyKeys t) (l : Line) : t.unit l = { s.unit l with stations := (t.unit l).stations } :=
  unit_eq_of_bare h.bare l

end OnlyKeys

end State

end Sys2Proof.Machine
end

section
/-! SUPPORT. The entries of group deliveries: a change to those of a group, the settling of a query, and codes that become
OFFLINE (R133). -/

namespace Sys2Proof.Machine

/-- A group with a change made to the entries of its delivery (R133). -/
def Group.onEntries (f : DeliveryEntry → DeliveryEntry) (x : Group) : Group :=
  { x with delivery := x.delivery.map fun es => es.map f }

theorem Group.hasPending_iff {x : Group} : x.hasPending = true ↔ ∃ es, x.delivery = some es ∧ ∃ e ∈ es, e.code = .pending := by
  unfold Group.hasPending
  cases x.delivery <;> simp

theorem Group.pendingOn_iff {x : Group} {l : Line} : x.pendingOn l = true ↔
    ∃ es, x.delivery = some es ∧ ∃ e ∈ es, e.code = .pending ∧ e.member.line = l := by
  unfold Group.pendingOn
  cases x.delivery <;> simp

namespace State

variable {s t : State}

/-! ## A change to the entries of one group -/

theorem mem_pruneWaiting {g i : Nat} {x : Group} {l m : Line} : i ∈ ((s.pruneWaiting g x l).unit m).waiting ↔
    i ∈ (s.unit m).waiting ∧ (m = l → i = g → x.pendingOn l = true) := by
  unfold pruneWaiting
  split
  · rename_i pending
    simp [pending]
  · rename_i none
    by_cases line : m = l
    · subst line
      simp [none]
    · rw [unit_onUnit_other _ _ (Ne.symm line)]
      simp [line]

theorem mem_wait {g i : Nat} {l m : Line} : i ∈ ((s.wait g l).unit m).waiting ↔ i ∈ (s.unit m).waiting ∨ m = l ∧ i = g := by
  by_cases line : m = l
  · subst line
    simp [wait, or_comm]
  · rw [wait, unit_onUnit_other _ _ (Ne.symm line)]
    simp [line]

theorem pruneWaiting_groups (s : State) (g : Nat) (x : Group) (l : Line) : (s.pruneWaiting g x l).groups = s.groups := by
  unfold pruneWaiting
  split <;> simp

theorem pruneWaiting_notices (s : State) (g : Nat) (x : Group) (l : Line) : (s.pruneWaiting g x l).notices = s.notices := by
  unfold pruneWaiting
  split <;> simp

section
variable {g : Nat} {x : Group} (found : Table.at? s.groups g = some x) (f : DeliveryEntry → DeliveryEntry)
include found

theorem onDelivery_at? (i : Nat) :
    Table.at? (s.onDelivery g f).groups i = if i = g then some (x.onEntries f) else Table.at? s.groups i := by
  have groups : (s.onDelivery g f).groups = Table.adjust s.groups g fun _ => x.onEntries f := by
    simp only [onDelivery, found, pruneWaiting_groups]
    split <;> rfl
  rw [groups, Table.at?_adjust]
  split
  · subst i
    rw [found, Option.map_some]
  · rfl

theorem onDelivery_notices : (s.onDelivery g f).notices =
    if x.hasPending = true ∧ (x.onEntries f).hasPending = false then { s.notices with group := true } else s.notices := by
  simp only [onDelivery, found, pruneWaiting_notices]
  cases x.hasPending <;> cases settled : (x.onEntries f).hasPending <;> simp_all [Group.onEntries, NoticeSet.with]

theorem mem_onDelivery {i : Nat} {l : Line} : i ∈ ((s.onDelivery g f).unit l).waiting ↔
    i ∈ (s.unit l).waiting ∧ (i = g → (x.onEntries f).pendingOn l = true) := by
  have before (p : Prop) [Decidable p] : ((if p then (s.onGroup g fun _ => x.onEntries f).raise .group
      else s.onGroup g fun _ => x.onEntries f).unit l).waiting = (s.unit l).waiting := by
    split <;> cases l <;> rfl
  simp only [onDelivery, found, mem_pruneWaiting]
  rw [show ({ x with delivery := x.delivery.map fun es => es.map f } : Group) = x.onEntries f from rfl, before]
  cases l <;> simp

end

theorem onDelivery_of_absent {g : Nat} (absent : Table.at? s.groups g = none) (f : DeliveryEntry → DeliveryEntry) :
    s.onDelivery g f = s := by rw [onDelivery, absent]

/-! ## The settling of a query -/

end State

/-- An entry at the end of a slot that carried a query for a member, for the delivery of a number (R133). -/
def DeliveryEntry.settledBy (m : Member) (how : QueryEnd) (number : Nat) (e : DeliveryEntry) : DeliveryEntry :=
  if e.member = m ∧ e.code = .pending then
    match how with
    | .acknowledged (.number n) => if n = number then { e with code := .ok } else e.asked
    | .acknowledged .notMember => { e with code := .refused }
    | .acknowledged .none | .silent => e.asked
    | .garbled => { e with code := .garbled }
  else e

/-- Whether the acknowledgement is of another number (R133). -/
def QueryEnd.isOther (how : QueryEnd) (number : Nat) : Prop := ∃ n, how = .acknowledged (.number n) ∧ n ≠ number

/-- A group's Group Lamp frame waits again after the query for a member ended so (R133). -/
def Group.Again (x : Group) (m : Member) (how : QueryEnd) : Prop :=
  how.isOther x.lastNumber ∧ ∃ es, x.delivery = some es ∧ ∃ e ∈ es, e.member = m ∧ e.code = .pending

namespace State

variable {s t : State}

open Classical in
/-- A query that ends changes the entries of its group, whose frame may have come to wait again. -/
theorem settleQuery_eq {g : Nat} {x : Group} (found : Table.at? s.groups g = some x) (m : Member) (how : QueryEnd) :
    s.settleQuery g m how = (if x.Again m how then s.wait g m.line else s).onDelivery g (DeliveryEntry.settledBy m how x.lastNumber) := by
  have pending : ((x.delivery.getD []).any fun e => e.member == m && e.code == .pending) = true ↔
      ∃ es, x.delivery = some es ∧ ∃ e ∈ es, e.member = m ∧ e.code = .pending := by
    cases x.delivery <;> simp
  have entries (e : DeliveryEntry) : (e.member == m && e.code == .pending) = true ↔ e.member = m ∧ e.code = .pending := by simp
  unfold settleQuery
  simp only [found, Option.map_some, Option.getD_some, Option.any_some, Bool.and_eq_true, pending, entries]
  cases how with
  | acknowledged ack => cases ack <;> simp [Group.Again, QueryEnd.isOther] <;> rfl
  | garbled | silent =>
    simp [Group.Again, QueryEnd.isOther]
    rfl

theorem OnlyDeliveries.wait (h : s.OnlyDeliveries t) (g : Nat) (l : Line) : s.OnlyDeliveries (t.wait g l) :=
  h.trans ⟨by cases l <;> rfl, fun m => by cases l <;> cases m <;> rfl⟩

theorem OnlyDeliveries.settleQuery (h : s.OnlyDeliveries t) (g : Nat) (m : Member) (how : QueryEnd) :
    s.OnlyDeliveries (t.settleQuery g m how) := by
  unfold State.settleQuery
  dsimp only
  exact OnlyDeliveries.onDelivery (iteInduction (motive := s.OnlyDeliveries) (fun _ => OnlyDeliveries.wait h ..) fun _ => h) g _

end State

end Sys2Proof.Machine
end

section
/-! SUPPORT. A change to the entries of several groups, and the deliveries of two states (R133). -/

namespace Sys2Proof.Machine

/-- A change to the entries of a group's delivery settles its last PENDING code (R133). -/
def Group.SettledBy (f : DeliveryEntry → DeliveryEntry) (x : Group) : Prop :=
  x.hasPending = true ∧ (x.onEntries f).hasPending = false

/-- An entry where the PENDING codes that a test holds of become OFFLINE (R133). -/
def DeliveryEntry.offlined (test : Member → Bool) (e : DeliveryEntry) : DeliveryEntry :=
  if e.code == .pending && test e.member then { e with code := .offline } else e

theorem DeliveryEntry.offlined_code {test : Member → Bool} {e : DeliveryEntry} :
    (e.offlined test).code = .pending ↔ e.code = .pending ∧ test e.member = false := by
  unfold offlined
  cases h : e.code <;> cases k : test e.member <;> simp [h]

namespace State

variable {s t : State}

theorem onDelivery_at?_map (s : State) (g : Nat) (f : DeliveryEntry → DeliveryEntry) (i : Nat) :
    Table.at? (s.onDelivery g f).groups i =
      if i = g then (Table.at? s.groups i).map (·.onEntries f) else Table.at? s.groups i := by
  cases found : Table.at? s.groups g with
  | none =>
    rw [onDelivery_of_absent found]
    split
    · subst i
      rw [found, Option.map_none]
    · rfl
  | some x =>
    rw [onDelivery_at? found]
    split
    · subst i
      rw [found, Option.map_some]
    · rfl

section
variable (f : DeliveryEntry → DeliveryEntry)

theorem foldl_onDelivery_at? {gs : List Nat} (once : gs.Nodup) (s : State) (i : Nat) :
    Table.at? (gs.foldl (fun s g => s.onDelivery g f) s).groups i =
      if i ∈ gs then (Table.at? s.groups i).map (·.onEntries f) else Table.at? s.groups i := by
  induction gs generalizing s with
  | nil => rfl
  | cons g gs ih =>
    obtain ⟨new, once⟩ := List.nodup_cons.1 once
    rw [List.foldl_cons, ih once, onDelivery_at?_map]
    by_cases same : i = g
    · subst i
      simp [new]
    · simp [same]

theorem mem_foldl_onDelivery {gs : List Nat} (once : gs.Nodup) (s : State) {i : Nat} {l : Line} :
    i ∈ ((gs.foldl (fun s g => s.onDelivery g f) s).unit l).waiting ↔ i ∈ (s.unit l).waiting ∧
      (i ∈ gs → ∀ x, Table.at? s.groups i = some x → (x.onEntries f).pendingOn l = true) := by
  induction gs generalizing s with
  | nil => simp
  | cons g gs ih =>
    obtain ⟨new, once⟩ := List.nodup_cons.1 once
    rw [List.foldl_cons, ih once, onDelivery_at?_map]
    cases found : Table.at? s.groups g with
    | none =>
      rw [onDelivery_of_absent found]
      by_cases same : i = g
      · subst i
        simp [found]
      · simp [same]
    | some x =>
      rw [mem_onDelivery found]
      by_cases same : i = g
      · subst i
        simp [new, found]
      · simp [same]

/-- A change to a group's entries settles the last PENDING code of its delivery. -/
def Settles (s : State) (g : Nat) : Prop := ∃ x, Table.at? s.groups g = some x ∧ x.SettledBy f

open Classical in
theorem onDelivery_notices_eq (s : State) (g : Nat) :
    (s.onDelivery g f).notices = if s.Settles f g then { s.notices with group := true } else s.notices := by
  cases found : Table.at? s.groups g with
  | none => simp [onDelivery_of_absent found, Settles, found]
  | some x => simp [onDelivery_notices found, Settles, found, Group.SettledBy]

open Classical in
theorem foldl_onDelivery_notices {gs : List Nat} (once : gs.Nodup) (s : State) :
    (gs.foldl (fun s g => s.onDelivery g f) s).notices =
      if ∃ g ∈ gs, s.Settles f g then { s.notices with group := true } else s.notices := by
  induction gs generalizing s with
  | nil => simp
  | cons g gs ih =>
    obtain ⟨new, once⟩ := List.nodup_cons.1 once
    have same : ∀ i ∈ gs, (s.onDelivery g f).Settles f i ↔ s.Settles f i := by
      intro i mem
      have ne : i ≠ g := fun h => new (h ▸ mem)
      rw [Settles, onDelivery_at?_map, if_neg ne, Settles]
    have later : (∃ i ∈ gs, (s.onDelivery g f).Settles f i) ↔ ∃ i ∈ gs, s.Settles f i :=
      exists_congr fun i => and_congr_right (same i)
    rw [List.foldl_cons, ih once, onDelivery_notices_eq]
    simp only [later, List.exists_mem_cons_iff]
    by_cases here : s.Settles f g <;> simp [here]

end

/-! ## Codes that become OFFLINE -/

section
variable (tables : Table.InOrder s.groups) (test : Member → Bool)
include tables

theorem offlineWhere_at? (g : Nat) :
    Table.at? (s.offlineWhere test).groups g = (Table.at? s.groups g).map (·.onEntries (DeliveryEntry.offlined test)) := by
  refine (foldl_onDelivery_at? (DeliveryEntry.offlined test) tables.nodup s g).trans ?_
  split
  · rfl
  · rename_i absent
    rw [Table.mem_ids_iff_isSome, Option.not_isSome_iff_eq_none] at absent
    rw [absent, Option.map_none]

theorem mem_offlineWhere {g : Nat} {l : Line} : g ∈ ((s.offlineWhere test).unit l).waiting ↔ g ∈ (s.unit l).waiting ∧
    ∀ x, Table.at? s.groups g = some x → (x.onEntries (DeliveryEntry.offlined test)).pendingOn l = true := by
  refine (mem_foldl_onDelivery (DeliveryEntry.offlined test) tables.nodup s).trans (and_congr_right fun _ => ?_)
  refine ⟨fun h x hx => h (Table.mem_ids_iff_isSome.2 ?_) x hx, fun h _ => h⟩
  rw [hx, Option.isSome_some]

open Classical in
theorem offlineWhere_notices : (s.offlineWhere test).notices =
    if ∃ g, s.Settles (DeliveryEntry.offlined test) g then { s.notices with group := true } else s.notices := by
  have all : (∃ g ∈ Table.ids s.groups, s.Settles (DeliveryEntry.offlined test) g) ↔
      ∃ g, s.Settles (DeliveryEntry.offlined test) g := by
    refine exists_congr fun g => and_iff_right_of_imp fun ⟨x, hx, _⟩ => Table.mem_ids_iff_isSome.2 ?_
    rw [hx, Option.isSome_some]
  refine (foldl_onDelivery_notices (DeliveryEntry.offlined test) tables.nodup s).trans ?_
  simp only [all]

end

end State

theorem Group.settledBy_offlined_iff {x : Group} {test : Member → Bool} : x.SettledBy (DeliveryEntry.offlined test) ↔
    ∃ es, x.delivery = some es ∧ (∃ e ∈ es, e.code = .pending) ∧ ∀ e ∈ es, e.code = .pending → test e.member = true := by
  unfold Group.SettledBy
  rw [← Bool.not_eq_true, Group.hasPending_iff, Group.hasPending_iff]
  cases h : x.delivery <;> simp [Group.onEntries, h, DeliveryEntry.offlined_code]

end Sys2Proof.Machine
end

section
/-! SUPPORT. States with the same deliveries settle alike, whatever stations and keys they have (R133). -/

namespace Sys2Proof.Machine

namespace State

/-- The deliveries of groups, the notices and the groups that wait on the lines are the same (R133). -/
structure SameDeliveries (s t : State) : Prop where
  groups : t.groups = s.groups
  notices : t.notices = s.notices
  waiting (l : Line) : (t.unit l).waiting = (s.unit l).waiting

namespace SameDeliveries

variable {s t u : State}

theorem refl (s : State) : s.SameDeliveries s := ⟨rfl, rfl, fun _ => rfl⟩

theorem trans (h : s.SameDeliveries t) (k : t.SameDeliveries u) : s.SameDeliveries u :=
  ⟨k.groups.trans h.groups, k.notices.trans h.notices, fun l => (k.waiting l).trans (h.waiting l)⟩

theorem onUnit (h : s.SameDeliveries t) (l : Line) {f : LineUnit → LineUnit} (hf : ∀ u, (f u).waiting = u.waiting) :
    s.SameDeliveries (t.onUnit l f) := by
  refine h.trans ⟨t.onUnit_groups l f, t.onUnit_notices l f, fun m => ?_⟩
  by_cases line : l = m
  · subst line
    rw [unit_onUnit_self, hf]
  · rw [unit_onUnit_other _ _ line]

theorem onStation (h : s.SameDeliveries t) (l : Line) (a : Nat) (f : Station → Station) :
    s.SameDeliveries (t.onStation l a f) := h.onUnit l fun _ => rfl

theorem onGroup (h : s.SameDeliveries t) (g : Nat) (f : Group → Group) : (s.onGroup g f).SameDeliveries (t.onGroup g f) := by
  refine ⟨?_, h.notices, fun m => ?_⟩
  · rw [State.onGroup, State.onGroup, h.groups]
    rfl
  · have waiting := h.waiting m
    cases m <;> exact waiting

theorem raise (h : s.SameDeliveries t) (n : Notice) : (s.raise n).SameDeliveries (t.raise n) := by
  refine ⟨h.groups, ?_, fun m => ?_⟩
  · rw [State.raise, State.raise, h.notices]
  · have waiting := h.waiting m
    cases m <;> exact waiting

theorem pruneWaiting (h : s.SameDeliveries t) (g : Nat) (x : Group) (l : Line) :
    (s.pruneWaiting g x l).SameDeliveries (t.pruneWaiting g x l) := by
  unfold State.pruneWaiting
  split
  · exact h
  · refine ⟨by simpa using h.groups, by simpa using h.notices, fun m => ?_⟩
    by_cases line : l = m
    · subst line
      rw [unit_onUnit_self, unit_onUnit_self, h.waiting]
    · rw [unit_onUnit_other _ _ line, unit_onUnit_other _ _ line, h.waiting]

theorem onDelivery (h : s.SameDeliveries t) (g : Nat) (f : DeliveryEntry → DeliveryEntry) :
    (s.onDelivery g f).SameDeliveries (t.onDelivery g f) := by
  cases found : Table.at? s.groups g with
  | none => rwa [onDelivery_of_absent found, onDelivery_of_absent (by rw [h.groups, found])]
  | some x =>
    have there : Table.at? t.groups g = some x := by rw [h.groups, found]
    simp only [State.onDelivery, found, there]
    refine SameDeliveries.pruneWaiting (SameDeliveries.pruneWaiting ?_ ..) ..
    split
    · exact (h.onGroup ..).raise _
    · exact h.onGroup ..

theorem offlineWhere (h : s.SameDeliveries t) (test : Member → Bool) :
    (s.offlineWhere test).SameDeliveries (t.offlineWhere test) := by
  unfold State.offlineWhere
  rw [h.groups]
  generalize Table.ids s.groups = gs
  induction gs generalizing s t with
  | nil => exact h
  | cons g gs ih => exact ih (h.onDelivery ..)

end SameDeliveries

variable {s t : State}

theorem OnlyKeys.sameDeliveries (h : s.OnlyKeys t) : s.SameDeliveries t :=
  ⟨by rw [h.state], by rw [h.state], fun l => by rw [h.unit_eq]⟩

theorem loseLine_sameDeliveries (s : State) (l : Line) :
    (s.offlineWhere fun m => m.line == l).SameDeliveries (s.loseLine l) :=
  ((OnlyKeys.refl s).foldl _ fun _ a hu => hu.trans ((OnlyKeys.refl _).gestureMissing l a)).sameDeliveries.offlineWhere _

theorem enterMissing_sameDeliveries (s : State) (l : Line) (a : Nat) :
    ((s.offlineStation l a).raise .stations).SameDeliveries (s.enterMissing l a) := by
  have entered : s.SameDeliveries ((s.onStation l a fun st => { st with state := .missing }).gestureMissing l a) :=
    ((SameDeliveries.refl s).onStation ..).trans ((OnlyKeys.refl _).gestureMissing l a).sameDeliveries
  exact (entered.offlineWhere _).raise _

theorem enterMismatch_sameDeliveries (s : State) (l : Line) (a : Nat) :
    ((s.offlineStation l a).raise .stations).SameDeliveries (s.enterMismatch l a) := by
  have entered : s.SameDeliveries ((s.onStation l a fun st => { st with state := .mismatch }).discardKeys l a) :=
    ((SameDeliveries.refl s).onStation ..).trans ((OnlyKeys.refl _).discardKeys l a).sameDeliveries
  exact (entered.offlineWhere _).raise _

end State

theorem DeliveryEntry.asked_member (e : DeliveryEntry) : e.asked.member = e.member := by
  unfold asked
  split <;> rfl

theorem DeliveryEntry.settledBy_member (m : Member) (how : QueryEnd) (n : Nat) (e : DeliveryEntry) :
    (e.settledBy m how n).member = e.member := by
  unfold settledBy
  split
  · cases how with
    | garbled => rfl
    | silent => exact asked_member e
    | acknowledged ack =>
      cases ack with
      | notMember => rfl
      | none => exact asked_member e
      | number k =>
        dsimp only
        split
        · rfl
        · exact asked_member e
  · rfl

namespace State

/-! ## What the end of a query settles -/

section
variable {s : State} {g : Nat} {x : Group} (found : Table.at? s.groups g = some x) (m : Member) (how : QueryEnd)
include found

theorem settleQuery_at? (i : Nat) : Table.at? (s.settleQuery g m how).groups i =
    if i = g then some (x.onEntries (DeliveryEntry.settledBy m how x.lastNumber)) else Table.at? s.groups i := by
  classical
  have groups (p : Prop) [Decidable p] : (if p then s.wait g m.line else s).groups = s.groups := by split <;> simp [wait]
  rw [settleQuery_eq found, onDelivery_at? (by rw [groups, found]), groups]

open Classical in
theorem settleQuery_notices : (s.settleQuery g m how).notices =
    if x.SettledBy (DeliveryEntry.settledBy m how x.lastNumber) then { s.notices with group := true } else s.notices := by
  have groups (p : Prop) : (if p then s.wait g m.line else s).groups = s.groups := by split <;> simp [wait]
  have notices (p : Prop) : (if p then s.wait g m.line else s).notices = s.notices := by split <;> simp [wait]
  rw [settleQuery_eq found, onDelivery_notices (by rw [groups, found]), notices]
  exact if_congr Iff.rfl rfl rfl

theorem mem_settleQuery {i : Nat} {l : Line} : i ∈ ((s.settleQuery g m how).unit l).waiting ↔
    (i ∈ (s.unit l).waiting ∨ x.Again m how ∧ m.line = l ∧ i = g) ∧
      (i = g → (x.onEntries (DeliveryEntry.settledBy m how x.lastNumber)).pendingOn l = true) := by
  classical
  rw [settleQuery_eq found]
  by_cases again : x.Again m how
  · rw [if_pos again, mem_onDelivery (by rw [wait, onUnit_groups, found]), mem_wait]
    simp [again, eq_comm (a := l)]
  · rw [if_neg again, mem_onDelivery found]
    simp [again]

end

end State

/-- Settles O59: a query's end and a loss are changes to the entries of groups, which alone decide the notice and who waits. -/
theorem groupQueriesSettle : Obligations.GroupQueriesSettle := by
  unfold Obligations.GroupQueriesSettle
  intro s
  refine ⟨fun g m how x es found delivery => ?_, fun test tables => ?_, fun l a => ?_⟩
  · intro asked settled t again
    have only := (State.OnlyDeliveries.refl s).settleQuery g m how
    have same : DeliveryEntry.settledBy m how x.lastNumber = settled := by
      funext e
      simp only [DeliveryEntry.settledBy, settled]
      split
      · rename_i pending
        have asked_eq : e.asked = asked e := by
          unfold DeliveryEntry.asked
          simp only [asked]
          split <;> simp [pending.2]
        cases how with
        | garbled => rfl
        | silent => exact asked_eq
        | acknowledged ack =>
          cases ack with
          | none => exact asked_eq
          | notMember => rfl
          | number k => exact congrArg (fun again => if k = x.lastNumber then { e with code := .ok } else again) asked_eq
      · rfl
    have member (e : DeliveryEntry) : (settled e).member = e.member := by rw [← same, DeliveryEntry.settledBy_member]
    have after : x.onEntries settled = { x with delivery := some (es.map settled) } := by
      rw [Group.onEntries, delivery, Option.map_some]
    have again_iff : x.Again m how ↔ again := by
      simp [Group.Again, QueryEnd.isOther, delivery, again]
    refine ⟨only.state, fun i => ?_, fun before all => ?_, fun none => ?_, fun l => ⟨only.unit l, fun i ne => ?_, ?_⟩⟩
    · rw [State.settleQuery_at? found, same, after]
    · have settles : x.SettledBy settled := by
        rw [Group.SettledBy, ← Bool.not_eq_true, Group.hasPending_iff, Group.hasPending_iff, after]
        exact ⟨⟨es, delivery, before⟩, by simpa using all⟩
      exact (State.settleQuery_notices found m how).trans (by rw [same, if_pos settles])
    · have kept : ¬ x.SettledBy settled := by
        rw [Group.SettledBy, ← Bool.not_eq_true, Group.hasPending_iff, Group.hasPending_iff, after]
        rintro ⟨⟨_, hd, e, mem, pending⟩, all⟩
        cases delivery.symm.trans hd
        obtain none | some := none
        · exact none e mem pending
        · exact all ⟨_, rfl, by simpa using some⟩
      exact (State.settleQuery_notices found m how).trans (by rw [same, if_neg kept])
    · simp [t, State.mem_settleQuery found, ne]
    · simp only [t, State.mem_settleQuery found, same, Group.pendingOn_iff, after, again_iff]
      simp [member, and_comm]
  · intro t lost
    have only := (State.OnlyDeliveries.refl s).offlineWhere test
    refine ⟨only.state, fun l => ⟨only.unit l, fun g => ?_⟩, fun g => State.offlineWhere_at? tables test g, fun hit => ?_,
      fun miss => ?_⟩
    · refine State.mem_offlineWhere tables test |>.trans (and_congr_right fun _ => ?_)
      rw [State.offlineWhere_at? tables]
      simp [Group.pendingOn_iff]
    · obtain ⟨g, x, es, hx, hd, ⟨e, mem, gone⟩, all⟩ := hit
      simp only [lost, Bool.and_eq_true, beq_iff_eq] at gone all
      have settled := Group.settledBy_offlined_iff.2 ⟨es, hd, ⟨e, mem, gone.1⟩, fun e mem p => (all e mem p).2⟩
      exact (State.offlineWhere_notices tables test).trans (if_pos ⟨g, x, hx, settled⟩)
    · refine (State.offlineWhere_notices tables test).trans (if_neg ?_)
      rintro ⟨g, x, hx, settled⟩
      obtain ⟨es, hd, ⟨e, mem, pending⟩, all⟩ := Group.settledBy_offlined_iff.1 settled
      obtain none | ⟨e, mem, pending, kept⟩ := miss g x es hx hd
      · have kept := none e mem
        simp [lost, pending, all e mem pending] at kept
      · simp [lost, pending, all e mem pending] at kept
  · have lost := s.loseLine_sameDeliveries l
    exact ⟨(s.enterMissing_sameDeliveries l a).groups, (s.enterMismatch_sameDeliveries l a).groups, rfl, lost.groups,
      lost.notices, lost.waiting⟩

end Sys2Proof.Machine
end

section
/-! SUPPORT. What the line units, the stations' keys and the groups do takes no notice of the exchange with the host either. -/

namespace Sys2Proof.Machine

namespace State

section
variable (s : State) (b : List Byte) (h : HostSlot) (o : Option Firing)

@[simp] theorem withExchange_unit (l : Line) : (s.withExchange b h o).unit l = s.unit l := by cases l <;> rfl

@[simp] theorem withExchange_groups : (s.withExchange b h o).groups = s.groups := rfl

@[simp] theorem withExchange_settings : (s.withExchange b h o).settings = s.settings := rfl

@[simp] theorem withExchange_station? (l : Line) (a : Nat) : (s.withExchange b h o).station? l a = s.station? l a := by
  cases l <;> rfl

@[simp] theorem withExchange_keysOf (l : Line) (a : Nat) : (s.withExchange b h o).keysOf l a = s.keysOf l a := by
  cases l <;> rfl

@[simp] theorem withExchange_key? (k : StationInput) : (s.withExchange b h o).key? k = s.key? k := by
  rw [key?, withExchange_station?, key?]

@[simp] theorem withExchange_onUnit (l : Line) (f : LineUnit → LineUnit) :
    (s.withExchange b h o).onUnit l f = (s.onUnit l f).withExchange b h o := by cases l <;> rfl

@[simp] theorem withExchange_onStation (l : Line) (a : Nat) (f : Station → Station) :
    (s.withExchange b h o).onStation l a f = (s.onStation l a f).withExchange b h o := by cases l <;> rfl

@[simp] theorem withExchange_withGroups (x : Table Group) :
    (s.withExchange b h o).withGroups x = (s.withGroups x).withExchange b h o := rfl

@[simp] theorem withExchange_onGroup (g : Nat) (f : Group → Group) :
    (s.withExchange b h o).onGroup g f = (s.onGroup g f).withExchange b h o := rfl

/-! ## Keys -/

@[simp] theorem withExchange_dropRepeats (k : StationInput) :
    (s.withExchange b h o).dropRepeats k = (s.dropRepeats k).withExchange b h o := rfl

@[simp] theorem withExchange_letGo (k : StationInput) :
    (s.withExchange b h o).letGo k = (s.letGo k).withExchange b h o := by
  unfold letGo dropHoldings
  cases found : s.key? k <;> simp [found, withExchange_foldl]

@[simp] theorem withExchange_clearCaptures (l : Line) (a : Nat) :
    (s.withExchange b h o).clearCaptures l a = (s.clearCaptures l a).withExchange b h o := rfl

@[simp] theorem withExchange_gestureMissing (l : Line) (a : Nat) :
    (s.withExchange b h o).gestureMissing l a = (s.gestureMissing l a).withExchange b h o := by
  simp [gestureMissing, withExchange_foldl]

@[simp] theorem withExchange_gestureReturn (l : Line) (a : Nat) :
    (s.withExchange b h o).gestureReturn l a = (s.gestureReturn l a).withExchange b h o := by
  rw [gestureReturn, withExchange_keysOf]
  exact withExchange_foldl s b h o (fun _ _ => withExchange_onKey ..) _

@[simp] theorem withExchange_discardKeys (l : Line) (a : Nat) :
    (s.withExchange b h o).discardKeys l a = (s.discardKeys l a).withExchange b h o := by
  simp [discardKeys, withExchange_foldl]

/-! ## Groups -/

@[simp] theorem withExchange_pruneWaiting (g : Nat) (x : Group) (l : Line) :
    (s.withExchange b h o).pruneWaiting g x l = (s.pruneWaiting g x l).withExchange b h o := by
  simp [pruneWaiting]

@[simp] theorem withExchange_wait (g : Nat) (l : Line) : (s.withExchange b h o).wait g l = (s.wait g l).withExchange b h o := by
  simp [wait]

@[simp] theorem withExchange_onDelivery (g : Nat) (f : DeliveryEntry → DeliveryEntry) :
    (s.withExchange b h o).onDelivery g f = (s.onDelivery g f).withExchange b h o := by
  cases found : Table.at? s.groups g <;> simp [onDelivery, found]

@[simp] theorem withExchange_offlineWhere (test : Member → Bool) :
    (s.withExchange b h o).offlineWhere test = (s.offlineWhere test).withExchange b h o := by
  simp [offlineWhere, withExchange_foldl]

@[simp] theorem withExchange_forgetQueries (g : Nat) :
    (s.withExchange b h o).forgetQueries g = (s.forgetQueries g).withExchange b h o := by simp [forgetQueries]

@[simp] theorem withExchange_deliver (g : Nat) (banner : LampState) :
    (s.withExchange b h o).deliver g banner = (s.deliver g banner).withExchange b h o := by
  cases found : Table.at? s.groups g <;> simp [deliver, found]

@[simp] theorem withExchange_setMembers (g : Nat) (members : List Member) :
    (s.withExchange b h o).setMembers g members = (s.setMembers g members).withExchange b h o := by
  cases found : Table.at? s.groups g <;> simp [setMembers, found]

@[simp] theorem withExchange_leaveGroups (m : Member) :
    (s.withExchange b h o).leaveGroups m = (s.leaveGroups m).withExchange b h o := by simp [leaveGroups]

/-! ## Stations and lines -/

@[simp] theorem withExchange_configureStation (l : Line) (a : Nat) (setup : StationSetup) :
    (s.withExchange b h o).configureStation l a setup = (s.configureStation l a setup).withExchange b h o := by
  cases found : s.station? l a <;> simp [configureStation, found, offlineStation]

@[simp] theorem withExchange_removeStation (l : Line) (a : Nat) :
    (s.withExchange b h o).removeStation l a = (s.removeStation l a).withExchange b h o := by simp [removeStation]

@[simp] theorem withExchange_loseLine (l : Line) :
    (s.withExchange b h o).loseLine l = (s.loseLine l).withExchange b h o := by simp [loseLine, withExchange_foldl]

@[simp] theorem withExchange_bringIntact (l : Line) :
    (s.withExchange b h o).bringIntact l = (s.bringIntact l).withExchange b h o := by simp [bringIntact, withExchange_foldl]

@[simp] theorem withExchange_turnOff (l : Line) :
    (s.withExchange b h o).turnOff l = (s.turnOff l).withExchange b h o := by simp [turnOff]

@[simp] theorem withExchange_beginRestart (l : Line) :
    (s.withExchange b h o).beginRestart l = (s.beginRestart l).withExchange b h o := by simp [beginRestart]

end

end State

end Sys2Proof.Machine
end

section
/-! SUPPORT. How a request on stations, groups or lines that is taken ends (R161). -/

namespace Sys2Proof.Machine

namespace State

/-- What takes no notice of the exchange with the host does the same while a request is taken. -/
theorem taken_of_blind {f : State → State} (blind : ∀ s b h o, f (s.withExchange b h o) = (f s).withExchange b h o)
    (s : State) (code tag : Byte) (body : List Byte) : f (s.taken code tag body) = (f s).taken code tag body := by
  have kept := congrArg State.offered (blind s s.sdo s.hostSlot s.offered)
  exact State.taken_comm kept (blind s) code tag body

section
variable (s : State) (l : Line) (f : LineUnit → LineUnit)

theorem unit_onUnit (m : Line) : (s.onUnit l f).unit m = if l = m then f (s.unit m) else s.unit m := by
  split
  · subst m
    exact s.unit_onUnit_self l f
  · exact s.unit_onUnit_other f ‹_›

end

end State

end Sys2Proof.Machine
end

section
/-! The requests on groups (O39). -/

namespace Sys2Proof.Machine

namespace State

variable {s : State}

/-! ## Members -/

theorem pruneWaiting_stations (s : State) (g : Nat) (x : Group) (l m : Line) :
    ((s.pruneWaiting g x l).unit m).stations = (s.unit m).stations := by
  unfold pruneWaiting
  split
  · rfl
  · rw [unit_onUnit]
    split <;> rfl

theorem forgetQueries_groups (s : State) (g : Nat) : (s.forgetQueries g).groups = s.groups := by simp [forgetQueries]

/-- Nothing differs but the groups and the line units. -/
def OnlyGroups (s t : State) : Prop := t = { s with groups := t.groups, lineA := t.lineA, lineB := t.lineB }

namespace OnlyGroups

variable {s t : State}

theorem refl (s : State) : s.OnlyGroups s := rfl

theorem onUnit (h : s.OnlyGroups t) (l : Line) (f : LineUnit → LineUnit) : s.OnlyGroups (t.onUnit l f) := by
  rw [h]
  cases l <;> rfl

theorem onGroup (h : s.OnlyGroups t) (g : Nat) (f : Group → Group) : s.OnlyGroups (t.onGroup g f) := by
  rw [h]
  rfl

theorem pruneWaiting (h : s.OnlyGroups t) (g : Nat) (x : Group) (l : Line) : s.OnlyGroups (t.pruneWaiting g x l) := by
  unfold State.pruneWaiting
  split
  · exact h
  · exact h.onUnit ..

theorem forgetQueries (h : s.OnlyGroups t) (g : Nat) : s.OnlyGroups (t.forgetQueries g) := by
  unfold State.forgetQueries
  exact (h.onUnit ..).onUnit ..

end OnlyGroups

section
variable {g : Nat} {x : Group} (found : Table.at? s.groups g = some x) (members : List Member)
include found

theorem setMembers_onlyGroups : s.OnlyGroups (s.setMembers g members) := by
  simp only [setMembers, found]
  exact (((((OnlyGroups.refl s).forgetQueries g).onGroup ..).pruneWaiting ..).pruneWaiting ..).onUnit .. |>.onUnit ..

theorem setMembers_at? (i : Nat) : Table.at? (s.setMembers g members).groups i =
    if i = g then some { x with members := members, delivery := none } else Table.at? s.groups i := by
  have groups : (s.setMembers g members).groups =
      Table.adjust s.groups g fun _ => { x with members := members, delivery := none } := by
    simp only [setMembers, found, onUnit_groups, pruneWaiting_groups]
    exact congrArg _ (s.forgetQueries_groups g)
  rw [groups, Table.at?_adjust]
  split
  · subst i
    rw [found, Option.map_some]
  · rfl

theorem setMembers_station? (l : Line) (a : Nat) : (s.setMembers g members).station? l a = (s.station? l a).map fun st =>
    if st.state = .online ∧ (x.members.contains ⟨l, a⟩ ≠ members.contains ⟨l, a⟩) then { st with configurePending := true }
    else st := by
  have base (f : Group → Group) (y : Group) : ((((s.forgetQueries g).onGroup g f).pruneWaiting g y .a).pruneWaiting g y .b
      |>.unit l).stations = (s.unit l).stations := by
    rw [pruneWaiting_stations, pruneWaiting_stations]
    cases l <;> rfl
  simp only [setMembers, found, station?]
  cases l <;> simp [unit_onUnit, base]

end

/-! ## A delivery -/

/-- A group waits on a line exactly where a member there holds PENDING (R133). -/
def settleWait (s : State) (g : Nat) (x : Group) (l : Line) : State :=
  if x.pendingOn l then s.wait g l else s.pruneWaiting g x l

theorem mem_settleWait {g i : Nat} {x : Group} {l m : Line} : i ∈ ((s.settleWait g x l).unit m).waiting ↔
    if m = l ∧ i = g then x.pendingOn l = true else i ∈ (s.unit m).waiting := by
  unfold settleWait
  split
  · rename_i pending
    rw [mem_wait, pending]
    split <;> simp_all
  · rename_i none
    rw [mem_pruneWaiting]
    split <;> simp_all

theorem OnlyGroups.settleWait {t : State} (h : s.OnlyGroups t) (g : Nat) (x : Group) (l : Line) :
    s.OnlyGroups (t.settleWait g x l) := by
  unfold State.settleWait
  split
  · exact h.onUnit ..
  · exact h.pruneWaiting ..

theorem settleWait_groups (s : State) (g : Nat) (x : Group) (l : Line) : (s.settleWait g x l).groups = s.groups := by
  unfold settleWait
  split
  · exact s.onUnit_groups ..
  · exact s.pruneWaiting_groups ..

/-- A delivery can reach a member now: it is ONLINE on a line INTACT or SPLIT (R133). -/
def reaches (s : State) (m : Member) : Bool :=
  ((s.unit m.line).state == .intact || (s.unit m.line).state == .split) &&
    (s.station? m.line m.address).any fun st => st.state == .online

theorem reaches_iff {m : Member} : s.reaches m = true ↔ ((s.unit m.line).state = .intact ∨ (s.unit m.line).state = .split) ∧
    ∃ st, s.station? m.line m.address = some st ∧ st.state = .online := by
  simp [reaches, Option.any_eq_true]

/-- The entry of a member in a new delivery (R133). -/
def newEntry (s : State) (m : Member) : DeliveryEntry := ⟨m, if s.reaches m then .pending else .offline, 0⟩

theorem newEntry_pending {m : Member} : (s.newEntry m).code = .pending ↔ s.reaches m = true := by
  unfold newEntry
  cases s.reaches m <;> simp

/-- A group with a new delivery of a banner state (R133). -/
def delivered (s : State) (banner : LampState) (x : Group) : Group :=
  { x with banner := banner, lastNumber := (x.lastNumber + 1) % 8, delivery := some (x.members.map s.newEntry) }

theorem delivered_hasPending {banner : LampState} {x : Group} :
    (s.delivered banner x).hasPending = true ↔ ∃ m ∈ x.members, s.reaches m = true := by
  simp [Group.hasPending_iff, delivered, newEntry_pending]

theorem delivered_pendingOn {banner : LampState} {x : Group} {l : Line} :
    (s.delivered banner x).pendingOn l = true ↔ ∃ m ∈ x.members, m.line = l ∧ s.reaches m = true := by
  simp [Group.pendingOn_iff, delivered, newEntry, and_comm]

theorem deliver_onlyGroups (s : State) (g : Nat) (banner : LampState) (x : Group) :
    s.OnlyGroups ((((s.forgetQueries g).onGroup g fun _ => s.delivered banner x).settleWait g (s.delivered banner x) .a)
      |>.settleWait g (s.delivered banner x) .b) :=
  ((((OnlyGroups.refl s).forgetQueries g).onGroup g _).settleWait g _ .a).settleWait g _ .b

section
variable {g : Nat} {x : Group} (found : Table.at? s.groups g = some x) (banner : LampState)
include found

theorem deliver_eq : s.deliver g banner =
    let y := s.delivered banner x
    let t := (((s.forgetQueries g).onGroup g fun _ => y).settleWait g y .a).settleWait g y .b
    if y.hasPending then t else t.raise .group := by
  simp only [deliver, found]
  rfl

theorem deliver_at? (i : Nat) : Table.at? (s.deliver g banner).groups i =
    if i = g then some (s.delivered banner x) else Table.at? s.groups i := by
  have groups : (s.deliver g banner).groups = Table.adjust s.groups g fun _ => s.delivered banner x := by
    rw [deliver_eq found]
    dsimp only
    rw [apply_ite State.groups, raise_groups, ite_self, settleWait_groups, settleWait_groups]
    exact congrArg _ (s.forgetQueries_groups g)
  rw [groups, Table.at?_adjust]
  split
  · subst i
    rw [found, Option.map_some]
  · rfl

theorem mem_deliver {i : Nat} {l : Line} : i ∈ ((s.deliver g banner).unit l).waiting ↔
    if i = g then ∃ m ∈ x.members, m.line = l ∧ s.reaches m = true else i ∈ (s.unit l).waiting := by
  have same (t : State) (p : Prop) [Decidable p] : (if p then t else t.raise .group).unit l = t.unit l := by
    split
    · rfl
    · exact t.raise_unit ..
  rw [deliver_eq found]
  dsimp only
  rw [same, mem_settleWait, mem_settleWait, ← delivered_pendingOn (banner := banner)]
  have before (f : Group → Group) : (((s.forgetQueries g).onGroup g f).unit l).waiting = (s.unit l).waiting := by
    cases l <;> rfl
  rw [before]
  cases l <;> simp

theorem deliver_notices : (s.deliver g banner).notices =
    if ∃ m ∈ x.members, s.reaches m = true then s.notices else { s.notices with group := true } := by
  have only := s.deliver_onlyGroups g banner x
  rw [deliver_eq found]
  simp only [← delivered_hasPending (banner := banner)]
  split
  · rw [only]
  · rw [only]
    rfl

theorem deliver_frame : s.deliver g banner =
    { s with groups := (s.deliver g banner).groups, lineA := (s.deliver g banner).lineA,
             lineB := (s.deliver g banner).lineB, notices := (s.deliver g banner).notices } := by
  have only := s.deliver_onlyGroups g banner x
  rw [deliver_eq found]
  dsimp only
  split
  · rw [only]
  · rw [only]
    rfl

end

end State

/-! ## The checks -/

theorem configureGroup_of_ok {s : State} {body : List Byte} {g : Nat} {members : List Member} {x : Group}
    (free : s.saving = none) (decoded : decodeGroup body = .ok (g, members)) (found : Table.at? s.groups g = some x) :
    configureGroup body s = if x.hasPending = true then .refuse .notNow s else .done (s.setMembers g members) := by
  rw [configureGroup, decoded, State.parsed_ok free]
  dsimp only
  rw [found, Option.any_some, State.inOrder_cons, State.inOrder_nil]

theorem sendGroupLamp_badRequest {g banner : Byte} (h : 2 < banner.toNat) (s : State) :
    sendGroupLamp [g, banner] s = .refuse .badRequest s := by
  have unknown : lampStateOfCode banner = none := by
    revert banner
    decide
  rw [sendGroupLamp, unknown]

theorem lampStateOfCode_of_le {banner : Byte} (h : banner.toNat ≤ 2) :
    lampStateOfCode banner = some (if banner = 0 then .off else if banner = 1 then .on else .flash) := by
  revert banner
  decide

theorem sendGroupLamp_of_le {g banner : Byte} (h : banner.toNat ≤ 2) (s : State) : sendGroupLamp [g, banner] s =
    if within 1 15 g.toNat = false then .refuse .outOfRange s
    else if ((Table.at? s.groups g.toNat).map fun x => x.members.isEmpty).getD true = true then .refuse .noSuch s
    else .done (s.deliver g.toNat (if banner = 0 then .off else if banner = 1 then .on else .flash)) := by
  simp only [sendGroupLamp, lampStateOfCode_of_le h, State.inOrder_cons, State.inOrder_nil, Bool.not_eq_true']

/-- The answer on a group with sound lists fits its body (R163). -/
theorem Group.resultBody_length {x : Group} (members : x.members.length ≤ 32)
    (entries : ∀ es, x.delivery = some es → es.length ≤ 32) : x.resultBody.length ≤ 250 := by
  unfold Group.resultBody
  have pairs : (x.members.flatMap fun m => [lineCode m.line, byteOf m.address]).length = x.members.length * 2 :=
    length_flatMap_of_const (f := fun m : Member => [lineCode m.line, byteOf m.address]) (fun _ => rfl) _
  cases delivery : x.delivery with
  | none =>
    simp only [List.length_append, pairs, List.length_map, List.length_cons, List.length_nil]
    omega
  | some es =>
    have short := entries es delivery
    simp only [List.length_append, pairs, List.length_map, List.length_cons, List.length_nil]
    omega

/-- Settles O39: the checks of the three requests in order; members replaced and a delivery begun are changes to one group, the
waiting sets and the marks of the stations that gain or lose their membership. -/
theorem groupRequests : Obligations.GroupRequests := by
  unfold Obligations.GroupRequests
  intro s tag take
  refine ⟨fun body short => ?_, fun g banner => ?_, fun g => ⟨fun out => ?_, fun x h1 h2 found few fewer => ?_⟩⟩
  · intro c refused
    have refuse {r : Result} (hw : configureGroup body (s.taken 0x43 tag body) = .refuse r (s.taken 0x43 tag body)) :
        refused r := congrArg Host.Outcome.next (take.refused short hw)
    refine ⟨fun saving => refuse (State.parsed_of_saving (s := s.taken ..) saving ..), fun free => ?_⟩
    have free : (s.taken 0x43 tag body).saving = none := free
    refine ⟨fun bad => refuse ?_, fun out => refuse ?_, fun g members x decoded found => ?_⟩
    · rw [configureGroup, bad, State.parsed_malformed free]
    · rw [configureGroup, out, State.parsed_outOfRange free]
    · have judged := configureGroup_of_ok (s := s.taken 0x43 tag body) free decoded found
      refine ⟨fun pending => refuse (judged.trans (if_pos (Group.hasPending_iff.2 pending))), fun settled => ?_⟩
      refine ⟨s.setMembers g members, congrArg Host.Outcome.next (take.done short (judged.trans (if_neg ?_ |>.trans ?_))),
        State.setMembers_onlyGroups found members, State.setMembers_at? found members,
        State.setMembers_station? found members⟩
      · rw [Group.hasPending_iff]
        rintro ⟨es, delivery, e, mem, pending⟩
        exact settled es delivery e mem pending
      · exact congrArg Work.done (State.taken_of_blind (f := fun s => s.setMembers g members) (by simp) ..)
  · intro c refused
    have refuse {r : Result} (hw : sendGroupLamp [g, banner] (s.taken 0x44 tag [g, banner]) =
        .refuse r (s.taken 0x44 tag [g, banner])) : refused r :=
      congrArg Host.Outcome.next (State.TakesRequests.refused (body := [g, banner]) take (by simp) hw)
    refine ⟨fun high => refuse (sendGroupLamp_badRequest high _), fun low out => refuse ?_, fun x low h1 h2 found => ?_⟩
    · rw [sendGroupLamp_of_le low, if_pos]
      exact within_eq_false.2 (out.imp_left byte_eq_zero_iff.1)
    have within : ¬ within 1 15 g.toNat = false := by
      rw [Bool.not_eq_false, within_iff]
      exact ⟨Nat.not_lt.1 (byte_eq_zero_iff.not.1 h1), h2⟩
    have judged := sendGroupLamp_of_le (g := g) low (s.taken 0x44 tag [g, banner])
    rw [if_neg within, show Table.at? (s.taken 0x44 tag [g, banner]).groups g.toNat = some x from found, Option.map_some,
      Option.getD_some] at judged
    refine ⟨fun empty => refuse (judged.trans (if_pos (List.isEmpty_iff.2 empty))), fun members => ?_⟩
    intro reachable
    have reach (m : Member) : reachable m ↔ s.reaches m = true := State.reaches_iff.symm
    refine ⟨s.deliver g.toNat _, x.members.map s.newEntry,
      congrArg Host.Outcome.next (State.TakesRequests.done (body := [g, banner]) take (by simp)
        (judged.trans (if_neg (List.isEmpty_iff.not.2 members) |>.trans ?_))),
      State.deliver_frame found _, State.deliver_at? found _, ?_, ?_, fun l => ?_, fun l i ne => ?_, fun some => ?_,
      fun none => ?_⟩
    · exact congrArg Work.done (State.taken_of_blind (f := fun s => s.deliver g.toNat _) (by simp) ..)
    · simp [State.newEntry, Function.comp_def]
    · intro e mem
      obtain ⟨m, _, rfl⟩ := List.mem_map.1 mem
      refine ⟨rfl, fun hit => State.newEntry_pending.2 ((reach m).1 hit), fun miss => ?_⟩
      exact if_neg ((reach m).not.1 miss)
    · rw [State.mem_deliver found, if_pos rfl]
      simp only [reach]
    · rw [State.mem_deliver found, if_neg ne]
    · simp only [reach] at some
      rw [State.deliver_notices found, if_pos some]
    · simp only [reach] at none
      rw [State.deliver_notices found, if_neg (by simpa using none)]
  · have judged : readGroupResult [g] (s.taken 0x45 tag [g]) = .refuse .outOfRange (s.taken 0x45 tag [g]) :=
      by
      rw [readGroupResult, within_eq_false.2 (out.imp_left byte_eq_zero_iff.1)]
      rfl
    exact congrArg Host.Outcome.next (State.TakesRequests.refused (body := [g]) take (by simp) judged)
  · have within : within 1 15 g.toNat = true := within_iff.2 ⟨Nat.not_lt.1 (byte_eq_zero_iff.not.1 h1), h2⟩
    have judged : readGroupResult [g] (s.taken 0x45 tag [g]) =
        .answered { result := .ok, body := x.resultBody } (s.taken 0x45 tag [g]) := by
      rw [← Work.read_of_short (x.resultBody_length few fewer), readGroupResult, within]
      rw [show Table.at? (s.taken 0x45 tag [g]).groups g.toNat = some x from found]
      rfl
    exact congrArg Host.Outcome.next (State.TakesRequests.answered (body := [g]) take (by simp) judged)

end Sys2Proof.Machine
end

section
/-! SUPPORT. What a station's return leaves of its keys (R106), what a line that is lost and one that is brought into INTACT leave
(R128 to R130). -/

namespace Sys2Proof.Machine

theorem KeyRecord.returned_returned (stuck : Nat) (r : KeyRecord) : (r.returned stuck).returned stuck = r.returned stuck := by
  unfold returned
  split <;> simp_all

namespace State

variable {s t u : State}

/-! ## The stuck timers at a return -/


/-- The stuck timers of the keys of some stations of a line run again, and nothing else differs (R106). -/
structure Restarted (s t : State) (l : Line) (as : List Nat) : Prop where
  state : t = { s with lineA := t.lineA, lineB := t.lineB }
  bare : t.bare = s.bare
  key (k : StationInput) : t.key? k =
    if k.line = l ∧ k.address ∈ as then (s.key? k).map (KeyRecord.returned s.settings.stuck) else s.key? k
  unit (m : Line) (other : m ≠ l) : t.unit m = s.unit m
  station (a : Nat) (other : a ∉ as) : t.station? l a = s.station? l a


section
variable (f : KeyRecord → KeyRecord)

theorem foldl_onKey_state (ks : List StationInput) (s : State) : (ks.foldl (fun s k => s.onKey k f) s) =
    { s with
      lineA := (ks.foldl (fun s k => s.onKey k f) s).lineA, lineB := (ks.foldl (fun s k => s.onKey k f) s).lineB } := by
  induction ks generalizing s with
  | nil => rfl
  | cons k ks ih =>
    have first : s.onKey k f = { s with lineA := (s.onKey k f).lineA, lineB := (s.onKey k f).lineB } := by
      unfold onKey onStation onUnit
      cases k.line <;> rfl
    rw [List.foldl_cons, ih, first]

theorem foldl_onKey_key? (twice : ∀ r, f (f r) = f r) (ks : List StationInput) (s : State) (k : StationInput) :
    (ks.foldl (fun s k => s.onKey k f) s).key? k = if k ∈ ks then (s.key? k).map f else s.key? k := by
  induction ks generalizing s with
  | nil => rfl
  | cons j ks ih =>
    rw [List.foldl_cons, ih]
    by_cases same : k = j
    · subst j
      rw [key?_onKey_self]
      cases s.key? k <;> simp [twice]
    · simp [key?_onKey_ne f same, same]

theorem foldl_onKey_station? {ks : List StationInput} {l : Line} {a : Nat} (none : ∀ k ∈ ks, ¬ (l = k.line ∧ a = k.address))
    (s : State) : (ks.foldl (fun s k => s.onKey k f) s).station? l a = s.station? l a := by
  induction ks generalizing s with
  | nil => rfl
  | cons k ks ih =>
    obtain ⟨here, later⟩ := List.forall_mem_cons.1 none
    rw [List.foldl_cons, ih later, onKey, station?_onStation_ne _ here]

theorem foldl_onKey_unit {ks : List StationInput} {l : Line} (none : ∀ k ∈ ks, k.line ≠ l) (s : State) :
    (ks.foldl (fun s k => s.onKey k f) s).unit l = s.unit l := by
  induction ks generalizing s with
  | nil => rfl
  | cons k ks ih =>
    obtain ⟨here, later⟩ := List.forall_mem_cons.1 none
    rw [List.foldl_cons, ih later, onKey, onStation, unit_onUnit_other _ _ here]

end

theorem gestureReturn_eq (s : State) (l : Line) (a : Nat) : s.gestureReturn l a =
    (s.keysOf l a).foldl (fun t k => t.onKey k (KeyRecord.returned s.settings.stuck)) s := by
  have settings (ks : List StationInput) (t : State) (same : t.settings = s.settings) :
      ks.foldl (fun t k => t.onKey k (KeyRecord.returned t.settings.stuck)) t =
        ks.foldl (fun t k => t.onKey k (KeyRecord.returned s.settings.stuck)) t := by
    induction ks generalizing t with
    | nil => rw [List.foldl_nil, List.foldl_nil]
    | cons k ks ih => rw [List.foldl_cons, List.foldl_cons, same, ih _ (by rw [onKey, onStation, onUnit_settings, same])]
  have returns : s.gestureReturn l a =
      (s.keysOf l a).foldl (fun t k => t.onKey k (KeyRecord.returned t.settings.stuck)) s := rfl
  rw [returns, settings _ s rfl]

namespace Restarted

variable {l : Line} {as bs : List Nat}

theorem refl (s : State) (l : Line) : s.Restarted s l [] := ⟨rfl, rfl, fun k => by simp, fun _ _ => rfl, fun _ _ => rfl⟩

theorem trans (h : s.Restarted t l as) (k : t.Restarted u l bs) : s.Restarted u l (as ++ bs) := by
  refine ⟨by rw [k.state, h.state], k.bare.trans h.bare, fun i => ?_,
    fun m other => (k.unit m other).trans (h.unit m other), fun a other => ?_⟩
  · have settings : t.settings = s.settings := by rw [h.state]
    rw [k.key, h.key, settings]
    by_cases line : i.line = l
    · by_cases first : i.address ∈ as <;> by_cases second : i.address ∈ bs <;>
        cases s.key? i <;> simp [line, first, second, KeyRecord.returned_returned]
    · simp [line]
  · obtain ⟨first, second⟩ := not_or.1 (List.mem_append.not.1 other)
    exact (k.station a second).trans (h.station a first)

end Restarted

theorem restarted_gestureReturn (s : State) (l : Line) (a : Nat) : s.Restarted (s.gestureReturn l a) l [a] := by
  rw [gestureReturn_eq]
  have here {k : StationInput} (mem : k ∈ s.keysOf l a) : k.line = l ∧ k.address = a := (mem_keysOf.1 mem).1
  refine ⟨foldl_onKey_state _ _ s, ?_, fun k => ?_, fun m other => foldl_onKey_unit _ (fun k mem same => ?_) s,
    fun b other => foldl_onKey_station? _ (fun k mem same => ?_) s⟩
  · exact bare_foldl s (fun _ _ => bare_onKey ..) _
  · rw [foldl_onKey_key? _ (KeyRecord.returned_returned _)]
    simp only [mem_keysOf, List.mem_singleton]
    cases found : s.key? k <;> simp
  · exact other (same.symm.trans (here mem).1)
  · exact other (List.mem_singleton.2 (same.2.trans (here mem).2))

theorem restarted_foldl (s : State) (l : Line) (as : List Nat) :
    s.Restarted (as.foldl (fun s a => s.gestureReturn l a) s) l as := by
  induction as generalizing s with
  | nil => exact .refl s l
  | cons a as ih => exact (s.restarted_gestureReturn l a).trans (ih _)

/-- A station that returns keeps its record but for its keys, whose stuck timers run again (R106). -/
theorem Restarted.station_returned {l : Line} {as : List Nat} (h : s.Restarted t l as) {a : Nat} {st : Station}
    (found : s.station? l a = some st) : ∃ keys, t.station? l a = some { st with keys := keys } ∧
      (a ∈ as → ∀ i, Table.at? keys i = (Table.at? st.keys i).map (KeyRecord.returned s.settings.stuck)) ∧
      (a ∉ as → keys = st.keys) := by
  obtain ⟨keys, there⟩ := station?_of_bare_some h.bare found
  refine ⟨keys, there, fun mem i => ?_, fun other => ?_⟩
  · have key := h.key ⟨l, a, i⟩
    rwa [if_pos ⟨rfl, mem⟩, State.key?, there, State.key?, found] at key
  · rw [h.station a other, found] at there
    exact congrArg Station.keys (Option.some.inj there).symm

/-! ## A line brought into INTACT -/

end State

/-- A station record as its line is brought into INTACT, but for its keys (R129, R122). -/
def Station.brought (st : Station) : Station :=
  let st := { st with missCount := 0, reach := none }
  if st.state = .online then { st.forgetLamps with snapshotNeeded := true } else st

theorem Station.brought_eq (st : Station) : st.brought = { st with
    missCount := 0, reach := none, snapshotNeeded := st.snapshotNeeded || decide (st.state = .online)
    lamps := if st.state = .online then st.lamps.map fun p => { p with confirmed := none } else st.lamps } := by
  by_cases online : st.state = .online <;> simp [brought, forgetLamps, online]

theorem Station.brought_state (st : Station) : st.brought.state = st.state := by rw [brought_eq]

/-- A line unit as its line is brought into INTACT (R129). -/
def LineUnit.brought (u : LineUnit) : LineUnit :=
  { u with
    state := .intact, preferredInUse := u.preferred, active := u.preferred, continuity := 0, listen := none,
    probeTimer := some 1000, stations := Table.mapAll u.stations fun _ st => st.brought }

namespace State

/-- The stations whose keys return as a line is brought into INTACT (R129, R122). -/
def returning (s : State) (l : Line) : List Nat := Table.idsWhere (s.unit l).stations fun st => st.state == .online

theorem bringIntact_eq (s : State) (l : Line) : s.bringIntact l =
    ((s.returning l).foldl (fun s a => s.gestureReturn l a) (s.onUnit l .brought)).raise .lines := by
  have online : (s.onUnit l .brought).returning l = s.returning l := by
    simp only [returning, unit_onUnit_self, LineUnit.brought, Table.idsWhere, Table.mapAll, List.filter_map, List.map_map,
      Function.comp_def, Station.brought_state]
  rw [← online]
  rfl

theorem restarted_bringIntact (s : State) (l : Line) : (s.onUnit l .brought).Restarted
    ((s.returning l).foldl (fun s a => s.gestureReturn l a) (s.onUnit l .brought)) l (s.returning l) := restarted_foldl ..

theorem bringIntact_state (s : State) (l : Line) : s.bringIntact l = { s with
    lineA := (s.bringIntact l).lineA, lineB := (s.bringIntact l).lineB, notices := { s.notices with lines := true } } := by
  rw [bringIntact_eq, (s.restarted_bringIntact l).state]
  cases l <;> rfl

theorem bringIntact_unit_other (s : State) {l m : Line} (other : m ≠ l) : (s.bringIntact l).unit m = s.unit m := by
  rw [bringIntact_eq, raise_unit, (s.restarted_bringIntact l).unit m other, unit_onUnit_other _ _ other.symm]

theorem bringIntact_unit (s : State) (l : Line) : (s.bringIntact l).unit l =
    { (s.unit l).brought with stations := ((s.bringIntact l).unit l).stations } := by
  have same := unit_eq_of_bare (s.restarted_bringIntact l).bare l
  rw [unit_onUnit_self] at same
  rw [bringIntact_eq, raise_unit, same]

/-- What a station's record is as its line is brought into INTACT (R129, R122, R106). -/
theorem bringIntact_station {s : State} {l : Line} {a : Nat} {st : Station} (found : s.station? l a = some st) :
    ∃ st', (s.bringIntact l).station? l a = some st' ∧ st'.state = st.state ∧ st'.missCount = 0 ∧ st'.reach = none ∧
      (Table.InOrder (s.unit l).stations →
        st' = { st with
          missCount := 0, reach := none, snapshotNeeded := st.snapshotNeeded || decide (st.state = .online)
          lamps := if st.state = .online then st.lamps.map fun p => { p with confirmed := none } else st.lamps
          keys := st'.keys } ∧
        (st.state ≠ .online → st'.keys = st.keys)) ∧
      (st.state = .online → st'.snapshotNeeded = true ∧ (∀ p ∈ st'.lamps, p.confirmed = none) ∧
        ∀ i, Table.at? st'.keys i = (Table.at? st.keys i).map (KeyRecord.returned s.settings.stuck)) := by
  have brought : (s.onUnit l .brought).station? l a = some st.brought := by
    have there : Table.at? (s.unit l).stations a = some st := found
    rw [station?, unit_onUnit_self, LineUnit.brought, Table.at?_mapAll, there, Option.map_some]
  obtain ⟨keys, there, back, kept⟩ := (s.restarted_bringIntact l).station_returned brought
  have there : (s.bringIntact l).station? l a = some { st.brought with keys := keys } := by
    rw [bringIntact_eq, station?, raise_unit]
    exact there
  rw [Station.brought_eq] at there back kept
  refine ⟨_, there, rfl, rfl, rfl, fun order => ⟨rfl, fun away => kept ?_⟩, fun online => ⟨?_, ?_, ?_⟩⟩
  · rw [returning, Table.mem_idsWhere_of_at? order found]
    simpa using away
  · simp [online]
  · simp [online]
  · rw [onUnit_settings] at back
    refine back (Table.mem_idsWhere.2 ⟨st, Table.mem_of_at? found, ?_⟩)
    simpa using online

/-! ## A line that is lost -/

section
variable (s : State) (l : Line)

theorem loseLine_onlyKeys : ∃ t, s.OnlyKeys t ∧ t.OnlyDeliveries (s.loseLine l) := by
  have keys : s.OnlyKeys ((Table.ids (s.unit l).stations).foldl (fun s a => s.gestureMissing l a) s) :=
    (OnlyKeys.refl s).foldl _ fun _ a hu => hu.trans ((OnlyKeys.refl _).gestureMissing l a)
  have deliveries := (OnlyDeliveries.refl ((Table.ids (s.unit l).stations).foldl (fun s a => s.gestureMissing l a) s))
    |>.offlineWhere fun m => m.line == l
  exact ⟨_, keys, deliveries⟩

theorem loseLine_state : s.loseLine l = { s with
    circuits := (s.loseLine l).circuits, bindings := (s.loseLine l).bindings, repeats := (s.loseLine l).repeats,
    lineA := (s.loseLine l).lineA, lineB := (s.loseLine l).lineB, groups := (s.loseLine l).groups,
    notices := (s.loseLine l).notices } := by
  obtain ⟨t, keys, deliveries⟩ := s.loseLine_onlyKeys l
  rw [deliveries.state, keys.state]

theorem loseLine_unit (m : Line) : (s.loseLine l).unit m =
    { s.unit m with stations := ((s.loseLine l).unit m).stations, waiting := ((s.loseLine l).unit m).waiting } := by
  obtain ⟨t, keys, deliveries⟩ := s.loseLine_onlyKeys l
  rw [deliveries.unit, keys.unit_eq]

/-- A station keeps its record but for its keys where its line is lost (R128). -/
theorem loseLine_station (m : Line) (a : Nat) :
    ((s.loseLine l).station? m a).map Station.bare = (s.station? m a).map Station.bare := by
  obtain ⟨t, keys, deliveries⟩ := s.loseLine_onlyKeys l
  rw [deliveries.station?_eq, station?_of_bare keys.bare]

theorem loseLine_withHostSlot (h : HostSlot) : (s.withHostSlot h).loseLine l = (s.loseLine l).withHostSlot h := by
  have same := s.withExchange_loseLine s.sdo h s.offered l
  have frame := s.loseLine_state l
  refine same.trans ?_
  rw [frame]
  rfl

end

end State

end Sys2Proof.Machine
end

section
/-! Foreign characters and the restart listen (O41). -/

namespace Sys2Proof.Machine

theorem LineUnit.stop_of_contested {u : LineUnit} (h : u.state = .contested) : u.stop = { u with
    state := .contested, slot := none, healTimer := none, probeTimer := none, listen := none, continuityAsked := false } := by
  rw [← h]
  rfl

namespace State

variable {s : State}

theorem complete_eq (s : State) (r : Reply) : s.complete r = s.withHostSlot (s.complete r).hostSlot := by
  unfold complete
  split <;> rfl

section
variable {l : Line}

theorem foreignHeard_of_silent (quiet : (s.unit l).listen = none)
    (still : (s.unit l).state = .off ∨ (s.unit l).state = .contested) : s.foreignHeard l = s := by
  obtain still | still := still <;> simp only [foreignHeard, quiet, still]

/-- A running line that hears a foreign character is lost, and its Survey is answered (R128, R131). -/
theorem foreignHeard_of_running (quiet : (s.unit l).listen = none)
    (runs : (s.unit l).state = .intact ∨ (s.unit l).state = .split) : ∃ slot : HostSlot,
      s.foreignHeard l = (((s.setUnit l { s.unit l with
        state := .contested, slot := none, healTimer := none, probeTimer := none, listen := none,
        continuityAsked := false, survey := none }).loseLine l).withHostSlot slot).raise .lines ∧
      (∀ q, s.hostSlot = .working q → (s.unit l).survey.isSome = true → slot = .answerReady ⟨q.tag, .lineBusy, false, []⟩) ∧
      ((s.unit l).survey = none → slot = s.hostSlot) := by
  have body : s.foreignHeard l = ((if (s.unit l).survey.isSome then (s.onUnit l fun u => { u.stop with
      state := .contested, survey := none }).complete { result := .lineBusy } else s.onUnit l fun u => { u.stop with
      state := .contested, survey := none }).loseLine l).raise .lines := by
    obtain runs | runs := runs <;> simp only [foreignHeard, quiet, runs]
  rw [body]
  cases survey : (s.unit l).survey with
  | none =>
    refine ⟨s.hostSlot, ?_, fun q _ some => (Bool.false_ne_true some).elim, fun _ => rfl⟩
    rw [← loseLine_withHostSlot]
    cases l <;> rfl
  | some v =>
    refine ⟨((s.onUnit l fun u => { u.stop with state := .contested, survey := none }).complete { result := .lineBusy }).hostSlot,
      ?_, fun q working _ => ?_, nofun⟩
    · rw [Option.isSome_some, if_pos rfl, complete_eq, loseLine_withHostSlot]
      rfl
    · rw [complete_of_working ((s.onUnit_hostSlot l _).trans working)]
      rfl

/-- A restart listen that a foreign character ends leaves the line CONTESTED (R129). -/
theorem foreignHeard_of_listening {n : Nat} {q : Request} (listening : (s.unit l).listen = some n)
    (on : (s.unit l).state ≠ .off) (working : s.hostSlot = .working q) : s.foreignHeard l =
      { s.setUnit l { s.unit l with
          state := .contested, slot := none, healTimer := none, probeTimer := none, listen := none,
          continuityAsked := false } with
        notices := if (s.unit l).state = .contested then s.notices else { s.notices with lines := true }
        hostSlot := .answerReady ⟨q.tag, .lineBusy, false, []⟩ } := by
  cases state : (s.unit l).state with
  | off => exact absurd state on
  | contested =>
    simp only [foreignHeard, listening, state]
    rw [complete_of_working ((s.onUnit_hostSlot l _).trans working), onUnit, LineUnit.stop_of_contested state,
      if_pos trivial]
    cases l <;> rfl
  | intact | split =>
    simp only [foreignHeard, listening, state]
    have slot (f : LineUnit → LineUnit) : ((s.onUnit l f).raise .lines).hostSlot = .working q :=
      (s.onUnit_hostSlot l f).trans working
    rw [complete_of_working (slot _), if_neg nofun]
    cases l <;> rfl

theorem listenExpiry_of_listening {n : Nat} {q : Request} (listening : (s.unit l).listen = some n)
    (working : s.hostSlot = .working q) :
    s.listenExpiry l = (s.bringIntact l).withHostSlot (.answerReady ⟨q.tag, .ok, false, []⟩) := by
  have slot : (s.bringIntact l).hostSlot = .working q := by
    rw [bringIntact_state]
    exact working
  simp only [listenExpiry, listening, Option.isNone_some, Bool.false_eq_true, if_false]
  rw [complete_of_working slot]
  rfl

end

end State

/-- Settles O41: what a foreign character and a quiet listen do by the state of the line, from what a lost line and one brought into
INTACT leave. -/
theorem foreignCharactersAndTheRestartListen : Obligations.ForeignCharactersAndTheRestartListen := by
  unfold Obligations.ForeignCharactersAndTheRestartListen
  intro s l running u
  rw [exec_foreignCharacter running, exec_restartListenExpiry running]
  refine ⟨fun quiet still => by rw [State.foreignHeard_of_silent quiet still], fun quiet runs => ?_,
    fun n q listening on working => ⟨_, rfl, State.foreignHeard_of_listening listening on working⟩, fun quiet => ?_,
    fun n q listening working => ?_⟩
  · obtain ⟨slot, heard, answered, unasked⟩ := State.foreignHeard_of_running quiet runs
    refine ⟨s.foreignHeard l, rfl, ?_⟩
    rw [heard]
    generalize hb : s.setUnit l { u with
      state := .contested, slot := none, healTimer := none, probeTimer := none, listen := none, continuityAsked := false,
      survey := none } = base
    have before : base.unit l = { u with
        state := .contested, slot := none, healTimer := none, probeTimer := none, listen := none, continuityAsked := false,
        survey := none } := by rw [← hb, State.unit_setUnit_self]
    have frame := base.loseLine_state l
    have unit := base.loseLine_unit l l
    have kept : (((base.loseLine l).withHostSlot slot).raise .lines).unit l = (base.loseLine l).unit l := by cases l <;> rfl
    have same (a : Nat) : base.station? l a = s.station? l a := by rw [State.station?, before, State.station?]
    rw [before] at unit
    have rest : base.mode = s.mode ∧ base.racks = s.racks ∧ base.settings = s.settings := by
      rw [← hb]
      cases l <;> exact ⟨rfl, rfl, rfl⟩
    refine ⟨by rw [kept, unit], by rw [kept, unit], by rw [kept, unit], by rw [kept, unit], by rw [kept, unit],
      by rw [kept, unit], rfl, fun a => ?_, fun q working some => ?_, fun none => ?_, rfl, ?_, ?_, ?_⟩
    · have bare := congrArg (Option.map fun st : Station => (st.state, st.missCount, st.reach)) (base.loseLine_station l l a)
      rw [Option.map_map, Option.map_map, same] at bare
      rw [State.station?, kept]
      exact bare
    · exact answered q working some
    · exact unasked none
    · rw [frame]
      exact rest.1
    · rw [frame]
      exact rest.2.1
    · rw [frame]
      exact rest.2.2
  · simp [State.listenExpiry, show (s.unit l).listen = none from quiet]
  · refine ⟨s.listenExpiry l, rfl, ?_⟩
    rw [State.listenExpiry_of_listening listening working]
    have same (m : Line) (slot : HostSlot) : ((s.bringIntact l).withHostSlot slot).unit m = (s.bringIntact l).unit m := by
      cases m <;> rfl
    refine ⟨?_, fun m other => ?_, ?_, ?_, ?_, ?_, ?_, fun a st found => ?_⟩
    · rw [s.bringIntact_state l]
      rfl
    · rw [same, s.bringIntact_unit_other other]
    · rw [same, s.bringIntact_unit l]
      rfl
    · rw [same, s.bringIntact_unit l]
      rfl
    · rw [same, s.bringIntact_unit l]
      rfl
    · rw [same, s.bringIntact_unit l]
      rfl
    · rw [same, s.bringIntact_unit l]
      rfl
    · rw [State.station?, same]
      exact State.bringIntact_station found

end Sys2Proof.Machine
end

section
/-! SUPPORT. The requests on a line, by the state of the line (R126, R129 to R131, R136). -/

namespace Sys2Proof.Machine

theorem LineUnit.body_length (u : LineUnit) : u.body.length ≤ 250 := by
  have sets (states : List StationState) : (states.flatMap fun state =>
      addressSet (Table.idsWhere u.stations fun st => st.state == state)).length = states.length * 8 :=
    length_flatMap_of_const (f := fun state => addressSet (Table.idsWhere u.stations fun st => st.state == state))
      (by simp [addressSet]) states
  rw [body, List.length_append, sets]
  exact Nat.le_of_ble_eq_true rfl

namespace State

variable {s : State} {l : Line}

theorem onUnit_eq (s : State) (l : Line) (f : LineUnit → LineUnit) : s.onUnit l f = s.setUnit l (f (s.unit l)) := rfl

theorem setUnit_taken (s : State) (l : Line) (u : LineUnit) (code tag : Byte) (body : List Byte) :
    (s.taken code tag body).setUnit l u = (s.setUnit l u).taken code tag body := by cases l <;> rfl

@[simp] theorem taken_unit (s : State) (code tag : Byte) (body : List Byte) (l : Line) :
    (s.taken code tag body).unit l = s.unit l := by cases l <;> rfl

theorem lineControl_of_free (free : s.saving = none) (l : Line) {setting : Byte} {on : Bool} (decoded : flagOfByte setting = some on) :
    lineControl [lineCode l, setting] s = if on then s.turnOn l else .done (s.turnOff l) := by
  have idle : s.isSaving = false := by rw [isSaving, free, Option.isSome_none]
  simp only [lineControl, lineOfCode_lineCode, decoded, inOrder_cons, inOrder_nil, idle, Bool.false_eq_true, if_false]

/-! ## SelectEnd -/

section
variable (take : s.TakesRequests) (tag : Byte) {side : Byte} {e : LineEnd} (decoded : endOfCode side = some e)
include take decoded

theorem exec_selectEnd_of_intact (state : (s.unit l).state = .intact) : exec (.selectEnd tag [lineCode l, side]) s =
    .next ((s.setUnit l { s.unit l with active := e, continuity := 0 }).answered 2 tag .ok false []) := by
  refine congrArg Host.Outcome.next (State.TakesRequests.done (body := [lineCode l, side]) take (by simp) ?_)
  simp only [selectEnd, lineOfCode_lineCode, decoded, taken_unit, state]
  rw [← setUnit_taken, onUnit_eq, taken_unit, state]

theorem exec_selectEnd_of_split (state : (s.unit l).state = .split) : exec (.selectEnd tag [lineCode l, side]) s =
    .next (s.answered 2 tag .notNow false []) := by
  refine congrArg Host.Outcome.next (State.TakesRequests.refused (body := [lineCode l, side]) take (by simp) ?_)
  simp only [selectEnd, lineOfCode_lineCode, decoded, taken_unit, state]

theorem exec_selectEnd_of_silent (state : (s.unit l).state = .off ∨ (s.unit l).state = .contested) :
    exec (.selectEnd tag [lineCode l, side]) s = .next (s.answered 2 tag .lineBusy false []) := by
  refine congrArg Host.Outcome.next (State.TakesRequests.refused (body := [lineCode l, side]) take (by simp) ?_)
  obtain state | state := state <;> simp only [selectEnd, lineOfCode_lineCode, decoded, taken_unit, state]

end

/-! ## Survey, LineRestart, ReadLine -/

section
variable (take : s.TakesRequests) (tag : Byte) (l : Line)
include take

theorem exec_survey : exec (.survey tag [lineCode l]) s = .next (
    if (s.unit l).state = .off ∨ (s.unit l).state = .contested then s.answered 1 tag .lineBusy false []
    else (s.setUnit l { s.unit l with survey := some ⟨1, [], false, false⟩ }).atWork 0x46 tag [lineCode l]) := by
  have body : survey [lineCode l] (s.taken 0x46 tag [lineCode l]) =
      if (s.unit l).state.runs = false then .refuse .lineBusy (s.taken 0x46 tag [lineCode l])
      else .inWork ((s.setUnit l { s.unit l with survey := some ⟨1, [], false, false⟩ }).taken 0x46 tag [lineCode l]) := by
    simp only [survey, lineOfCode_lineCode, inOrder_cons, inOrder_nil, taken_unit, Bool.not_eq_true', onUnit_eq, setUnit_taken]
  refine congrArg Host.Outcome.next ?_
  split
  · rename_i silent
    have stopped : (s.unit l).state.runs = false := by obtain h | h := silent <;> rw [h] <;> rfl
    exact State.TakesRequests.refused (body := [lineCode l]) take (by simp) (body.trans (if_pos stopped))
  · rename_i running
    have runs : ¬ (s.unit l).state.runs = false := by
      cases h : (s.unit l).state <;> simp_all [LineState.runs]
    exact State.takeRequest_of_inWork (body := [lineCode l]) take.1 take.2 (by simp) (body.trans (if_neg runs))

theorem exec_readLine : exec (.readLine tag [lineCode l]) s =
    .next ((s.setUnit l { s.unit l with takenOver := false }).answered 1 tag .ok false (s.unit l).body) := by
  refine congrArg Host.Outcome.next (State.TakesRequests.answered (body := [lineCode l]) (r := { result := .ok, body := _ })
    take (by simp) ?_)
  simp only [readLine, lineOfCode_lineCode, taken_unit, onUnit_eq, setUnit_taken]
  exact Work.read_of_short (s.unit l).body_length _

theorem exec_lineRestart_of_off (off : (s.unit l).state = .off) :
    exec (.lineRestart tag [lineCode l]) s = .next (s.answered 1 tag .lineBusy false []) := by
  refine congrArg Host.Outcome.next (State.TakesRequests.refused (body := [lineCode l]) take (by simp) ?_)
  simp only [lineRestart, lineOfCode_lineCode, inOrder_cons, taken_unit, off]
  rfl

theorem exec_lineRestart_of_on (on : (s.unit l).state ≠ .off) :
    exec (.lineRestart tag [lineCode l]) s = .next ((s.beginRestart l).atWork 0x49 tag [lineCode l]) := by
  refine congrArg Host.Outcome.next (State.takeRequest_of_inWork (body := [lineCode l]) take.1 take.2 (by simp)
    (t := (s.beginRestart l).taken 0x49 tag [lineCode l]) ?_)
  have passed : ¬ ((s.unit l).state == .off) = true := by simpa using on
  simp only [lineRestart, lineOfCode_lineCode, inOrder_cons, inOrder_nil, taken_unit, if_neg passed]
  exact congrArg Work.inWork (taken_of_blind (f := fun s => s.beginRestart l) (by simp) ..)

/-! ## LineControl -/

section
variable {setting : Byte} {on : Bool} (decoded : flagOfByte setting = some on)
include decoded

theorem exec_lineControl_of_saving (saving : s.saving.isSome = true) :
    exec (.lineControl tag [lineCode l, setting]) s = .next (s.answered 2 tag .busySaving false []) := by
  refine congrArg Host.Outcome.next (State.TakesRequests.refused (body := [lineCode l, setting]) take (by simp) ?_)
  have busy : (s.taken 0x47 tag [lineCode l, setting]).isSaving = true := saving
  simp only [lineControl, lineOfCode_lineCode, decoded, inOrder_cons, busy, if_true]

end

section
variable (free : s.saving = none)
include free

theorem exec_lineControl_off : exec (.lineControl tag [lineCode l, 0]) s = .next ((s.turnOff l).answered 2 tag .ok false []) := by
  refine congrArg Host.Outcome.next (State.TakesRequests.done (body := [lineCode l, 0]) take (by simp)
    ((lineControl_of_free (s := s.taken ..) free l rfl).trans ?_))
  exact congrArg Work.done (taken_of_blind (f := fun s => s.turnOff l) (by simp) ..)

theorem exec_lineControl_on_of_off (off : (s.unit l).state = .off) :
    exec (.lineControl tag [lineCode l, 1]) s = .next ((s.bringIntact l).answered 2 tag .ok false []) := by
  refine congrArg Host.Outcome.next (State.TakesRequests.done (body := [lineCode l, 1]) take (by simp)
    ((lineControl_of_free (s := s.taken ..) free l rfl).trans ?_))
  simp only [if_true, turnOn, taken_unit, off]
  exact congrArg Work.done (taken_of_blind (f := fun s => s.bringIntact l) (by simp) ..)

theorem exec_lineControl_on_of_running (runs : (s.unit l).state = .intact ∨ (s.unit l).state = .split) :
    exec (.lineControl tag [lineCode l, 1]) s = .next (s.answered 2 tag .ok false []) := by
  refine congrArg Host.Outcome.next (State.TakesRequests.done (body := [lineCode l, 1]) take (by simp)
    ((lineControl_of_free (s := s.taken ..) free l rfl).trans ?_))
  obtain runs | runs := runs <;> simp only [if_true, turnOn, taken_unit, runs]

theorem exec_lineControl_on_of_contested (contested : (s.unit l).state = .contested) :
    exec (.lineControl tag [lineCode l, 1]) s = .next (s.answered 2 tag .lineBusy false []) := by
  refine congrArg Host.Outcome.next (State.TakesRequests.refused (body := [lineCode l, 1]) take (by simp)
    ((lineControl_of_free (s := s.taken ..) free l rfl).trans ?_))
  simp only [if_true, turnOn, taken_unit, contested]

end

end

/-! ## What the requests leave of a line -/

section
variable (l : Line)

theorem turnOff_of_off (off : (s.unit l).state = .off) : s.turnOff l = s := by simp [turnOff, off]

/-- A line stopped, in a state (R128, step 1). -/
def stopped (s : State) (l : Line) (state : LineState) : State := s.setUnit l { s.unit l with
  state := state, slot := none, healTimer := none, probeTimer := none, listen := none, continuityAsked := false }

theorem turnOff_of_on (on : (s.unit l).state ≠ .off) : s.turnOff l =
    (if (s.unit l).state = .contested then s.stopped l .off else (s.stopped l .off).loseLine l).raise .lines := by
  unfold turnOff
  cases state : (s.unit l).state <;> simp_all [LineState.runs] <;> rfl

theorem beginRestart_of_contested (contested : (s.unit l).state = .contested) : s.beginRestart l = s.setUnit l { s.unit l with
    slot := none, healTimer := none, probeTimer := none, listen := some 200, continuityAsked := false } := by
  simp [beginRestart, contested, LineState.runs, onUnit_eq, LineUnit.stop]

theorem beginRestart_of_running (runs : (s.unit l).state = .intact ∨ (s.unit l).state = .split) :
    s.beginRestart l = ((s.stopped l (s.unit l).state).loseLine l).onUnit l fun u => { u with listen := some 200 } := by
  obtain runs | runs := runs <;> simp [beginRestart, runs, LineState.runs, onUnit_eq, LineUnit.stop, stopped]

end

end State

end Sys2Proof.Machine
end

section
/-! SUPPORT. How an answer window ends (R116, R126, R127), and the end of a Survey's slot (R131). -/

namespace Sys2Proof.Machine

section
variable {α : Type} {decode : List Character → Option α}

theorem firstSound_of_none {heard : List Heard} (unsound : ∀ h ∈ heard, decode h.chars = none) :
    firstSound decode heard = none := by
  refine List.findSome?_eq_none_iff.2 fun h mem => ?_
  rw [unsound h mem, Option.map_none]

/-- The first copy that can be decoded is taken (R116, R126). -/
theorem firstSound_of_some {before rest : List Heard} {h : Heard} {x : α} (unsound : ∀ i ∈ before, decode i.chars = none)
    (sound : decode h.chars = some x) : firstSound decode (before ++ h :: rest) = some (h.side, x) := by
  have skipped := firstSound_of_none unsound
  unfold firstSound at skipped ⊢
  rw [List.findSome?_append, skipped, Option.none_or, List.findSome?_cons, sound, Option.map_some]

end

namespace State

variable {s : State} {l : Line} {x : Slot} {n : Nat}

section
variable (inSlot : (s.unit l).slot = some x) (opened : x.window = some n)
include inSlot opened

theorem awaiting_of_open : s.awaiting l = some x := by simp [awaiting, inSlot, opened]

theorem answerHeard_of_sound {before rest : List Heard} {h : Heard} {f : AnswerFrame}
    (unsound : ∀ i ∈ before, decodeAnswer i.chars = none) (sound : decodeAnswer h.chars = some f) :
    s.answerHeard l (before ++ h :: rest) = s.endSlot l x (.answer h.side f) := by
  simp only [answerHeard, awaiting_of_open inSlot opened, firstSound_of_some unsound sound]

theorem answerHeard_of_garbled {heard : List Heard} (noise : heard ≠ []) (unsound : ∀ h ∈ heard, decodeAnswer h.chars = none) :
    s.answerHeard l heard = s.endSlot l x .garbled := by
  simp only [answerHeard, awaiting_of_open inSlot opened, firstSound_of_none unsound, List.isEmpty_iff, if_neg noise]

theorem snapshotHeard_of_sound {before rest : List Heard} {h : Heard} {f : SnapshotFrame}
    (unsound : ∀ i ∈ before, decodeSnapshot i.chars = none) (sound : decodeSnapshot h.chars = some f) :
    s.snapshotHeard l (before ++ h :: rest) = s.endSlot l x (.snapshot h.side f) := by
  simp only [snapshotHeard, awaiting_of_open inSlot opened, firstSound_of_some unsound sound]

/-- An Answer heard is taken or garbled (R116). -/
theorem answerHeard_of_noise {heard : List Heard} (noise : heard ≠ []) : ∃ how : SlotEnd,
    s.answerHeard l heard = s.endSlot l x how ∧ (how = .garbled ∨ ∃ side f, how = .answer side f) := by
  simp only [answerHeard, awaiting_of_open inSlot opened, List.isEmpty_iff, if_neg noise]
  cases firstSound decodeAnswer heard with
  | none => exact ⟨.garbled, rfl, .inl rfl⟩
  | some taken => exact ⟨.answer taken.1 taken.2, rfl, .inr ⟨_, _, rfl⟩⟩

/-- A Snapshot Answer heard is taken or garbled (R116). -/
theorem snapshotHeard_of_noise {heard : List Heard} (noise : heard ≠ []) : ∃ how : SlotEnd,
    s.snapshotHeard l heard = s.endSlot l x how ∧ (how = .garbled ∨ ∃ side f, how = .snapshot side f) := by
  simp only [snapshotHeard, awaiting_of_open inSlot opened, List.isEmpty_iff, if_neg noise]
  cases firstSound decodeSnapshot heard with
  | none => exact ⟨.garbled, rfl, .inl rfl⟩
  | some taken => exact ⟨.snapshot taken.1 taken.2, rfl, .inr ⟨_, _, rfl⟩⟩

theorem snapshotHeard_of_garbled {heard : List Heard} (noise : heard ≠ []) (unsound : ∀ h ∈ heard, decodeSnapshot h.chars = none) :
    s.snapshotHeard l heard = s.endSlot l x .garbled := by
  simp only [snapshotHeard, awaiting_of_open inSlot opened, firstSound_of_none unsound, List.isEmpty_iff, if_neg noise]

/-- The content goes out again on the other end (R127). -/
theorem windowExpiry_of_other {e : LineEnd} (other : x.otherSide = some e) (split : (s.unit l).state = .split)
    (valid : x.carries.isVoided = false) : s.windowExpiry l = s.setUnit l { s.unit l with
      slot := some { x with side := e, otherSide := none, window := none, sending := x.content } } := by
  simp [windowExpiry, awaiting_of_open inSlot opened, other, split, valid, onUnit_eq]

theorem windowExpiry_of_silent (silent : x.otherSide = none ∨ (s.unit l).state ≠ .split ∨ x.carries.isVoided = true) :
    s.windowExpiry l = s.endSlot l x .silent := by
  simp only [windowExpiry, awaiting_of_open inSlot opened]
  split
  · rename_i e other
    refine if_neg fun ⟨split, valid⟩ => ?_
    obtain none | away | void := silent
    · exact nomatch none.symm.trans other
    · exact away split
    · exact valid void
  · rfl

end

/-! ## A Survey -/

end State

/-- A line unit at the end of its Survey: polling goes on and the held expiries are taken (R131). -/
def LineUnit.endSurvey (u : LineUnit) (v : Survey) : LineUnit :=
  { u with
    slot := none, survey := none, continuityAsked := u.continuityAsked || v.healHeld
    probeList := if v.probeHeld then
        u.probeList ++ ((u.stations.filter fun e =>
          e.2.state == .expected || e.2.state == .missing || e.2.state == .mismatch).map Prod.fst).filter
            fun i => !u.probeList.contains i
      else u.probeList }

namespace State

variable {s : State} {l : Line} {x : Slot} {n : Nat}

/-- A line as the slot of a Survey for an address leaves it, with what it found (R131). -/
def surveyed (s : State) (l : Line) (v : Survey) (a : Nat) (found : List (Nat × Byte)) : State :=
  if a < 60 then
    s.setUnit l { s.unit l with slot := none, survey := some { v with next := a + 1, found := v.found ++ found } }
  else (s.setUnit l ((s.unit l).endSurvey v)).complete
    { result := .ok, body := (v.found ++ found).flatMap fun e => [byteOf e.1, e.2] }

theorem endSlot_of_survey {v : Survey} {a : Nat} (carries : x.carries = .survey a) (surveying : (s.unit l).survey = some v)
    (how : SlotEnd) : s.endSlot l x how = s.surveyed l v a ((surveyFinding how).map fun k => (a, k)).toList := by
  unfold surveyed endSlot endSurveySlot
  simp only [carries, onUnit_eq, unit_setUnit_self, surveying, setUnit_setUnit]
  refine if_congr Iff.rfl rfl (congrArg (fun u => (s.setUnit l u).complete _) ?_)
  cases held : v.probeHeld <;> simp [LineUnit.addProbes_eq, LineUnit.endSurvey, held]

theorem complete_hostSlot (s : State) (result : Result) (body : List Byte) : s.complete { result := result, body := body } =
    { s with hostSlot := match s.hostSlot with
        | .working q => .answerReady ⟨q.tag, result, false, body⟩
        | slot => slot } := by
  unfold complete
  cases slot : s.hostSlot with
  | working q => rfl
  | idle | answerReady a =>
    dsimp only
    rw [← slot]

end State

theorem LineState.intact_or_split {x : LineState} (on : x ≠ .off) (silent : x ≠ .contested) : x = .intact ∨ x = .split := by
  cases x <;> simp_all

namespace State

variable {s : State} {l : Line}

theorem stopped_rest (s : State) (l : Line) (state : LineState) :
    (s.stopped l state).mode = s.mode ∧ (s.stopped l state).racks = s.racks := by cases l <;> exact ⟨rfl, rfl⟩

theorem loseLine_rest (s : State) (l : Line) : (s.loseLine l).mode = s.mode ∧ (s.loseLine l).racks = s.racks := by
  rw [loseLine_state]
  exact ⟨rfl, rfl⟩

theorem stopped_lost_unit (s : State) (l : Line) (state : LineState) : ((s.stopped l state).loseLine l).unit l = { s.unit l with
    state := state, slot := none, healTimer := none, probeTimer := none, listen := none, continuityAsked := false
    stations := (((s.stopped l state).loseLine l).unit l).stations
    waiting := (((s.stopped l state).loseLine l).unit l).waiting } := by
  have unit := (s.stopped l state).loseLine_unit l l
  have before : (s.stopped l state).unit l = { s.unit l with
      state := state, slot := none, healTimer := none, probeTimer := none, listen := none, continuityAsked := false } :=
    s.unit_setUnit_self l _
  rw [before] at unit
  exact unit

theorem beginRestart_rest (s : State) (l : Line) :
    (s.beginRestart l).mode = s.mode ∧ (s.beginRestart l).racks = s.racks := by
  simp only [beginRestart, onUnit_mode, onUnit_racks]
  split
  · exact ⟨(loseLine_rest _ l).1.trans (s.onUnit_mode ..), (loseLine_rest _ l).2.trans (s.onUnit_racks ..)⟩
  · exact ⟨s.onUnit_mode .., s.onUnit_racks ..⟩

theorem beginRestart_unit (on : (s.unit l).state ≠ .off) : (s.beginRestart l).unit l = { s.unit l with
    slot := none, healTimer := none, probeTimer := none, listen := some 200, continuityAsked := false
    stations := ((s.beginRestart l).unit l).stations, waiting := ((s.beginRestart l).unit l).waiting } := by
  by_cases contested : (s.unit l).state = .contested
  · rw [beginRestart_of_contested l contested, unit_setUnit_self]
  · rw [beginRestart_of_running l (LineState.intact_or_split on contested), unit_onUnit_self, stopped_lost_unit]

theorem turnOff_rest (s : State) (l : Line) : (s.turnOff l).mode = s.mode ∧ (s.turnOff l).racks = s.racks := by
  by_cases off : (s.unit l).state = .off
  · rw [turnOff_of_off l off]
    exact ⟨rfl, rfl⟩
  · rw [turnOff_of_on l off]
    split
    · exact s.stopped_rest l .off
    · exact ⟨(loseLine_rest _ l).1.trans (s.stopped_rest l .off).1, (loseLine_rest _ l).2.trans (s.stopped_rest l .off).2⟩

theorem turnOff_unit (on : (s.unit l).state ≠ .off) : (s.turnOff l).unit l = { s.unit l with
    state := .off, slot := none, healTimer := none, probeTimer := none, listen := none, continuityAsked := false
    stations := ((s.turnOff l).unit l).stations, waiting := ((s.turnOff l).unit l).waiting } := by
  rw [turnOff_of_on l on, raise_unit]
  split
  · rw [stopped, unit_setUnit_self]
  · exact s.stopped_lost_unit l .off

end State

/-- Settles O40: each request by the state of the line, and the end of a Survey's slot by what was heard in it. -/
theorem lineRequests : Obligations.LineRequests := by
  unfold Obligations.LineRequests
  refine ⟨fun s tag l take => ?_, fun s l x a n v running inSlot opened carries surveying => ?_⟩
  · intro code u
    refine ⟨?_, ?_, State.exec_survey take tag l, State.exec_readLine take tag l, State.exec_lineRestart_of_off take tag l,
      fun on => ⟨s.beginRestart l, State.exec_lineRestart_of_on take tag l on, ?_⟩, fun saving setting low => ?_,
      fun free => ⟨fun off => ?_, fun on => ⟨s.turnOff l, State.exec_lineControl_off take tag l free, ?_⟩,
        State.exec_lineControl_on_of_contested take tag l free, State.exec_lineControl_on_of_running take tag l free,
        fun off => ⟨s.bringIntact l, State.exec_lineControl_on_of_off take tag l free off, ?_⟩⟩⟩
    · cases state : u.state with
      | intact =>
        refine (State.exec_selectEnd_of_intact take tag (side := 0) (e := .a) rfl state).trans ?_
        dsimp only
        rw [show (s.unit l).state = .intact from state]
      | split => exact State.exec_selectEnd_of_split take tag (side := 0) (e := .a) rfl state
      | off => exact State.exec_selectEnd_of_silent take tag (side := 0) (e := .a) rfl (.inl state)
      | contested => exact State.exec_selectEnd_of_silent take tag (side := 0) (e := .a) rfl (.inr state)
    · cases state : u.state with
      | intact =>
        refine (State.exec_selectEnd_of_intact take tag (side := 1) (e := .b) rfl state).trans ?_
        dsimp only
        rw [show (s.unit l).state = .intact from state]
      | split => exact State.exec_selectEnd_of_split take tag (side := 1) (e := .b) rfl state
      | off => exact State.exec_selectEnd_of_silent take tag (side := 1) (e := .b) rfl (.inl state)
      | contested => exact State.exec_selectEnd_of_silent take tag (side := 1) (e := .b) rfl (.inr state)
    · have rest := State.beginRestart_rest s l
      refine ⟨?_, ?_, ?_, ?_, ?_, rest.1, rest.2, State.beginRestart_of_contested l, fun away => ?_⟩
      · rw [State.beginRestart_unit on]
      · rw [State.beginRestart_unit on]
      · rw [State.beginRestart_unit on]
      · rw [State.beginRestart_unit on]
      · rw [State.beginRestart_unit on]
      · exact State.beginRestart_of_running l (LineState.intact_or_split on away)
    · obtain ⟨on, decoded⟩ : ∃ on, flagOfByte setting = some on := by
        revert setting
        decide
      exact State.exec_lineControl_of_saving take tag l decoded saving
    · exact (State.exec_lineControl_off take tag l free).trans (by rw [State.turnOff_of_off l off])
    · have notices : (s.turnOff l).notices.has .lines = true := by rw [State.turnOff_of_on l on]; rfl
      have rest := State.turnOff_rest s l
      refine ⟨?_, ?_, ?_, ?_, ?_, notices, rest.1, rest.2, State.turnOff_of_on l on⟩
      · rw [State.turnOff_unit on]
      · rw [State.turnOff_unit on]
      · rw [State.turnOff_unit on]
      · rw [State.turnOff_unit on]
      · rw [State.turnOff_unit on]
    · have state := s.bringIntact_state l
      have unit := s.bringIntact_unit l
      refine ⟨by rw [unit]; rfl, by rw [unit]; rfl, by rw [unit]; rfl, by rw [unit]; rfl, by rw [state], ?_,
        fun a st found => State.bringIntact_station found⟩
      rw [state]
  · intro u ended
    rw [exec_answerWindowExpiry running]
    have finds (how : SlotEnd) : s.endSlot l x how = ended ((surveyFinding how).map fun k => (a, k)).toList := by
      refine (State.endSlot_of_survey carries surveying how).trans (if_congr Iff.rfl rfl ?_)
      rw [State.complete_hostSlot, State.setUnit_hostSlot]
      rfl
    refine ⟨fun heard before h rest f split unsound sound => ?_, fun heard noise unsound => ?_, fun heard noise => ?_,
      fun silent => ?_, fun e other split => ?_⟩
    · rw [exec_stationAnswer running, split, State.answerHeard_of_sound inSlot opened unsound sound, finds]
      rfl
    · rw [exec_stationAnswer running, State.answerHeard_of_garbled inSlot opened noise unsound, finds]
      rfl
    · obtain ⟨how, heard, rfl | ⟨side, f, rfl⟩⟩ := State.snapshotHeard_of_noise inSlot opened noise
      all_goals
        rw [exec_snapshotAnswer running, heard, finds]
        rfl
    · rw [State.windowExpiry_of_silent inSlot opened (silent.imp_right .inl), finds]
      rfl
    · rw [State.windowExpiry_of_other inSlot opened other split (by rw [carries]; rfl)]

end Sys2Proof.Machine
end

section
/-! SUPPORT. The key records of a station that are discarded (R98): its keys are let go as at a loss, but for what their records
keep then. -/

namespace Sys2Proof.Machine

theorem KeyRecord.atMissing_emptied (r : KeyRecord) :
    ({ r with holdings := [] } : KeyRecord).atMissing = { r.atMissing with holdings := [] } := by
  unfold atMissing
  dsimp only
  split
  · rfl
  · split <;> rfl

namespace State

section
variable (s : State)

theorem onStation_comm (l m : Line) (a b : Nat) {f g : Station → Station} (h : ∀ st, f (g st) = g (f st)) :
    (s.onStation m b g).onStation l a f = (s.onStation l a f).onStation m b g := by
  have comm (t : Table Station) := Table.adjust_comm t a b h
  cases l with
  | a =>
    cases m with
    | a => simp only [onStation, onUnit, setUnit, unit, comm]
    | b => rfl
  | b =>
    cases m with
    | a => rfl
    | b => simp only [onStation, onUnit, setUnit, unit, comm]

theorem onKey_comm (j k : StationInput) {f g : KeyRecord → KeyRecord} (h : ∀ r, f (g r) = g (f r)) :
    (s.onKey k g).onKey j f = (s.onKey j f).onKey k g :=
  s.onStation_comm _ _ _ _ fun st => by simp only [Table.adjust_comm _ _ _ h]

/-- What a key record keeps when its station is lost does not matter to the letting go of a key. -/
theorem letGo_onKey_atMissing (j k : StationInput) : (s.onKey k .atMissing).letGo j = (s.letGo j).onKey k .atMissing := by
  have empty : (s.onKey k .atMissing).emptied j = (s.emptied j).onKey k .atMissing :=
    s.onKey_comm j k fun r => r.atMissing_emptied.symm
  cases found : s.key? j with
  | none =>
    have there : (s.onKey k .atMissing).key? j = none := by
      by_cases same : j = k
      · subst same
        rw [key?_onKey_self, found, Option.map_none]
      · rw [key?_onKey_ne _ same, found]
    rw [letGo, letGo, dropHoldings, dropHoldings, found, there]
    unfold onKey onStation
    cases k.line <;> rfl
  | some r =>
    obtain ⟨r', there, holdings⟩ : ∃ r', (s.onKey k .atMissing).key? j = some r' ∧ r'.holdings = r.holdings := by
      by_cases same : j = k
      · subst same
        exact ⟨r.atMissing, by rw [key?_onKey_self, found, Option.map_some], r.atMissing_holdings⟩
      · exact ⟨r, by rw [key?_onKey_ne _ same, found], rfl⟩
    have pairs : (s.onKey k .atMissing).dropPairs j r.holdings = (s.dropPairs j r.holdings).onKey k .atMissing :=
by
      unfold onKey onStation
      exact s.dropPairs_onUnit ..
    rw [letGo_eq there, letGo_eq found, holdings, pairs, empty]
    unfold onKey onStation
    cases k.line <;> rfl

/-- Keys of a station let go and its records gone is its keys taken as at a loss and its records gone. -/
theorem takeKeys_cleared {l : Line} {a : Nat} {keys : List StationInput} (here : ∀ k ∈ keys, k.line = l ∧ k.address = a) :
    (s.takeKeys keys).onStation l a (fun st => { st with keys := [] }) =
      (keys.foldl (fun s k => s.letGo k) s).onStation l a fun st => { st with keys := [] } := by
  have moved (keys : List StationInput) (s : State) (k : StationInput) :
      (s.onKey k .atMissing).takeKeys keys = (s.takeKeys keys).onKey k .atMissing := by
    induction keys generalizing s with
    | nil => rfl
    | cons j keys ih =>
      have step : ((s.onKey k .atMissing).onKey j .atMissing).letGo j = ((s.onKey j .atMissing).letGo j).onKey k .atMissing := by
        rw [onKey_comm _ _ _ fun _ => rfl, letGo_onKey_atMissing]
      exact (congrArg (fun t : State => t.takeKeys keys) step).trans (ih _)
  induction keys generalizing s with
  | nil => rfl
  | cons k keys ih =>
    obtain ⟨⟨rfl, rfl⟩, later⟩ := List.forall_mem_cons.1 here
    have first : s.takeKeys (k :: keys) = ((s.letGo k).takeKeys keys).onKey k .atMissing := by
      rw [← moved, ← letGo_onKey_atMissing]
      rfl
    rw [first, onKey, onStation_onStation]
    exact ih (s.letGo k) later

theorem discardKeys_eq (l : Line) (a : Nat) : s.discardKeys l a =
    ((s.takeKeys (s.keysOf l a)).clearCaptures l a).onStation l a fun st => { st with keys := [] } := by
  have cleared := s.takeKeys_cleared (l := l) (a := a) (keys := s.keysOf l a) fun k mem => (mem_keysOf.1 mem).1
  have marks (t : State) : (t.clearCaptures l a).onStation l a (fun st => { st with keys := [] }) =
      (t.onStation l a fun st => { st with keys := [] }).clearCaptures l a := by cases l <;> rfl
  rw [discardKeys, marks, marks, cleared]

end

/-! ## What a discard takes -/

section
variable {s t u : State} {lost source : StationInput → Bool} {l : Line} {a : Nat}

/-- Keys that are taken, by what the tests of their loss and of the sources of bindings hold of. -/
theorem KeysTaken.keysLost_of (h : s.KeysTaken t lost source) {gone : StationInput → Prop}
    (keys : ∀ k, lost k = true ↔ gone k ∧ (s.key? k).isSome = true) (sources : ∀ k, source k = true ↔ gone k) :
    s.KeysLost t gone gone := by
  refine ⟨⟨h.repeats_eq ▸ List.filter_sublist, fun p hp => ?_⟩, fun b absent => ?_, fun b x hx => ⟨fun hit => ?_, fun miss => ?_⟩,
    fun c => ?_⟩
  · rw [h.repeats_eq, List.mem_filter, and_iff_right hp, Bool.not_eq_true', ← Bool.not_eq_true, Bool.and_eq_true, keys,
      and_assoc, and_self]
  · rw [h.bindings_at?, absent, Option.map_none]
  · rw [h.bindings_at?, hx, Option.map_some, Binding.uncaptured, if_pos ((sources _).2 hit)]
    rfl
  · rw [h.bindings_at?, hx, Option.map_some, Binding.uncaptured, if_neg ((sources _).not.2 miss)]
  · obtain ⟨absent, present⟩ := h.claims c
    refine ⟨absent, fun y hy => ?_⟩
    obtain ⟨z, hz, dropped⟩ := present y hy
    have same (k : Contribution) : s.HoldingLost lost c k ↔ ∃ key r b, gone key ∧
        s.key? key = some r ∧ k.heldBy = some key ∧ k.origin = .binding b ∧ (b, c) ∈ r.holdings := by
      refine exists_congr fun key => exists_congr fun r => exists_congr fun b => ?_
      rw [keys, and_assoc]
      exact and_congr_right fun _ => and_iff_right_of_imp fun ⟨found, _⟩ => by rw [found, Option.isSome_some]
    have left := dropped.congr fun k _ => same k
    exact ⟨z, hz, left.config, left.sublist, fun k hk => (left.mem k).trans (and_iff_right hk), left.kept, left.resolved⟩

theorem KeysLost.of_fields {p q : StationInput → Prop} (h : s.KeysLost t p q) (circuits : u.circuits = t.circuits)
    (bindings : u.bindings = t.bindings) (repeats : u.repeats = t.repeats) : s.KeysLost u p q := by
  unfold KeysLost at h ⊢
  rw [circuits, bindings, repeats]
  exact h

theorem KeysLost.onUnit {p q : StationInput → Prop} (h : s.KeysLost t p q) (l : Line) (f : LineUnit → LineUnit) :
    s.KeysLost (t.onUnit l f) p q := h.of_fields (onUnit_circuits ..) (onUnit_bindings ..) (onUnit_repeats ..)

theorem KeysLost.onStation {p q : StationInput → Prop} (h : s.KeysLost t p q) (l : Line) (a : Nat) (f : Station → Station) :
    s.KeysLost (t.onStation l a f) p q := h.onUnit l _

theorem keysLost_discardKeys (sound : s.ListsSound) : s.KeysLost (s.discardKeys l a) (fun k => k.line = l ∧ k.address = a)
    fun k => k.line = l ∧ k.address = a := by
  have taken := (keysTaken_takeKeys sound (keys := s.keysOf l a) fun _ hk => (mem_keysOf.1 hk).2).trans
    (keysTaken_clearCaptures _ l a)
  have lost := taken.keysLost_of (gone := fun k => k.line = l ∧ k.address = a) (fun k => ?_) fun k => ?_
  · rw [discardKeys_eq]
    exact lost.onStation ..
  · simp [mem_keysOf]
  · simp

theorem letGo_station? (s : State) {k : StationInput} {m : Line} {b : Nat} (other : ¬ (m = k.line ∧ b = k.address)) :
    (s.letGo k).station? m b = s.station? m b := by
  cases found : s.key? k with
  | none =>
    rw [letGo, dropHoldings, found]
    cases m <;> rfl
  | some r =>
    have same : (s.letGo k).station? m b = (s.emptied k).station? m b := by
      rw [letGo_eq found]
      cases m <;> rfl
    rw [same, emptied, onKey, station?_onStation_ne _ other]

/-- A discard leaves every other station as it was. -/
theorem discardKeys_station?_other (s : State) {m : Line} {b : Nat} (other : m ≠ l ∨ b ≠ a) :
    (s.discardKeys l a).station? m b = s.station? m b := by
  have away : ¬ (m = l ∧ b = a) := by tauto
  have kept (keys : List StationInput) (s : State) (here : ∀ k ∈ keys, k.line = l ∧ k.address = a) :
      (keys.foldl (fun s k => s.letGo k) s).station? m b = s.station? m b := by
    induction keys generalizing s with
    | nil => rfl
    | cons k keys ih =>
      obtain ⟨⟨rfl, rfl⟩, later⟩ := List.forall_mem_cons.1 here
      rw [List.foldl_cons, ih _ later, s.letGo_station? away]
  rw [discardKeys, station?_onStation_ne _ away]
  refine Eq.trans ?_ (kept (s.keysOf l a) s fun k mem => (mem_keysOf.1 mem).1)
  cases m <;> rfl

theorem discardKeys_station? {st : Station} (found : s.station? l a = some st) :
    (s.discardKeys l a).station? l a = some { st with keys := [] } := by
  have bare : ((s.keysOf l a).foldl (fun s k => s.letGo k) s).bare = s.bare := s.bare_foldl (by simp) _
  obtain ⟨keys, there⟩ := station?_of_bare_some bare found
  have there' : (((s.keysOf l a).foldl (fun s k => s.letGo k) s).clearCaptures l a).station? l a =
      some { st with keys := keys } := by
    rw [← there]
    cases l <;> rfl
  rw [discardKeys, station?_onStation_self, there', Option.map_some]

end

end State

end Sys2Proof.Machine
end

section
/-! SUPPORT. A station that is given another kind or is removed (R118, R119): its keys are discarded and its codes become OFFLINE. -/

namespace Sys2Proof.Machine

namespace State

variable {s t : State} {l : Line} {a : Nat}

/-- The keys of a station have been discarded and its PENDING codes are OFFLINE, whatever its own record is now (R98, R118, R119,
R133). -/
structure Dismissed (s t : State) (l : Line) (a : Nat) : Prop where
  lost : s.ListsSound → s.KeysLost t (fun k => k.line = l ∧ k.address = a) fun k => k.line = l ∧ k.address = a
  deliveries : (s.offlineStation l a).SameDeliveries t
  unit (m : Line) : t.unit m = { s.unit m with stations := (t.unit m).stations, waiting := (t.unit m).waiting }
  state : t = { s with
    circuits := t.circuits, bindings := t.bindings, repeats := t.repeats, groups := t.groups, notices := t.notices,
    lineA := t.lineA, lineB := t.lineB }
  other (m : Line) (b : Nat) (away : m ≠ l ∨ b ≠ a) : t.station? m b = s.station? m b

/-- A station's record changed once its keys are gone, and its codes OFFLINE (R118, R119). -/
def dismiss (s : State) (l : Line) (a : Nat) (f : Station → Station) : State :=
  ((s.discardKeys l a).onStation l a f).offlineStation l a

theorem offlineStation_onlyDeliveries (s : State) (l : Line) (a : Nat) : s.OnlyDeliveries (s.offlineStation l a) :=
  (OnlyDeliveries.refl s).offlineWhere fun m => m == ⟨l, a⟩

theorem onStation_unit (s : State) (l m : Line) (a : Nat) (f : Station → Station) :
    (s.onStation l a f).unit m = { s.unit m with stations := ((s.onStation l a f).unit m).stations } := by
  cases l <;> cases m <;> rfl

theorem dismissed_dismiss (s : State) (l : Line) (a : Nat) (f : Station → Station) : s.Dismissed (s.dismiss l a f) l a := by
  have keys : s.OnlyKeys (s.discardKeys l a) := (OnlyKeys.refl s).discardKeys l a
  have settled : ((s.discardKeys l a).onStation l a f).OnlyDeliveries (s.dismiss l a f) :=
    offlineStation_onlyDeliveries _ l a
  refine ⟨fun sound => ?_, ?_, fun m => ?_, ?_, fun m b away => ?_⟩
  · have lost := (keysLost_discardKeys (l := l) (a := a) sound).onStation l a f
    refine lost.of_fields ?_ ?_ ?_ <;> rw [settled.state]
  · exact (keys.sameDeliveries.onStation l a f).offlineWhere _
  · rw [settled.unit, onStation_unit, keys.unit_eq]
  · rw [settled.state, onStation, onUnit, keys.state]
    cases l <;> rfl
  · rw [settled.station?_eq, station?_onStation_ne _ (by tauto), discardKeys_station?_other s away]

theorem station?_dismiss {st : Station} (found : s.station? l a = some st) (f : Station → Station) :
    (s.dismiss l a f).station? l a = some (f { st with keys := [] }) := by
  have settled : ((s.discardKeys l a).onStation l a f).OnlyDeliveries (s.dismiss l a f) :=
    offlineStation_onlyDeliveries _ l a
  rw [settled.station?_eq, station?_onStation_self, discardKeys_station? found, Option.map_some]

/-! ## ConfigureStation and RemoveStation -/

theorem station?_put (s : State) (l : Line) (a : Nat) (st : Station) (m : Line) (b : Nat) :
    (s.onUnit l fun u => { u with stations := Table.put u.stations a st }).station? m b =
      if m = l ∧ b = a then some st else s.station? m b := by
  by_cases line : l = m
  · subst line
    rw [station?, unit_onUnit_self, Table.at?_put]
    simp [station?]
  · rw [station?, unit_onUnit_other _ _ line, if_neg fun h => line h.1.symm, station?]

theorem configureStation_of_none (absent : s.station? l a = none) (setup : StationSetup) :
    s.configureStation l a setup = s.onUnit l fun u => { u with stations := Table.put u.stations a (.fresh setup) } := by
  simp only [configureStation, absent]

section
variable {st : Station} (found : s.station? l a = some st) {setup : StationSetup}
include found

theorem configureStation_of_same (same : st.setup.kind = setup.kind) : s.configureStation l a setup =
    s.onStation l a fun st => { st with
      setup := setup, configurePending := st.configurePending || st.state == .online } := by
  simp only [configureStation, found, same, if_true]

theorem configureStation_of_other (other : st.setup.kind ≠ setup.kind) :
    s.configureStation l a setup = (s.dismiss l a (.rekind setup)).onUnit l (.voidSlot a) := by
  simp only [configureStation, found, if_neg other]
  rfl

end

theorem removeStation_eq (s : State) (l : Line) (a : Nat) : s.removeStation l a =
    ((s.dismiss l a fun st => st).withGroups (Table.mapAll (s.dismiss l a fun st => st).groups fun _ g => { g with
        members := g.members.filter (· != ⟨l, a⟩)
        delivery := g.delivery.map fun es => es.filter fun e => e.member != ⟨l, a⟩ })).onUnit l fun u =>
      { (u.voidSlot a) with stations := Table.remove u.stations a, probeList := u.probeList.filter (· != a) } := by
  rw [dismiss, onStation_self]
  rfl

theorem Dismissed.unit_offline {u : State} (h : s.Dismissed u l a) (m : Line) : u.unit m = { s.unit m with
    stations := (u.unit m).stations, waiting := ((s.offlineStation l a).unit m).waiting } := by
  rw [← h.deliveries.waiting, ← h.unit]

/-- What the discard of a station's key records leaves, the station itself rekinded or gone: its call in progress is void, and
but for the keys, the codes and its line's probe list nothing else differs (R98, R118, R119). -/
structure Discarded (s t : State) (l : Line) (a : Nat) : Prop where
  other (m : Line) (b : Nat) (away : m ≠ l ∨ b ≠ a) : t.station? m b = s.station? m b
  keys : s.ListsSound → s.KeysDiscarded t l a
  notices : t.notices = (s.offlineStation l a).notices
  slot : (t.unit l).slot = (s.unit l).slot.map (Slot.void a)
  lines (m : Line) (away : m ≠ l) : (t.unit m).slot = (s.unit m).slot ∧ (t.unit m).probeList = (s.unit m).probeList
  unit (m : Line) : t.unit m = { s.unit m with
    stations := (t.unit m).stations, waiting := ((s.offlineStation l a).unit m).waiting, slot := (t.unit m).slot
    probeList := (t.unit m).probeList }
  state : t = { s with
    circuits := t.circuits, bindings := t.bindings, repeats := t.repeats, groups := t.groups, notices := t.notices
    lineA := t.lineA, lineB := t.lineB }

theorem Dismissed.discarded {u : State} (h : s.Dismissed u l a)
    (rest : t = { u with groups := t.groups, lineA := t.lineA, lineB := t.lineB })
    (line : t.unit l = { u.unit l with
      slot := (u.unit l).slot.map (Slot.void a), stations := (t.unit l).stations, probeList := (t.unit l).probeList })
    (others : ∀ m, m ≠ l → t.unit m = u.unit m) (kept : ∀ m b, m ≠ l ∨ b ≠ a → t.station? m b = u.station? m b)
    (bare : ∀ st, t.station? l a = some st → st.keys = []) : s.Discarded t l a := by
  have other (m : Line) (b : Nat) (away : m ≠ l ∨ b ≠ a) : t.station? m b = s.station? m b :=
    (kept m b away).trans (h.other m b away)
  refine ⟨other, fun sound => ⟨bare, other, (h.lost sound).of_fields ?_ ?_ ?_⟩, ?_, ?_, fun m away => ?_, fun m => ?_, ?_⟩
  · rw [rest]
  · rw [rest]
  · rw [rest]
  · rw [rest]
    exact h.deliveries.notices
  · rw [line, h.unit]
  · rw [others m away, h.unit]
    exact ⟨rfl, rfl⟩
  · by_cases same : m = l
    · subst same
      rw [line, h.unit_offline]
    · rw [others m same, h.unit_offline]
  · rw [rest, h.state]

/-! ### Another kind -/

section
variable {st : Station} (found : s.station? l a = some st) (setup : StationSetup)

theorem station?_rekinded (m : Line) (b : Nat) : ((s.dismiss l a (.rekind setup)).onUnit l (.voidSlot a)).station? m b =
    (s.dismiss l a (.rekind setup)).station? m b := by
  rw [station?, unit_onUnit]
  split <;> rfl

include found

theorem station?_rekinded_self : ((s.dismiss l a (.rekind setup)).onUnit l (.voidSlot a)).station? l a =
    some ⟨setup, .expected, none, 0, st.accepted, false, false, setup.kind.lamps, []⟩ := by
  rw [station?_rekinded, station?_dismiss found]
  rfl

theorem discarded_rekinded : s.Discarded ((s.dismiss l a (.rekind setup)).onUnit l (.voidSlot a)) l a := by
  refine (s.dismissed_dismiss l a (.rekind setup)).discarded (by cases l <;> rfl) (by rw [unit_onUnit_self]; rfl)
    (fun m away => unit_onUnit_other _ _ away.symm) (fun m b _ => station?_rekinded setup m b) fun x is => ?_
  rw [station?_rekinded_self found] at is
  cases is
  rfl

end

/-! ### None any more -/

theorem station?_removeStation (s : State) (l : Line) (a : Nat) (m : Line) (b : Nat) : (s.removeStation l a).station? m b =
    if m = l ∧ b = a then none else (s.dismiss l a fun st => st).station? m b := by
  rw [removeStation_eq]
  by_cases line : l = m
  · subst line
    rw [station?, unit_onUnit_self]
    simp only [Table.at?_remove, true_and]
    cases l <;> rfl
  · rw [station?, unit_onUnit_other _ _ line, if_neg fun h => line h.1.symm]
    cases m <;> rfl

theorem removeStation_unit (s : State) (l : Line) (a : Nat) : (s.removeStation l a).unit l =
    { (s.dismiss l a fun st => st).unit l with
      slot := ((s.dismiss l a fun st => st).unit l).slot.map (Slot.void a)
      stations := ((s.removeStation l a).unit l).stations
      probeList := ((s.dismiss l a fun st => st).unit l).probeList.filter (· != a) } := by
  rw [removeStation_eq, unit_onUnit_self]
  cases l <;> rfl

theorem removeStation_unit_other (s : State) {l m : Line} (away : m ≠ l) (a : Nat) :
    (s.removeStation l a).unit m = (s.dismiss l a fun st => st).unit m := by
  rw [removeStation_eq, unit_onUnit_other _ _ away.symm]
  cases m <;> rfl

theorem removeStation_probeList (s : State) (l : Line) (a : Nat) :
    ((s.removeStation l a).unit l).probeList = (s.unit l).probeList.filter (· != a) := by
  rw [removeStation_unit, (s.dismissed_dismiss l a fun st => st).unit]

theorem removeStation_at? (s : State) (l : Line) (a g : Nat) : Table.at? (s.removeStation l a).groups g =
    (Table.at? (s.offlineStation l a).groups g).map fun x => { x with
      members := x.members.filter (· != ⟨l, a⟩)
      delivery := x.delivery.map fun es => es.filter fun e => e.member != ⟨l, a⟩ } := by
  rw [removeStation_eq, onUnit_groups, ← (s.dismissed_dismiss l a fun st => st).deliveries.groups]
  simp only [withGroups, Table.at?_mapAll]

theorem discarded_removeStation (s : State) (l : Line) (a : Nat) : s.Discarded (s.removeStation l a) l a := by
  refine (s.dismissed_dismiss l a fun st => st).discarded (by rw [removeStation_eq]; cases l <;> rfl)
    (by rw [removeStation_unit]) (fun m away => s.removeStation_unit_other away a)
    (fun m b away => (s.station?_removeStation l a m b).trans (if_neg (by tauto))) fun x is => ?_
  rw [station?_removeStation, if_pos ⟨rfl, rfl⟩] at is
  cases is

end State

theorem StationSetup.contactBytes_length {setup : StationSetup} (edges : ∀ es f, setup = .contact es f → es.length = 8) :
    setup.contactBytes.length = 9 := by
  cases setup with
  | contact es f => simp [contactBytes, edges es f rfl]
  | keypad | fader => rfl

/-- The answer on a station with a sound record fits its body (R163). -/
theorem State.stationBody_length {st : Station} (keys : st.keys.length ≤ 12) (lamps : st.lamps.length ≤ 12)
    (edges : ∀ es f, st.setup = .contact es f → es.length = 8) (s : State) (l : Line) (a : Nat) :
    (s.stationBody l a st).length ≤ 250 := by
  have confirmed : (st.lamps.flatMap fun p => [p.desired.code, confirmedCode p.confirmed]).length = st.lamps.length * 2 :=
    length_flatMap_of_const (f := fun p : Lamp => [p.desired.code, confirmedCode p.confirmed]) (fun _ => rfl) _
  have records : (st.keys.flatMap fun e => e.2.bytes).length = st.keys.length * 5 :=
    length_flatMap_of_const (f := fun e : Nat × KeyRecord => e.2.bytes) (fun _ => by simp [KeyRecord.bytes, levelBytes]) _
  simp only [State.stationBody, List.length_append, StationSetup.contactBytes_length edges, confirmed, records, groupSetBytes,
    bytes16_length, List.length_cons, List.length_nil]
  omega

/-! ## The checks of RemoveStation and ReadStation -/

section
variable {s : State} {l : Line} {a : Byte}

theorem removeStation_eq (s : State) (l : Line) (a : Byte) : removeStation [lineCode l, a] s =
    if s.isSaving = true then .refuse .busySaving s
    else if within 1 60 a.toNat = false then .refuse .outOfRange s
    else if (s.station? l a.toNat).isNone = true then .refuse .noSuch s
    else .done (s.removeStation l a.toNat) := by
  simp only [removeStation, lineOfCode_lineCode, State.inOrder_cons, State.inOrder_nil, Bool.not_eq_true']

theorem readStation_of_out (out : within 1 60 a.toNat = false) : readStation [lineCode l, a] s = .refuse .outOfRange s := by
  simp [readStation, out]

theorem readStation_of_none (inside : within 1 60 a.toNat = true) (absent : s.station? l a.toNat = none) :
    readStation [lineCode l, a] s = .refuse .noSuch s := by
  simp [readStation, inside, absent]

theorem readStation_of_some {st : Station} (inside : within 1 60 a.toNat = true) (found : s.station? l a.toNat = some st) :
    readStation [lineCode l, a] s = .read (s.stationBody l a.toNat st) s := by
  simp [readStation, inside, found]

end

/-- Settles O38: the requests on stations by their checks; a station of another kind and a removed one are dismissed alike. -/
theorem stationRequests : Obligations.StationRequests := by
  unfold Obligations.StationRequests
  intro s tag take otherStations discarded
  have discard {t : State} {l : Line} {a : Nat} (h : s.Discarded t l a) : discarded t l a := by
    refine ⟨fun sound _ => h.keys sound, h.notices, h.slot.trans ?_, h.lines, h.unit, h.state⟩
    refine congrArg (fun f => (s.unit l).slot.map f) (funext fun x => ?_)
    unfold Slot.void
    cases x with
    | mk carries _ _ _ _ _ => cases carries <;> rfl
  refine ⟨fun body short => ?_, fun l a => ?_⟩
  · intro c refused
    have refuse {r : Result} (hw : configureStation body (s.taken 0x40 tag body) = .refuse r (s.taken 0x40 tag body)) :
        refused r := congrArg Host.Outcome.next (take.refused short hw)
    refine ⟨fun saving => refuse (State.parsed_of_saving (s := s.taken ..) saving ..), fun free => ?_⟩
    have free : (s.taken 0x40 tag body).saving = none := free
    refine ⟨fun bad => refuse ?_, fun out => refuse ?_, fun l a setup decoded => ?_⟩
    · rw [configureStation, bad, State.parsed_malformed free]
    · rw [configureStation, out, State.parsed_outOfRange free]
    have done : exec c s = .next ((s.configureStation l a setup).answered body.length tag .ok false []) := by
      refine congrArg Host.Outcome.next (take.done short ?_)
      rw [configureStation, decoded, State.parsed_ok free]
      exact congrArg Work.done (State.taken_of_blind (f := fun s => s.configureStation l a setup) (by simp) ..)
    refine ⟨s.configureStation l a setup, done, ?_⟩
    cases found : s.station? l a with
    | none =>
      rw [State.configureStation_of_none found]
      refine ⟨fun m b away => ?_, fun _ => by cases l <;> rfl, fun _ => ?_, nofun⟩
      · rw [State.station?_put, if_neg (by tauto)]
      · rw [State.station?_put, if_pos ⟨rfl, rfl⟩]
        rfl
    | some st =>
      by_cases same : st.setup.kind = setup.kind
      · rw [State.configureStation_of_same found same]
        refine ⟨fun m b away => ?_, fun _ => by cases l <;> rfl, nofun, fun _ is => ⟨fun _ => ?_, fun other => ?_⟩⟩
        · rw [State.station?_onStation_ne _ (by tauto)]
        · cases is
          rw [State.station?_onStation_self, found, Option.map_some]
          cases st.state <;> rfl
        · cases is
          exact absurd same other
      · have gone := State.discarded_rekinded found setup
        rw [State.configureStation_of_other found same]
        refine ⟨gone.other, fun all => absurd (by simpa using all) same, nofun, fun _ is => ?_⟩
        cases is
        refine ⟨fun eq => absurd eq same, fun _ => ⟨discard gone, ?_, ?_, State.station?_rekinded_self found setup⟩⟩
        · exact (State.onUnit_groups ..).trans (s.dismissed_dismiss l a (.rekind setup)).deliveries.groups
        · rw [State.unit_onUnit_self, (s.dismissed_dismiss l a (.rekind setup)).unit]
          rfl
  · intro refused remove read
    have refuse {r : Result} (hw : removeStation [lineCode l, a] (s.taken 0x41 tag [lineCode l, a]) =
        .refuse r (s.taken 0x41 tag [lineCode l, a])) : refused remove r :=
      congrArg Host.Outcome.next (State.TakesRequests.refused (body := [lineCode l, a]) take (by simp) hw)
    have unread {r : Result} (hw : readStation [lineCode l, a] (s.taken 0x42 tag [lineCode l, a]) =
        .refuse r (s.taken 0x42 tag [lineCode l, a])) : refused read r :=
      congrArg Host.Outcome.next (State.TakesRequests.refused (body := [lineCode l, a]) take (by simp) hw)
    have judged := removeStation_eq (s.taken 0x41 tag [lineCode l, a]) l a
    have idle (free : s.saving = none) : (s.taken 0x41 tag [lineCode l, a]).isSaving = false := by
      rw [State.isSaving, show (s.taken 0x41 tag [lineCode l, a]).saving = none from free, Option.isSome_none]
    have outside (out : a = 0 ∨ 60 < a.toNat) : within 1 60 a.toNat = false :=
      within_eq_false.2 (out.imp_left byte_eq_zero_iff.1)
    have inside (h1 : a ≠ 0) (h2 : a.toNat ≤ 60) : within 1 60 a.toNat = true :=
      within_iff.2 ⟨Nat.not_lt.1 (byte_eq_zero_iff.not.1 h1), h2⟩
    have station (code : Byte) : (s.taken code tag [lineCode l, a]).station? l a.toNat = s.station? l a.toNat := by
      rw [State.station?, State.taken_unit, State.station?]
    refine ⟨fun saving => refuse (judged.trans (if_pos saving)), fun out => ⟨fun free => refuse ?_, ?_⟩,
      fun h1 h2 absent => ⟨fun free => refuse ?_, ?_⟩, fun st h1 h2 found => ⟨fun keys lamps edges => ?_, fun free => ?_⟩⟩
    · rw [judged, idle free, if_neg Bool.false_ne_true, if_pos (outside out)]
    · exact unread (readStation_of_out (outside out))
    · rw [judged, idle free, if_neg Bool.false_ne_true, inside h1 h2, if_neg (by decide), station, absent]
      rfl
    · exact unread (readStation_of_none (inside h1 h2) ((station _).trans absent))
    · refine congrArg Host.Outcome.next (State.TakesRequests.answered (body := [lineCode l, a]) take (by simp)
        (r := { result := .ok, body := s.stationBody l a.toNat st }) ?_)
      rw [readStation_of_some (inside h1 h2) ((station _).trans found)]
      exact Work.read_of_short (State.stationBody_length keys lamps edges s l a.toNat) _
    · have gone := s.discarded_removeStation l a.toNat
      refine ⟨s.removeStation l a.toNat, congrArg Host.Outcome.next (State.TakesRequests.done (body := [lineCode l, a]) take
        (by simp) ?_), gone.other, discard gone, (s.station?_removeStation ..).trans (if_pos ⟨rfl, rfl⟩),
        s.removeStation_probeList .., s.removeStation_at? l a.toNat⟩
      rw [judged, idle free, if_neg Bool.false_ne_true, inside h1 h2, if_neg (by decide), station, found, if_neg (by simp)]
      exact congrArg Work.done (State.taken_of_blind (f := fun s => s.removeStation l a.toNat) (by simp) ..)

end Sys2Proof.Machine
end

section
/-! SUPPORT. How a station call ends, whatever its end does to the record (R116, R118, R119, R127). -/

namespace Sys2Proof.Machine

namespace State

variable {s : State} {l : Line} {x : Slot} {c : StationCall}

/-- The slot of a station call is over, and its address has left the probe list where it was taken from there (R116, R120). -/
def callEnded (s : State) (l : Line) (c : StationCall) : State := s.setUnit l { s.unit l with
  slot := none, probeList := if c.fromProbeList then (s.unit l).probeList.erase c.address else (s.unit l).probeList }

theorem callEnded_unit (s : State) (l : Line) (c : StationCall) : (s.callEnded l c).unit l = { s.unit l with
    slot := none,
    probeList := if c.fromProbeList then (s.unit l).probeList.erase c.address else (s.unit l).probeList } :=
  s.unit_setUnit_self l _

theorem callEnded_station? (s : State) (l : Line) (c : StationCall) (m : Line) (b : Nat) :
    (s.callEnded l c).station? m b = s.station? m b := by
  cases l <;> cases m <;> rfl

theorem callEnded_state (s : State) (l : Line) (c : StationCall) :
    s.callEnded l c = { s with lineA := (s.callEnded l c).lineA, lineB := (s.callEnded l c).lineB } := by
  cases l <;> rfl

/-- What every end of a station call does first (R116, R120). -/
theorem callEnded_eq (s : State) (l : Line) (c : StationCall) :
    (if c.fromProbeList = true then (s.onUnit l fun u => { u with slot := none }).onUnit l fun u =>
        { u with probeList := u.probeList.erase c.address } else s.onUnit l fun u => { u with slot := none }) =
      s.callEnded l c := by
  unfold callEnded
  cases c.fromProbeList <;> cases l <;> rfl

section
variable (carries : x.carries = .call c)
include carries

theorem endSlot_of_void (void : c.voided = true) (how : SlotEnd) : s.endSlot l x how = s.callEnded l c := by
  simp only [endSlot, carries, endCall, callEnded_eq, void, if_true]

section
variable (valid : c.voided = false)
include valid

theorem endSlot_answer (call : c.frame ≠ .snapshotCall) (side : LineEnd) (f : AnswerFrame) :
    s.endSlot l x (.answer side f) = (s.callEnded l c).takeAnswer l c side f := by
  simp only [endSlot, carries, endCall, callEnded_eq, valid, Bool.false_eq_true, if_false, if_neg call]

theorem endSlot_snapshot (call : c.frame = .snapshotCall) (side : LineEnd) (f : SnapshotFrame) :
    s.endSlot l x (.snapshot side f) = (s.callEnded l c).takeSnapshot l c side f := by
  simp only [endSlot, carries, endCall, callEnded_eq, valid, Bool.false_eq_true, if_false, if_pos call]

theorem endSlot_silent : s.endSlot l x .silent = (s.callEnded l c).missedCall l c .silent := by
  simp only [endSlot, carries, endCall, callEnded_eq, valid, Bool.false_eq_true, if_false]

/-- An answer that is not sound, and one of the wrong type, are a miss (R121). -/
theorem endSlot_garbled {how : SlotEnd} (wrong : how = .garbled ∨ (∃ side f, how = .answer side f ∧ c.frame = .snapshotCall) ∨
    ∃ side f, how = .snapshot side f ∧ c.frame ≠ .snapshotCall) :
    s.endSlot l x how = (s.callEnded l c).missedCall l c .garbled := by
  obtain rfl | ⟨side, f, rfl, call⟩ | ⟨side, f, rfl, call⟩ := wrong
  · simp only [endSlot, carries, endCall, callEnded_eq, valid, Bool.false_eq_true, if_false]
  · simp only [endSlot, carries, endCall, callEnded_eq, valid, Bool.false_eq_true, if_false, if_pos call]
  · simp only [endSlot, carries, endCall, callEnded_eq, valid, Bool.false_eq_true, if_false, if_neg call]

end

end

/-! ## The record of an answered call -/

/-- A call that was answered: the lamps sent are confirmed, the end is learnt in SPLIT and the miss count is 0 (R121, R127, R135). -/
def noted (s : State) (l : Line) (c : StationCall) (side : LineEnd) : State :=
  (s.callEnded l c).onStation l c.address fun y => { y with
    missCount := 0, reach := if (s.unit l).state = .split then some side else y.reach
    lamps := y.lamps.map fun p => { p with
      confirmed := (((c.lampsSent.getD []).find? fun e => e.1 == p.key).map (·.2)).or p.confirmed } }

theorem noteAnswered_eq (s : State) (l : Line) (c : StationCall) (side : LineEnd) :
    (s.callEnded l c).noteAnswered l c side = s.noted l c side := by
  unfold noteAnswered noted
  rw [callEnded_unit]
  refine congrArg (fun f => (s.callEnded l c).onStation l c.address f) (funext fun y => ?_)
  cases c.lampsSent with
  | none => simp
  | some sent => simp [Station.confirmLamps]

theorem noted_unit (s : State) (l : Line) (c : StationCall) (side : LineEnd) (m : Line) :
    (s.noted l c side).unit m = { (s.callEnded l c).unit m with stations := ((s.noted l c side).unit m).stations } :=
  onStation_unit ..

theorem noted_state (s : State) (l : Line) (c : StationCall) (side : LineEnd) :
    s.noted l c side = { s with lineA := (s.noted l c side).lineA, lineB := (s.noted l c side).lineB } := by
  unfold noted
  cases l <;> rfl

theorem noted_station? {st : Station} (found : s.station? l c.address = some st) (side : LineEnd) :
    (s.noted l c side).station? l c.address = some { st with
      missCount := 0, reach := if (s.unit l).state = .split then some side else st.reach
      lamps := st.lamps.map fun p => { p with
        confirmed := (((c.lampsSent.getD []).find? fun e => e.1 == p.key).map (·.2)).or p.confirmed } } := by
  rw [noted, station?_onStation_self, callEnded_station?, found, Option.map_some]

theorem noted_station?_other (s : State) (c : StationCall) (side : LineEnd) {l m : Line} {b : Nat}
    (other : m ≠ l ∨ b ≠ c.address) : (s.noted l c side).station? m b = s.station? m b := by
  rw [noted, station?_onStation_ne _ (by tauto), callEnded_station?]

end State

end Sys2Proof.Machine
end

section
/-! SUPPORT. What an answered call does to the record, by its kind and its state (R121 to R124). -/

namespace Sys2Proof.Machine

namespace State

variable {s : State} {l : Line} {c : StationCall} {side : LineEnd} {st : Station}

/-! ## Another kind -/

/-- An answer of another kind leaves the record as it was noted, or discards its keys (R121). -/
def misfit (s : State) (l : Line) (c : StationCall) (side : LineEnd) (st : Station) : State :=
  if st.state = .mismatch then s.noted l c side else (s.noted l c side).enterMismatch l c.address

section
variable (found : s.station? l c.address = some st)
include found

theorem takeAnswer_of_misfit {f : AnswerFrame} (other : stationKindOfNat f.kindCode ≠ some st.setup.kind) :
    (s.callEnded l c).takeAnswer l c side f = s.misfit l c side st := by
  simp only [takeAnswer, noteAnswered_eq, noted_station? found, ne_eq, other, not_false_eq_true, if_true]
  rfl

theorem takeSnapshot_of_misfit {f : SnapshotFrame} (other : f.kind ≠ st.setup.kind) :
    (s.callEnded l c).takeSnapshot l c side f = s.misfit l c side st := by
  simp only [takeSnapshot, noteAnswered_eq, noted_station? found, if_pos other]
  rfl

/-! ## The right kind -/

theorem takeAnswer_of_lost {f : AnswerFrame} (kind : stationKindOfNat f.kindCode = some st.setup.kind)
    (lost : st.state = .expected ∨ st.state = .missing ∨ st.state = .mismatch) : (s.callEnded l c).takeAnswer l c side f =
      (s.noted l c side).onStation l c.address fun y => { y with state := .joining } := by
  obtain state | state | state := lost <;>
    simp only [takeAnswer, noteAnswered_eq, noted_station? found, kind, state, ne_eq, not_true_eq_false, if_false]

theorem takeAnswer_of_joining {f : AnswerFrame} (kind : stationKindOfNat f.kindCode = some st.setup.kind)
    (joining : st.state = .joining) : (s.callEnded l c).takeAnswer l c side f =
      ((s.noted l c side).onStation l c.address fun y => { y with
        configurePending := false, snapshotNeeded := true }).enterOnline l c.address := by
  simp only [takeAnswer, noteAnswered_eq, noted_station? found, kind, joining, ne_eq, not_true_eq_false, if_false]

/-- A Configure frame answered by an ONLINE station is no longer pending (R121). -/
def configured (s : State) (l : Line) (c : StationCall) (side : LineEnd) : State :=
  if c.frame = .configure then
    (s.noted l c side).onStation l c.address fun y => { y with configurePending := false }
  else s.noted l c side

/-- The events of an Answer of an ONLINE station and its overrun (R123). -/
def reported (s : State) (l : Line) (c : StationCall) (side : LineEnd) (f : AnswerFrame) : State :=
  if f.overrun then ((s.configured l c side).acceptEvents l c.address f.events).onStation l c.address fun y => { y with
    snapshotNeeded := true }
  else (s.configured l c side).acceptEvents l c.address f.events

theorem takeAnswer_of_online {f : AnswerFrame} (kind : stationKindOfNat f.kindCode = some st.setup.kind)
    (online : st.state = .online) : (s.callEnded l c).takeAnswer l c side f =
      c.query.elim (s.reported l c side f) fun g =>
        (s.reported l c side f).settleQuery g ⟨l, c.address⟩ (.acknowledged f.ack) := by
  simp only [takeAnswer, noteAnswered_eq, noted_station? found, kind, online, ne_eq, not_true_eq_false, if_false]
  cases c.query <;> rfl

theorem takeSnapshot_of_online {f : SnapshotFrame} (kind : f.kind = st.setup.kind) (online : st.state = .online) :
    (s.callEnded l c).takeSnapshot l c side f =
      ((s.noted l c side).onStation l c.address fun y => { y with
        accepted := f.sequence, snapshotNeeded := false }).compareSnapshot l c.address f.inputs := by
  simp only [takeSnapshot, noteAnswered_eq, noted_station? found, kind, online, ne_eq, not_true_eq_false, if_false, if_true]

end

/-! ## The entry of MISMATCH -/

/-- What the loss of keys leaves does not rest on the rest of a station's record. -/
theorem KeysLost.of_source {s' t : State} {p q : StationInput → Prop} (h : s'.KeysLost t p q) (keys : ∀ k, s'.key? k = s.key? k)
    (circuits : s'.circuits = s.circuits) (bindings : s'.bindings = s.bindings) (repeats : s'.repeats = s.repeats) :
    s.KeysLost t p q := by
  have keys : s'.key? = s.key? := funext keys
  unfold KeysLost at h ⊢
  rwa [keys, circuits, bindings, repeats] at h

theorem key?_onStation_of_keys (s : State) (l : Line) (a : Nat) {f : Station → Station} (kept : ∀ y, (f y).keys = y.keys)
    (k : StationInput) : (s.onStation l a f).key? k = s.key? k := by
  by_cases here : k.line = l ∧ k.address = a
  · obtain ⟨rfl, rfl⟩ := here
    rw [key?, station?_onStation_self, key?]
    cases s.station? k.line k.address <;> simp [kept]
  · rw [key?, station?_onStation_ne _ here, key?]

theorem Dismissed.of_onStation {t : State} {a : Nat} {f : Station → Station} (kept : ∀ y, (f y).keys = y.keys)
    (h : (s.onStation l a f).Dismissed t l a) : s.Dismissed t l a := by
  refine ⟨fun sound => ?_, ?_, fun m => ?_, ?_, fun m b away => ?_⟩
  · have sound' : (s.onStation l a f).ListsSound := by rwa [ListsSound, onStation, onUnit_circuits]
    exact (h.lost sound').of_source (s.key?_onStation_of_keys l a kept) (onUnit_circuits ..) (onUnit_bindings ..)
      (onUnit_repeats ..)
  · exact (((SameDeliveries.refl s).onStation l a f).offlineWhere _).trans h.deliveries
  · rw [h.unit, onStation_unit]
  · rw [h.state]
    cases l <;> rfl
  · rw [h.other m b away, station?_onStation_ne _ (by tauto)]

/-- A station that enters MISMATCH is dismissed, and the host is told (R122). -/
theorem enterMismatch_eq (s : State) (l : Line) (a : Nat) : s.enterMismatch l a =
    ((s.onStation l a fun y => { y with state := .mismatch }).dismiss l a fun y => y).raise .stations := by
  rw [dismiss, onStation_self]
  rfl

theorem dismissed_mismatch (s : State) (l : Line) (a : Nat) :
    s.Dismissed ((s.onStation l a fun y => { y with state := .mismatch }).dismiss l a fun y => y) l a :=
  Dismissed.of_onStation (f := fun y => { y with state := .mismatch }) (fun _ => rfl) (dismissed_dismiss ..)

theorem enterMismatch_station? {a : Nat} (found : s.station? l a = some st) :
    (s.enterMismatch l a).station? l a = some { st with state := .mismatch, keys := [] } := by
  have there : (s.onStation l a fun y => { y with state := .mismatch }).station? l a = some { st with state := .mismatch } := by
    rw [station?_onStation_self, found, Option.map_some]
  rw [enterMismatch_eq, station?, raise_unit, ← station?, station?_dismiss there]

/-! ## The entry of ONLINE -/

end State

/-- A station's record as it enters ONLINE, with its first key records where it had none (R98, R122). -/
def Station.entered (fresh : Bool) (st : Station) : Station :=
  { st.forgetLamps with state := .online, keys := if fresh then st.setup.kind.keyRecords else st.keys }

namespace State

variable {s : State} {l : Line} {st : Station}

section
variable {a : Nat} (found : s.station? l a = some st)
include found

/-- A station that enters ONLINE is given new key records, or its own return (R122). -/
theorem enterOnline_eq : ∃ t : State, s.enterOnline l a = t.raise .stations ∧
    (s.onStation l a (.entered st.keys.isEmpty)).Restarted t l (if st.keys.isEmpty then [] else [a]) := by
  have fresh : (s.keysOf l a).isEmpty = st.keys.isEmpty := by
    rw [keysOf, found, Option.map_some, Option.getD_some, Table.ids, List.isEmpty_map, List.isEmpty_map]
  refine ⟨_, rfl, ?_⟩
  rw [fresh]
  cases st.keys.isEmpty
  · exact restarted_gestureReturn ..
  · exact .refl ..

theorem enterOnline_state : s.enterOnline l a = { s with
    lineA := (s.enterOnline l a).lineA, lineB := (s.enterOnline l a).lineB
    notices := { s.notices with stations := true } } := by
  obtain ⟨t, entered, back⟩ := enterOnline_eq found
  rw [entered, back.state]
  cases l <;> rfl

theorem enterOnline_unit (m : Line) : (s.enterOnline l a).unit m =
    { s.unit m with stations := ((s.enterOnline l a).unit m).stations } := by
  obtain ⟨t, entered, back⟩ := enterOnline_eq found
  rw [entered, raise_unit, unit_eq_of_bare back.bare, onStation_unit]

theorem enterOnline_station?_other {m : Line} {b : Nat} (away : m ≠ l ∨ b ≠ a) :
    (s.enterOnline l a).station? m b = s.station? m b := by
  obtain ⟨t, entered, back⟩ := enterOnline_eq found
  have kept : t.station? m b = (s.onStation l a (.entered st.keys.isEmpty)).station? m b := by
    by_cases line : m = l
    · subst line
      refine back.station b ?_
      cases st.keys.isEmpty <;> simp_all
    · rw [station?, back.unit m line, station?]
  rw [entered, station?, raise_unit, ← station?, kept, station?_onStation_ne _ (by tauto)]

theorem enterOnline_station? : ∃ keys, (s.enterOnline l a).station? l a =
      some { st with state := .online, lamps := st.lamps.map fun p => { p with confirmed := none }, keys := keys } ∧
    (st.keys = [] → keys = st.setup.kind.keyRecords) ∧
    (st.keys ≠ [] → ∀ i, Table.at? keys i = (Table.at? st.keys i).map (KeyRecord.returned s.settings.stuck)) := by
  obtain ⟨t, entered, back⟩ := enterOnline_eq found
  have there : (s.onStation l a (.entered st.keys.isEmpty)).station? l a = some (st.entered st.keys.isEmpty) := by
    rw [station?_onStation_self, found, Option.map_some]
  obtain ⟨keys, record, returned, kept⟩ := back.station_returned there
  have same : (s.enterOnline l a).station? l a = some { st.entered st.keys.isEmpty with keys := keys } := by
    rw [entered, station?, raise_unit, ← station?, record]
  refine ⟨keys, same, fun none => ?_, fun some => ?_⟩
  · have empty := List.isEmpty_iff.2 none
    rw [empty] at kept
    exact kept List.not_mem_nil
  · have full : st.keys.isEmpty = false := by simpa using some
    rw [full] at returned
    rw [onStation, onUnit_settings] at returned
    exact returned (List.mem_singleton_self a)

end

end State

theorem StationSetup.keyRecords_eq (setup : StationSetup) : setup.kind.keyRecords = setup.firstKeys := by
  cases setup <;> rfl

end Sys2Proof.Machine
end

section
/-! SUPPORT. A miss of a station (R121, R122, R127), and what events and a snapshot leave of its record (R123, R124). -/

namespace Sys2Proof.Machine

namespace State

variable {s : State} {l : Line} {a : Nat} {st : Station}

/-! ## A miss -/

/-- A miss in the record: in SPLIT the reach is UNKNOWN, and the miss count is the one given if one is (R121, R127). -/
def missed (s : State) (l : Line) (a : Nat) (count : Option Nat) : State := s.onStation l a fun y => { y with
  missCount := count.getD y.missCount, reach := if (s.unit l).state = .split then none else y.reach }

theorem missed_none (s : State) (l : Line) (a : Nat) : s.missed l a none =
    if (s.unit l).state = .split then s.onStation l a fun y => { y with reach := none } else s := by
  unfold missed
  split
  · rfl
  · exact s.onStation_self l a

theorem missed_counted (s : State) (l : Line) (a n : Nat) :
    (s.missed l a none).onStation l a (fun y => { y with missCount := n }) = s.missed l a (some n) :=
  s.onStation_onStation ..

theorem missed_station? (found : s.station? l a = some st) (count : Option Nat) : (s.missed l a count).station? l a = some { st with
    missCount := count.getD st.missCount, reach := if (s.unit l).state = .split then none else st.reach } := by
  rw [missed, station?_onStation_self, found, Option.map_some]

section
variable (found : s.station? l a = some st)
include found

theorem stationMiss_of_unpolled (polled : st.state.polled = false) : s.stationMiss l a = s.missed l a none := by
  have there := missed_station? found none
  rw [missed_none] at there ⊢
  simp only [stationMiss, there, polled, Bool.false_eq_true, if_false]

theorem stationMiss_of_polled (polled : st.state.polled = true) : s.stationMiss l a =
    if min 3 (st.missCount + 1) = 3 then (s.missed l a (some (min 3 (st.missCount + 1)))).enterMissing l a
    else s.missed l a (some (min 3 (st.missCount + 1))) := by
  have there := missed_station? found none
  rw [← missed_counted]
  rw [missed_none] at there ⊢
  simp only [stationMiss, there, polled, if_true, Option.getD_none]

/-- A station that enters MISSING keeps its record but for its state and its keys (R106, R122). -/
theorem enterMissing_station? : ∃ keys, (s.enterMissing l a).station? l a = some { st with state := .missing, keys := keys } := by
  obtain ⟨keys, there⟩ := station?_of_bare_some (s.bare_gestureMissing l a) found
  refine ⟨keys, ?_⟩
  rw [(s.enterMissing_onlyDeliveries l a).station?_eq, markMissing_station?, there, Option.map_some, if_pos ⟨rfl, rfl⟩]

end

theorem enterMissing_unit (s : State) (l : Line) (a : Nat) (m : Line) : (s.enterMissing l a).unit m = { s.unit m with
    stations := ((s.enterMissing l a).unit m).stations, waiting := ((s.enterMissing l a).unit m).waiting } := by
  rw [(s.enterMissing_onlyDeliveries l a).unit, markMissing, onStation_unit, unit_eq_of_bare (s.bare_gestureMissing l a)]

/-- A miss of a station in its record and its line, by whether it is polled and how many misses it has had (R121, R122, R127). -/
theorem stationMiss_record (found : s.station? l a = some st) : ∃ st', (s.stationMiss l a).station? l a = some st' ∧
    ((s.stationMiss l a).unit l).slot = (s.unit l).slot ∧ st'.accepted = st.accepted ∧ st'.setup = st.setup ∧
    st'.lamps = st.lamps ∧ st'.reach = (if (s.unit l).state = .split then none else st.reach) ∧
    (st.state.polled = false → st'.state = st.state ∧ st'.missCount = st.missCount ∧ s.stationMiss l a = s.missed l a none) ∧
    (st.state.polled = true → st'.missCount = min 3 (st.missCount + 1) ∧
      (st.missCount < 2 → st'.state = st.state ∧ s.stationMiss l a = s.missed l a (some (st.missCount + 1))) ∧
      (2 ≤ st.missCount → st'.state = .missing ∧ (s.stationMiss l a).notices.has .stations = true ∧
        s.stationMiss l a = (s.missed l a (some 3)).enterMissing l a)) := by
  cases polled : st.state.polled with
  | false =>
    rw [stationMiss_of_unpolled found polled]
    exact ⟨_, missed_station? found none, by rw [missed, onStation_unit], rfl, rfl, rfl, rfl, fun _ => ⟨rfl, rfl, rfl⟩, nofun⟩
  | true =>
    rw [stationMiss_of_polled found polled]
    by_cases few : st.missCount < 2
    · have least : min 3 (st.missCount + 1) = st.missCount + 1 := by omega
      rw [least, if_neg (by omega)]
      exact ⟨_, missed_station? found _, by rw [missed, onStation_unit], rfl, rfl, rfl, rfl, nofun,
        fun _ => ⟨rfl, fun _ => ⟨rfl, rfl⟩, fun many => absurd few (Nat.not_lt.2 many)⟩⟩
    · have third : min 3 (st.missCount + 1) = 3 := by omega
      rw [third, if_pos rfl]
      obtain ⟨keys, there⟩ := enterMissing_station? (missed_station? found (some 3))
      exact ⟨_, there, by rw [enterMissing_unit, missed, onStation_unit], rfl, rfl, rfl, rfl, nofun,
        fun _ => ⟨rfl, fun low => absurd low few, fun _ => ⟨rfl, rfl, rfl⟩⟩⟩

/-! ## Events, overruns and snapshots -/

theorem station?_acceptEvents (found : s.station? l a = some st) (events : List StationEvent) : ∃ accepted needed keys,
    (s.acceptEvents l a events).station? l a =
      some { st with accepted := accepted, snapshotNeeded := needed, keys := keys } := by
  induction events generalizing s st with
  | nil => exact ⟨st.accepted, st.snapshotNeeded, st.keys, found⟩
  | cons e rest ih =>
    rw [acceptEvents_cons found]
    split
    · obtain ⟨keys, taken⟩ := station?_takeEvent found e
      obtain ⟨accepted, needed, keys, later⟩ := ih taken
      exact ⟨accepted, needed, keys, later⟩
    · split
      · exact ih found
      · exact ⟨st.accepted, true, st.keys, by rw [station?_onStation_self, found, Option.map_some]⟩

theorem acceptEvents_unit (found : s.station? l a = some st) (events : List StationEvent) (m : Line) :
    (s.acceptEvents l a events).unit m = { s.unit m with stations := ((s.acceptEvents l a events).unit m).stations } := by
  induction events generalizing s st with
  | nil => rfl
  | cons e rest ih =>
    rw [acceptEvents_cons found]
    split
    · obtain ⟨keys, taken⟩ := station?_takeEvent found e
      have before : (s.takeEvent l a e).unit m = { s.unit m with stations := ((s.takeEvent l a e).unit m).stations } := by
        rw [takeEvent, unit_eq_of_bare (bare_stationEvent _ l a e), onStation_unit]
      rw [ih taken, before]
    · split
      · exact ih found
      · exact onStation_unit ..

/-! ## An answered call of an ONLINE station -/

section
variable {c : StationCall} {side : LineEnd} (found : s.station? l c.address = some st)
include found

theorem configured_station? : ∃ y, (s.configured l c side).station? l c.address = some y ∧ y.state = st.state ∧
    y.setup = st.setup ∧ y.missCount = 0 := by
  have noted := noted_station? found side
  unfold State.configured
  split
  · exact ⟨_, (station?_onStation_self ..).trans (congrArg _ noted), rfl, rfl, rfl⟩
  · exact ⟨_, noted, rfl, rfl, rfl⟩

theorem reported_station? (f : AnswerFrame) : ∃ y, (s.reported l c side f).station? l c.address = some y ∧ y.state = st.state ∧
    y.setup = st.setup ∧ y.missCount = 0 := by
  obtain ⟨y, configured, state, setup, misses⟩ := configured_station? (side := side) found
  obtain ⟨accepted, needed, keys, events⟩ := station?_acceptEvents configured f.events
  unfold State.reported
  split
  · exact ⟨_, (station?_onStation_self ..).trans (congrArg _ events), state, setup, misses⟩
  · exact ⟨_, events, state, setup, misses⟩

theorem reported_slot (f : AnswerFrame) : ((s.reported l c side f).unit l).slot = none := by
  obtain ⟨y, configured, _⟩ := configured_station? (side := side) found
  have first : ((s.configured l c side).unit l).slot = none := by
    unfold State.configured
    split
    · rw [onStation_unit, noted_unit, callEnded_unit]
    · rw [noted_unit, callEnded_unit]
  unfold State.reported
  split
  · rw [onStation_unit, acceptEvents_unit configured, first]
  · rw [acceptEvents_unit configured, first]

end

end State

end Sys2Proof.Machine
end

section
/-! SUPPORT. The ends of a station call, put together (R116, R121). -/

namespace Sys2Proof.Machine

namespace State

variable {s : State} {l : Line} {a : Nat} {st : Station} {x : Slot} {c : StationCall} {n : Nat}

/-! ## MISMATCH -/

theorem enterMismatch_unit (s : State) (l : Line) (a : Nat) (m : Line) : (s.enterMismatch l a).unit m = { s.unit m with
    stations := ((s.enterMismatch l a).unit m).stations, waiting := ((s.offlineStation l a).unit m).waiting } := by
  rw [enterMismatch_eq, raise_unit, ← (s.dismissed_mismatch l a).unit_offline]

theorem enterMismatch_groups (s : State) (l : Line) (a : Nat) :
    (s.enterMismatch l a).groups = (s.offlineStation l a).groups := by
  rw [enterMismatch_eq]
  exact (s.dismissed_mismatch l a).deliveries.groups

theorem enterMismatch_notices (s : State) (l : Line) (a : Nat) :
    (s.enterMismatch l a).notices = { (s.offlineStation l a).notices with stations := true } := by
  rw [enterMismatch_eq, ← (s.dismissed_mismatch l a).deliveries.notices]
  rfl

theorem enterMismatch_state (s : State) (l : Line) (a : Nat) : s.enterMismatch l a = { s with
    circuits := (s.enterMismatch l a).circuits, bindings := (s.enterMismatch l a).bindings
    repeats := (s.enterMismatch l a).repeats, groups := (s.enterMismatch l a).groups
    notices := (s.enterMismatch l a).notices, lineA := (s.enterMismatch l a).lineA
    lineB := (s.enterMismatch l a).lineB } := by
  have frame := (s.dismissed_mismatch l a).state
  rw [enterMismatch_eq, frame]
  rfl

theorem keysDiscarded_enterMismatch (sound : s.ListsSound) (found : s.station? l a = some st) :
    s.KeysDiscarded (s.enterMismatch l a) l a := by
  have same (m : Line) (b : Nat) : (s.enterMismatch l a).station? m b =
      ((s.onStation l a fun y => { y with state := .mismatch }).dismiss l a fun y => y).station? m b := by
    rw [enterMismatch_eq, station?, raise_unit, station?]
  refine ⟨fun y is => ?_, fun m b away => (same m b).trans ((s.dismissed_mismatch l a).other m b away), ?_⟩
  · rw [enterMismatch_station? found] at is
    cases is
    rfl
  · rw [enterMismatch_eq]
    exact ((s.dismissed_mismatch l a).lost sound).of_fields rfl rfl rfl

/-! ## A missed call -/

/-- What a missed call leaves before the miss is counted: the query it carried is settled (R133). -/
def unanswered (s : State) (l : Line) (c : StationCall) (how : QueryEnd) : State :=
  c.query.elim (s.callEnded l c) fun g => (s.callEnded l c).settleQuery g ⟨l, c.address⟩ how

theorem missedCall_eq (s : State) (l : Line) (c : StationCall) (how : QueryEnd) :
    (s.callEnded l c).missedCall l c how = (s.unanswered l c how).stationMiss l c.address := by
  unfold missedCall unanswered
  cases c.query <;> rfl

theorem unanswered_onlyDeliveries (s : State) (l : Line) (c : StationCall) (how : QueryEnd) :
    (s.callEnded l c).OnlyDeliveries (s.unanswered l c how) := by
  unfold unanswered
  cases c.query with
  | none => exact .refl _
  | some g => exact (OnlyDeliveries.refl _).settleQuery ..

theorem unanswered_unit (s : State) (l : Line) (c : StationCall) (how : QueryEnd) :
    ((s.unanswered l c how).unit l).state = (s.unit l).state ∧ ((s.unanswered l c how).unit l).slot = none := by
  rw [(s.unanswered_onlyDeliveries l c how).unit, callEnded_unit]
  exact ⟨rfl, rfl⟩

theorem unanswered_station? (s : State) (l : Line) (c : StationCall) (how : QueryEnd) (m : Line) (b : Nat) :
    (s.unanswered l c how).station? m b = s.station? m b := by
  rw [(s.unanswered_onlyDeliveries l c how).station?_eq, callEnded_station?]

theorem unanswered_circuits (s : State) (l : Line) (c : StationCall) (how : QueryEnd) :
    (s.unanswered l c how).circuits = s.circuits := by
  rw [(s.unanswered_onlyDeliveries l c how).state, callEnded_state]

theorem unanswered_notices (unasked : c.query = none) (how : QueryEnd) : (s.unanswered l c how).notices = s.notices := by
  rw [unanswered, unasked, Option.elim_none, callEnded_state]

end State

/-- The events that end a call's slot with nothing sound heard of the right type (R116, R121). -/
theorem exec_of_miss {s : State} {l : Line} {x : Slot} {c : StationCall} {n : Nat} (running : s.power = .running)
    (inSlot : (s.unit l).slot = some x) (opened : x.window = some n) (carries : x.carries = .call c) (valid : c.voided = false)
    {command : Instr} {how : QueryEnd}
    (miss : (how = QueryEnd.silent ∧ (x.otherSide = none ∨ (s.unit l).state ≠ .split) ∧ command = .answerWindowExpiry l) ∨
      (how = .garbled ∧ ∃ heard, heard ≠ [] ∧
        (command = .stationAnswer l heard ∧ ((∀ h ∈ heard, decodeAnswer h.chars = none) ∨ c.frame = .snapshotCall) ∨
          command = .snapshotAnswer l heard ∧
            ((∀ h ∈ heard, decodeSnapshot h.chars = none) ∨ c.frame ≠ .snapshotCall)))) :
    exec command s = .next ((s.unanswered l c how).stationMiss l c.address) := by
  rw [← State.missedCall_eq]
  obtain ⟨rfl, silent, rfl⟩ | ⟨rfl, heard, noise, ⟨rfl, unsound | call⟩ | ⟨rfl, unsound | call⟩⟩ := miss
  · rw [exec_answerWindowExpiry running, State.windowExpiry_of_silent inSlot opened (silent.imp_right .inl),
      State.endSlot_silent carries valid]
  · rw [exec_stationAnswer running, State.answerHeard_of_garbled inSlot opened noise unsound,
      State.endSlot_garbled carries valid (.inl rfl)]
  · obtain ⟨how, ended, garbled | ⟨side, f, answer⟩⟩ := State.answerHeard_of_noise inSlot opened noise
    · rw [exec_stationAnswer running, ended, State.endSlot_garbled carries valid (.inl garbled)]
    · rw [exec_stationAnswer running, ended,
        State.endSlot_garbled carries valid (.inr (.inl ⟨side, f, answer, call⟩))]
  · rw [exec_snapshotAnswer running, State.snapshotHeard_of_garbled inSlot opened noise unsound,
      State.endSlot_garbled carries valid (.inl rfl)]
  · obtain ⟨how, ended, garbled | ⟨side, f, answer⟩⟩ := State.snapshotHeard_of_noise inSlot opened noise
    · rw [exec_snapshotAnswer running, ended, State.endSlot_garbled carries valid (.inl garbled)]
    · rw [exec_snapshotAnswer running, ended,
        State.endSlot_garbled carries valid (.inr (.inr ⟨side, f, answer, call⟩))]

end Sys2Proof.Machine
end

section
/-! How a station's call ends (O44). -/

namespace Sys2Proof.Machine

namespace State

variable {s : State} {l : Line} {c : StationCall} {side : LineEnd} {st : Station}

theorem ListsSound.noted (sound : s.ListsSound) (l : Line) (c : StationCall) (side : LineEnd) :
    (s.noted l c side).ListsSound := by
  rw [noted_state]
  exact sound

/-! ## JOINING -/

/-- A JOINING station whose Answer was taken, before it enters ONLINE (R122). -/
def admitted (s : State) (l : Line) (c : StationCall) (side : LineEnd) : State :=
  (s.noted l c side).onStation l c.address fun y => { y with configurePending := false, snapshotNeeded := true }

theorem admitted_state (s : State) (l : Line) (c : StationCall) (side : LineEnd) :
    s.admitted l c side = { s with lineA := (s.admitted l c side).lineA, lineB := (s.admitted l c side).lineB } := by
  unfold admitted
  rw [noted_state]
  cases l <;> rfl

theorem admitted_unit (s : State) (l : Line) (c : StationCall) (side : LineEnd) (m : Line) : (s.admitted l c side).unit m =
    { (s.callEnded l c).unit m with stations := ((s.admitted l c side).unit m).stations } := by
  rw [admitted, onStation_unit, noted_unit]

theorem admitted_station?_other {m : Line} {b : Nat} (away : m ≠ l ∨ b ≠ c.address) :
    (s.admitted l c side).station? m b = s.station? m b := by
  rw [admitted, station?_onStation_ne _ (by tauto), noted_station?_other s c side away]

section
variable (found : s.station? l c.address = some st)
include found

theorem admitted_station? : ∃ y, (s.admitted l c side).station? l c.address = some y ∧ y.setup = st.setup ∧ y.keys = st.keys ∧
    ({ y with state := .online, lamps := y.lamps.map fun p => { p with confirmed := none } } : Station) = { st with
      state := .online, configurePending := false, snapshotNeeded := true, missCount := 0
      reach := if (s.unit l).state = .split then some side else st.reach
      lamps := st.lamps.map fun p => { p with confirmed := none } } := by
  refine ⟨_, (station?_onStation_self ..).trans (congrArg _ (noted_station? found side)), rfl, rfl, ?_⟩
  simp only [List.map_map, Function.comp_def]

/-- A JOINING station whose Answer was taken is ONLINE, with its keys (R98, R106, R122). -/
theorem joined_station? : ∃ st', ((s.admitted l c side).enterOnline l c.address).station? l c.address = some st' ∧
    st' = { st with
      state := .online, configurePending := false, snapshotNeeded := true, missCount := 0
      reach := if (s.unit l).state = .split then some side else st.reach
      lamps := st.lamps.map fun p => { p with confirmed := none }
      keys := st'.keys } ∧
    (st.keys = [] → st'.keys = st.setup.firstKeys) ∧
    (st.keys ≠ [] → ∀ i, Table.at? st'.keys i = (Table.at? st.keys i).map (KeyRecord.returned s.settings.stuck)) := by
  obtain ⟨y, there, setup, old, record⟩ := admitted_station? (side := side) found
  obtain ⟨keys, entered, first, returned⟩ := enterOnline_station? there
  have settings : (s.admitted l c side).settings = s.settings := by rw [admitted_state]
  rw [old] at first returned
  rw [setup, StationSetup.keyRecords_eq] at first
  rw [settings] at returned
  exact ⟨_, entered, congrArg (fun z : Station => { z with keys := keys }) record, first, returned⟩

theorem joined_unit (m : Line) : ((s.admitted l c side).enterOnline l c.address).unit m = { (s.callEnded l c).unit m with
    stations := (((s.admitted l c side).enterOnline l c.address).unit m).stations } := by
  obtain ⟨y, there, _⟩ := admitted_station? (side := side) found
  rw [enterOnline_unit there, admitted_unit]

theorem joined_station?_other {m : Line} {b : Nat} (away : m ≠ l ∨ b ≠ c.address) :
    ((s.admitted l c side).enterOnline l c.address).station? m b = s.station? m b := by
  obtain ⟨y, there, _⟩ := admitted_station? (side := side) found
  rw [enterOnline_station?_other there away, admitted_station?_other away]

theorem joined_state : (s.admitted l c side).enterOnline l c.address = { s with
    lineA := ((s.admitted l c side).enterOnline l c.address).lineA
    lineB := ((s.admitted l c side).enterOnline l c.address).lineB
    notices := { s.notices with stations := true } } := by
  obtain ⟨y, there, _⟩ := admitted_station? (side := side) found
  rw [enterOnline_state there, admitted_state]

/-! ## ONLINE -/

/-- What an Answer of an ONLINE station leaves once the query its Call carried is settled (R133). -/
def heeded (s : State) (l : Line) (c : StationCall) (side : LineEnd) (f : AnswerFrame) : State :=
  c.query.elim (s.reported l c side f) fun g => (s.reported l c side f).settleQuery g ⟨l, c.address⟩ (.acknowledged f.ack)

theorem heeded_station? (f : AnswerFrame) : ∃ y, (s.heeded l c side f).station? l c.address = some y ∧
    ((s.heeded l c side f).unit l).slot = none ∧ y.state = st.state ∧ y.setup = st.setup ∧ y.missCount = 0 := by
  have settled : (s.reported l c side f).OnlyDeliveries (s.heeded l c side f) := by
    unfold heeded
    cases c.query with
    | none => exact .refl _
    | some g => exact (OnlyDeliveries.refl _).settleQuery ..
  obtain ⟨y, there, record⟩ := reported_station? (side := side) found f
  exact ⟨y, (settled.station?_eq ..).trans there, by rw [settled.unit, reported_slot found f], record⟩

/-- A Snapshot Answer of an ONLINE station that was compared (R124). -/
theorem compared_station? (accepted : Nat) (inputs : List (Nat × InputReading)) : ∃ keys,
    ((((s.noted l c side).onStation l c.address fun y => { y with accepted := accepted, snapshotNeeded := false }
      ).compareSnapshot l c.address inputs).unit l).slot = none ∧
    (((s.noted l c side).onStation l c.address fun y => { y with accepted := accepted, snapshotNeeded := false }
      ).compareSnapshot l c.address inputs).station? l c.address = some { st with
        missCount := 0, reach := if (s.unit l).state = .split then some side else st.reach
        lamps := st.lamps.map fun p => { p with
          confirmed := (((c.lampsSent.getD []).find? fun e => e.1 == p.key).map (·.2)).or p.confirmed }
        accepted := accepted, snapshotNeeded := false, keys := keys } := by
  have bare := bare_compareSnapshot ((s.noted l c side).onStation l c.address fun y => { y with
    accepted := accepted, snapshotNeeded := false }) l c.address inputs
  have before := (station?_onStation_self (s.noted l c side) l c.address fun y => { y with
    accepted := accepted, snapshotNeeded := false }).trans (congrArg _ (noted_station? found side))
  obtain ⟨keys, there⟩ := station?_of_bare_some bare before
  exact ⟨keys, by rw [unit_eq_of_bare bare, onStation_unit, noted_unit, callEnded_unit], there⟩

end

/-! ## Another kind -/

theorem misfit_slot (s : State) (l : Line) (c : StationCall) (side : LineEnd) (st : Station) :
    ((s.misfit l c side st).unit l).slot = none := by
  unfold misfit
  split
  · rw [noted_unit, callEnded_unit]
  · rw [enterMismatch_unit, noted_unit, callEnded_unit]

section
variable (found : s.station? l c.address = some st)
include found

theorem misfit_station? : ∃ st', (s.misfit l c side st).station? l c.address = some st' ∧ st'.state = .mismatch ∧
    st'.setup = st.setup ∧ st'.missCount = 0 ∧ (st.state ≠ .mismatch →
      ∃ y, (s.noted l c side).station? l c.address = some y ∧ st' = { y with state := .mismatch, keys := [] }) := by
  have there := noted_station? found side
  unfold misfit
  split
  · rename_i already
    exact ⟨_, there, already, rfl, rfl, fun new => absurd already new⟩
  · exact ⟨_, enterMismatch_station? there, rfl, rfl, rfl, fun _ => ⟨_, there, rfl⟩⟩

end

end State

/-- Settles O44: a call ends void, answered with the right or another kind, or missed, and each has its lemma on the record. -/
theorem stationCallsEnd : Obligations.StationCallsEnd := by
  unfold Obligations.StationCallsEnd
  intro s l x c n running inSlot opened carries u ended
  refine ⟨fun void => ⟨?_, fun heard noise => ⟨?_, ?_⟩⟩, fun valid e other split => ?_, fun st valid found => ?_⟩
  · have silent : x.carries.isVoided = true := by rw [carries]; exact void
    rw [exec_answerWindowExpiry running, State.windowExpiry_of_silent inSlot opened (.inr (.inr silent)),
      State.endSlot_of_void carries void]
    rfl
  · obtain ⟨how, heard, _⟩ := State.answerHeard_of_noise inSlot opened noise
    rw [exec_stationAnswer running, heard, State.endSlot_of_void carries void]
    rfl
  · obtain ⟨how, heard, _⟩ := State.snapshotHeard_of_noise inSlot opened noise
    rw [exec_snapshotAnswer running, heard, State.endSlot_of_void carries void]
    rfl
  · rw [exec_answerWindowExpiry running, State.windowExpiry_of_other inSlot opened other split (by rw [carries]; exact valid)]
  intro noted mismatched heardFirst
  have mismatch (side : LineEnd) : ∃ st', (s.misfit l c side st).station? l c.address = some st' ∧
      ((s.misfit l c side st).unit l).slot = none ∧ st'.setup = st.setup ∧ st'.missCount = 0 ∧
      mismatched side (s.misfit l c side st) st' := by
    obtain ⟨st', there, state, setup, misses, record⟩ := State.misfit_station? (side := side) found
    refine ⟨st', there, s.misfit_slot l c side st, setup, misses, state, fun already => if_pos already, fun new => ?_⟩
    have entered : s.misfit l c side st = (s.noted l c side).enterMismatch l c.address := if_neg new
    rw [entered]
    refine ⟨record new, fun sound _ => ?_, State.enterMismatch_groups .., State.enterMismatch_notices ..,
      fun m => State.enterMismatch_unit .., State.enterMismatch_state ..⟩
    exact State.keysDiscarded_enterMismatch (sound.noted l c side) (State.noted_station? found side)
  refine ⟨fun heard side chars f first decoded call => ?_, fun heard side chars f first decoded call other => ?_,
    fun heard side chars f first decoded call kind online => ?_, fun command how miss => ?_⟩
  · obtain ⟨before, rest, rfl, unsound⟩ := first
    have exec_eq : exec (.stationAnswer l (before ++ ⟨side, chars⟩ :: rest)) s =
        .next ((s.callEnded l c).takeAnswer l c side f) := by
      rw [exec_stationAnswer running, State.answerHeard_of_sound inSlot opened (by simpa using unsound) decoded,
        State.endSlot_answer carries valid call]
    by_cases kind : stationKindOfNat f.kindCode = some st.setup.kind
    · cases state : st.state with
      | joining =>
        rw [State.takeAnswer_of_joining found kind state] at exec_eq
        obtain ⟨st', there, record, first, returned⟩ := State.joined_station? (side := side) found
        refine ⟨_, st', exec_eq, ?_, there, by rw [record], by rw [record], fun _ => ⟨by simp, fun _ => ?_, nofun⟩,
          fun other => absurd kind other⟩
        · exact (congrArg LineUnit.slot (State.joined_unit found l)).trans (by rw [State.callEnded_unit])
        · exact ⟨record, first, returned, fun m b away => State.joined_station?_other found away,
            State.joined_unit found, State.joined_state found⟩
      | online =>
        rw [State.takeAnswer_of_online found kind state] at exec_eq
        obtain ⟨st', there, slot, online, setup, misses⟩ := State.heeded_station? (side := side) found f
        exact ⟨_, st', exec_eq, slot, there, setup, misses, fun _ => ⟨by simp, nofun, fun _ => ⟨online.trans state, rfl⟩⟩,
          fun other => absurd kind other⟩
      | expected | missing | mismatch =>
        rw [State.takeAnswer_of_lost found kind (by simp [state])] at exec_eq
        refine ⟨_, _, exec_eq, ?_, (State.station?_onStation_self ..).trans (congrArg _ (State.noted_station? found side)), rfl,
          rfl, fun _ => ⟨fun _ => rfl, nofun, nofun⟩, fun other => absurd kind other⟩
        rw [State.onStation_unit, State.noted_unit, State.callEnded_unit]
    · obtain ⟨st', record, slot, setup, misses, rest⟩ := mismatch side
      rw [State.takeAnswer_of_misfit found kind] at exec_eq
      exact ⟨_, st', exec_eq, slot, record, setup, misses, fun same => absurd same kind, fun _ => rest⟩
  · obtain ⟨before, rest, rfl, unsound⟩ := first
    obtain ⟨st', record, slot, setup, misses, left⟩ := mismatch side
    refine ⟨_, st', ?_, slot, record, left⟩
    rw [exec_snapshotAnswer running, State.snapshotHeard_of_sound inSlot opened (by simpa using unsound) decoded,
      State.endSlot_snapshot carries valid call, State.takeSnapshot_of_misfit found other]
  · obtain ⟨before, rest, rfl, unsound⟩ := first
    obtain ⟨keys, slot, there⟩ := State.compared_station? (side := side) found f.sequence f.inputs
    refine ⟨_, _, ?_, slot, there, online, rfl, rfl, rfl, rfl, rfl⟩
    rw [exec_snapshotAnswer running, State.snapshotHeard_of_sound inSlot opened (by simpa using unsound) decoded,
      State.endSlot_snapshot carries valid call, State.takeSnapshot_of_online found kind online]
  · have exec_eq := exec_of_miss running inSlot opened carries valid miss
    obtain ⟨state, slot⟩ := s.unanswered_unit l c how
    obtain ⟨st', there, kept, accepted, setup, lamps, reach, unpolled, polled⟩ :=
      State.stationMiss_record ((s.unanswered_station? l c how l c.address).trans found)
    rw [state] at reach
    refine ⟨_, st', exec_eq, kept.trans slot, there, ?_⟩
    intro settled missed
    have same (count : Option Nat) : (s.unanswered l c how).missed l c.address count = missed count := by
      rw [State.missed, state]
      rfl
    have notices (count : Option Nat) (unasked : c.query = none) : (missed count).notices = s.notices :=
      (State.onUnit_notices ..).trans (State.unanswered_notices unasked how)
    simp only [same] at unpolled polled
    refine ⟨accepted, setup, lamps, reach, fun no => ?_, fun yes => ?_⟩
    · obtain ⟨state, misses, left⟩ := unpolled no
      exact ⟨state, misses, fun unasked => by rw [left, notices none unasked], left⟩
    · obtain ⟨misses, few, third⟩ := polled yes
      refine ⟨misses, fun low => ?_, third⟩
      obtain ⟨state, left⟩ := few low
      refine ⟨state, fun unasked => by rw [left, notices _ unasked], ?_, left⟩
      rw [left]
      exact (State.onUnit_circuits ..).trans (s.unanswered_circuits l c how)

end Sys2Proof.Machine
end

section
/-! SUPPORT. What the parts of a mode change leave of a circuit: its claims with their dormancy re-evaluated, its transition
where a transfer may begin, and the report of the required feed (R12, R38, R141, R142). -/

namespace Sys2Proof.Machine

/-! ## A circuit on which a transfer may begin -/

theorem Transition.handover_mayTransfer {t : Transition} (h : t.phase.mayTransfer = true) (c : CircuitConfig)
    (target : Nat) (egress : Bool) (tenths : Nat) : (t.handover c target egress tenths).phase.mayTransfer = true := by
  have resting (hp : t.phase = .steady ∨ t.phase = .fading) :
      (t.handover c target egress tenths).phase.mayTransfer = true := by
    by_cases arrived : target = t.level
    · rw [t.handover_arrived c target egress tenths hp arrived]
      rfl
    · rw [t.handover_fades c target egress tenths hp arrived]
      rfl
  cases hp : t.phase with
  | steady => exact resting (.inl hp)
  | fading => exact resting (.inr hp)
  | upslope =>
    cases egress with
    | false =>
      rw [t.handover_restarts c target tenths hp]
      exact h
    | true =>
      rw [t.handover_overrides c target tenths hp]
      rfl
  | downslope => simp [hp, CircuitPhase.mayTransfer] at h
  | block => simp [hp, CircuitPhase.mayTransfer] at h

/-- A step begins a BLOCK in DOWNSLOPE alone, and changes neither feed nor relay flag in another phase (R25, R33). -/
theorem Transition.step_of_mayTransfer {t : Transition} (h : t.phase.mayTransfer = true) (c : CircuitConfig) :
    (t.step c).phase.mayTransfer = true ∧ (t.step c).feed = t.feed ∧ (t.step c).relay = t.relay := by
  have outcome := t.step_stepped c
  generalize t.step c = u at outcome
  cases outcome with
  | rests => exact ⟨h, rfl, rfl⟩
  | goesOn => exact ⟨h, rfl, rfl⟩
  | arrives => exact ⟨rfl, rfl, rfl⟩
  | blocks hp => simp [hp, CircuitPhase.mayTransfer] at h

/-- A circuit keeps its configuration, and where a transfer may begin, that and its feed with its relay flag. -/
def Circuit.KeptFree (x y : Circuit) : Prop :=
  y.config = x.config ∧ (x.transition.phase.mayTransfer = true → y.transition.phase.mayTransfer = true ∧
    y.transition.feed = x.transition.feed ∧ y.transition.relay = x.transition.relay)

namespace Circuit.KeptFree

variable {x y z : Circuit}

theorem refl (x : Circuit) : x.KeptFree x := ⟨rfl, fun may => ⟨may, rfl, rfl⟩⟩

theorem trans (h : x.KeptFree y) (k : y.KeptFree z) : x.KeptFree z := by
  refine ⟨k.1.trans h.1, fun may => ?_⟩
  obtain ⟨may', feed, relay⟩ := h.2 may
  obtain ⟨may'', feed', relay'⟩ := k.2 may'
  exact ⟨may'', feed'.trans feed, relay'.trans relay⟩

/-- A list given to a circuit and resolved. -/
theorem resolve (x : Circuit) (claims : List Contribution) (master : Option Nat) (tenths : Nat) :
    x.KeptFree (Circuit.resolve master tenths { x with claims := claims }) :=
  ⟨rfl, fun may => ⟨Transition.handover_mayTransfer may .., Transition.handover_feed .., Transition.handover_relay ..⟩⟩

theorem removed (x : Circuit) (master : Option Nat) (o : Origin) : x.KeptFree (x.removed master o) := by
  rcases x.removed_cases master o with same | ⟨claims, tenths, resolved⟩
  · rw [same]
    exact refl x
  · rw [resolved]
    exact resolve x claims master tenths

theorem stepped (x : Circuit) : x.KeptFree x.stepped := ⟨rfl, fun may => Transition.step_of_mayTransfer may _⟩

end Circuit.KeptFree

/-! ## Dormancy re-evaluated -/

/-- The re-evaluation of a circuit's dormancy leaves it, or gives it its list with the dormancy of the mode and resolves it
(R12, R141). -/
theorem State.redormCircuit_cases (s : State) (x : Circuit) :
    s.redormCircuit x = x ∨ ∃ tenths, s.redormCircuit x = (x.redorm s.mode).resolve (s.masterOf x.config) tenths := by
  unfold State.redormCircuit
  dsimp only
  split
  · exact .inr ⟨_, rfl⟩
  · exact .inl rfl

theorem State.redormCircuit_of_plain (s : State) {x : Circuit} (h : x.config.audience = false) :
    s.redormCircuit x = x := by simp [State.redormCircuit, h]

theorem Circuit.KeptFree.redormCircuit (s : State) (x : Circuit) : x.KeptFree (s.redormCircuit x) := by
  rcases s.redormCircuit_cases x with same | ⟨tenths, resolved⟩
  · rw [same]
    exact .refl x
  · rw [resolved]
    exact .resolve x ..

theorem State.redormCircuit_origins (s : State) (x : Circuit) :
    (s.redormCircuit x).claims.map (·.origin) = x.claims.map (·.origin) := by
  rcases s.redormCircuit_cases x with same | ⟨tenths, resolved⟩
  · rw [same]
  · rw [resolved]
    simp [Circuit.resolve, Circuit.redorm]

/-- After it every claim of an AUDIENCE circuit has the dormancy of the mode (R12). -/
theorem State.redormCircuit_dormant (s : State) {x : Circuit} (h : x.config.audience = true) :
    ∀ k ∈ (s.redormCircuit x).claims, k.dormant = dormantIn s.mode x.config k.tier := by
  unfold State.redormCircuit
  by_cases settled : x.shifted s.mode = []
  · rw [settled]
    have kept : ∀ k ∈ x.claims, k.dormant = dormantIn s.mode x.config k.tier := by
      simpa [Circuit.shifted, List.filter_eq_nil_iff] using settled
    simpa using kept
  · simp [h, settled, Circuit.resolve, Circuit.redorm]

/-- What step 3 of a mode change can make of a circuit: its dormancy re-evaluated, with a step of the step timer before,
after or not at all (R141, R142, log entry 31). -/
inductive State.RedormedTo (s : State) (x : Circuit) : Circuit → Prop
  | alone : s.RedormedTo x (s.redormCircuit x)
  | stepAfter : s.RedormedTo x (s.redormCircuit x).stepped
  | stepBefore : s.RedormedTo x (s.redormCircuit x.stepped)

namespace State.RedormedTo

variable {s : State} {x y : Circuit}

theorem keptFree (h : s.RedormedTo x y) : x.KeptFree y := by
  cases h with
  | alone => exact .redormCircuit s x
  | stepAfter => exact (Circuit.KeptFree.redormCircuit s x).trans (.stepped _)
  | stepBefore => exact (Circuit.KeptFree.stepped x).trans (.redormCircuit s _)

theorem origins (h : s.RedormedTo x y) : y.claims.map (·.origin) = x.claims.map (·.origin) := by
  cases h with
  | alone => exact s.redormCircuit_origins x
  | stepAfter => exact s.redormCircuit_origins x
  | stepBefore => exact s.redormCircuit_origins x.stepped

theorem dormant (h : s.RedormedTo x y) (audience : x.config.audience = true) :
    ∀ k ∈ y.claims, k.dormant = dormantIn s.mode x.config k.tier := by
  cases h with
  | alone => exact s.redormCircuit_dormant audience
  | stepAfter => exact s.redormCircuit_dormant audience
  | stepBefore => exact s.redormCircuit_dormant (x := x.stepped) audience

theorem of_plain (h : s.RedormedTo x y) (plain : x.config.audience = false) : y = x ∨ y = x.stepped := by
  cases h with
  | alone => exact .inl (s.redormCircuit_of_plain plain)
  | stepAfter => exact .inr (congrArg Circuit.stepped (s.redormCircuit_of_plain plain))
  | stepBefore => exact .inr (s.redormCircuit_of_plain (x := x.stepped) plain)

end State.RedormedTo

/-! ## The report of a required feed -/

/-- A circuit after the report of a required feed, which TRANSFER circuits take (R38). -/
def State.reportedTo (s : State) (required : Feed) (x : Circuit) : Circuit :=
  if x.config.kind = .transfer then
    { x with transition := x.transition.feedReport x.config required (s.transferReady x.config required) }
  else x

theorem State.reportedTo_of_transfer (s : State) (required : Feed) {x : Circuit} (h : x.config.kind = .transfer) :
    s.reportedTo required x =
      { x with transition := x.transition.feedReport x.config required (s.transferReady x.config required) } := if_pos h

theorem State.reportedTo_eq (s : State) (required : Feed) (x : Circuit) :
    s.reportedTo required x = { x with transition := (s.reportedTo required x).transition } := by
  unfold State.reportedTo
  split <;> rfl

theorem State.reportedTo_config (s : State) (required : Feed) (x : Circuit) :
    (s.reportedTo required x).config = x.config := by rw [s.reportedTo_eq required x]

theorem State.reportedTo_claims (s : State) (required : Feed) (x : Circuit) :
    (s.reportedTo required x).claims = x.claims := by rw [s.reportedTo_eq required x]

section
variable {s : State} {required : Feed} {x : Circuit}

/-- A circuit of another kind and one in BLOCK take no notice of it (R38). -/
theorem State.reportedTo_unmoved (h : x.config.kind ≠ .transfer ∨ x.transition.phase = .block) :
    s.reportedTo required x = x := by
  by_cases kind : x.config.kind = .transfer
  · rw [s.reportedTo_of_transfer required kind, Transition.feedReport_of_block _ _ _ (h.resolve_left (not_not_intro kind))]
  · exact if_neg kind

variable (kind : x.config.kind = .transfer)
include kind

/-- On the required feed a pending transfer is dropped (R38). -/
theorem State.reportedTo_satisfied (may : x.transition.phase.mayTransfer = true) (on : x.transition.feed = required) :
    s.reportedTo required x = { x with transition := { x.transition with pendingTransfer := none } } := by
  rw [s.reportedTo_of_transfer required kind, Transition.feedReport_of_mayTransfer _ _ _ may, if_pos on.symm]

/-- Off the required feed a transfer begins if both conditions hold (R31, R32, R38). -/
theorem State.reportedTo_begins (may : x.transition.phase.mayTransfer = true) (off : x.transition.feed ≠ required)
    (clear : s.latchCopy = false) (online : s.feedOnline x.config required = true) :
    s.reportedTo required x = { x with transition := x.transition.beginTransfer x.config } := by
  rw [s.reportedTo_of_transfer required kind, Transition.feedReport_of_mayTransfer _ _ _ may, if_neg (Ne.symm off),
    State.transferReady_iff.2 ⟨clear, online⟩]
  rfl

/-- Off the required feed the transfer is pending if a condition fails (R31, R38). -/
theorem State.reportedTo_waits (may : x.transition.phase.mayTransfer = true) (off : x.transition.feed ≠ required)
    (fails : s.latchCopy = true ∨ s.feedOnline x.config required = false) :
    s.reportedTo required x = { x with transition := { x.transition with pendingTransfer := some required } } := by
  have ready : s.transferReady x.config required = false :=
    State.transferReady_eq_false.2 fun ⟨clear, online⟩ => by simp [clear, online] at fails
  rw [s.reportedTo_of_transfer required kind, Transition.feedReport_of_mayTransfer _ _ _ may, if_neg (Ne.symm off), ready]
  rfl

theorem State.reportedTo_downslope_off (hp : x.transition.phase = .downslope) (off : x.transition.feed ≠ required) :
    s.reportedTo required x = x := by
  rw [s.reportedTo_of_transfer required kind, Transition.feedReport_of_downslope _ _ _ hp, if_neg (Ne.symm off)]

/-- A downslope away from the required feed is given up: the circuit fades back to its target (R38). -/
theorem State.reportedTo_returns (hp : x.transition.phase = .downslope) (on : x.transition.feed = required) :
    s.reportedTo required x = { x with
      transition := .refresh x.config
        { x.transition.beginFade x.transition.target x.config.upslope with phase := .fading } } := by
  rw [s.reportedTo_of_transfer required kind, Transition.feedReport_of_downslope _ _ _ hp, if_pos on.symm]

end

end Sys2Proof.Machine
end

section
/-! SUPPORT. The steps of a mode change on the state: the releases one after another, and the changes to every circuit that
follow them (R139 to R142). -/

namespace Sys2Proof.Machine

/-! ## The same change made to every circuit -/

/-- The circuits of a state are those of another, each changed as a relation has it. -/
def State.MapsCircuits (s u : State) (P : Circuit → Circuit → Prop) : Prop :=
  ∃ f, u.circuits = Table.mapAll s.circuits f ∧ ∀ i x, P x (f i x)

namespace State.MapsCircuits

variable {s t u : State} {P Q : Circuit → Circuit → Prop}

theorem refl (s : State) (h : ∀ x, P x x) : s.MapsCircuits s P :=
  ⟨fun _ x => x, by simp [Table.mapAll], fun _ x => h x⟩

theorem mono (h : s.MapsCircuits u P) (k : ∀ x y, P x y → Q x y) : s.MapsCircuits u Q := by
  obtain ⟨f, circuits, each⟩ := h
  exact ⟨f, circuits, fun i x => k _ _ (each i x)⟩

theorem trans (h : s.MapsCircuits t P) (k : t.MapsCircuits u Q) : s.MapsCircuits u fun x z => ∃ y, P x y ∧ Q y z := by
  obtain ⟨f, circuits, each⟩ := h
  obtain ⟨g, circuits', each'⟩ := k
  refine ⟨fun i x => g i (f i x), ?_, fun i x => ⟨f i x, each i x, each' i _⟩⟩
  rw [circuits', circuits]
  simp [Table.mapAll]

theorem at? (h : s.MapsCircuits u P) {c : Nat} {x : Circuit} (hx : Table.at? s.circuits c = some x) :
    ∃ y, Table.at? u.circuits c = some y ∧ P x y := by
  obtain ⟨f, circuits, each⟩ := h
  exact ⟨f c x, by rw [circuits, Table.at?_mapAll, hx]; rfl, each c x⟩

theorem mem (h : s.MapsCircuits u P) {e : Nat × Circuit} (he : e ∈ u.circuits) : ∃ x, P x e.2 := by
  obtain ⟨f, circuits, each⟩ := h
  obtain ⟨e', _, rfl⟩ := List.mem_map.1 (circuits ▸ he)
  exact ⟨e'.2, each ..⟩

/-- Where no list changes its origins, no origin is held elsewhere than before. -/
theorem holders (h : s.MapsCircuits u fun x y => y.claims.map (·.origin) = x.claims.map (·.origin)) (o : Origin) :
    u.holders o = s.holders o := by
  obtain ⟨f, circuits, each⟩ := h
  have holds (i : Nat) (x : Circuit) :
      ((f i x).claims.any fun k => k.origin == o) = x.claims.any fun k => k.origin == o := by
    simpa [List.any_map, Function.comp_def] using congrArg (List.any · (· == o)) (each i x)
  simp only [State.holders, Table.idsWhere, circuits, Table.mapAll, List.filter_map, List.map_map, Function.comp_def, holds]

theorem heldOn (h : s.MapsCircuits u fun x y => y.claims.map (·.origin) = x.claims.map (·.origin)) (o : Origin) (c : Nat)
    (held : u.heldOn o c = true) : s.heldOn o c = true := by
  obtain ⟨f, circuits, each⟩ := h
  obtain ⟨y, hy, k, mem, origin⟩ := State.heldOn_iff.1 held
  rw [circuits, Table.at?_mapAll, Option.map_eq_some_iff] at hy
  obtain ⟨x, hx, rfl⟩ := hy
  obtain ⟨j, mem', same⟩ := List.mem_map.1 (each c x ▸ List.mem_map_of_mem (f := Contribution.origin) mem)
  exact State.heldOn_iff.2 ⟨x, hx, j, mem', same.trans origin⟩

end State.MapsCircuits

theorem State.redormAll_mapsCircuits (s : State) : s.MapsCircuits s.redormAll s.RedormedTo :=
  ⟨_, rfl, fun _ _ => .alone⟩

theorem State.redormBeforeReport_mapsCircuits (s : State) : s.MapsCircuits s.redormBeforeReport s.RedormedTo := by
  unfold State.redormBeforeReport
  cases Config.stepInModeChange s.freeUses with
  | none => exact ⟨_, rfl, fun _ _ => .alone⟩
  | some c =>
    refine ⟨fun i x => if i ≤ c then (s.redormCircuit x).stepped else s.redormCircuit x.stepped, ?_, fun i x => ?_⟩
    · simp only [State.redormWhere, State.stepExpiry, State.withCircuits, Table.mapAll, List.map_map, Function.comp_def]
      refine List.map_congr_left fun e _ => ?_
      by_cases before : e.1 ≤ c
      · simp [before, Nat.not_lt.2 before]
        rfl
      · simp [before, Nat.lt_of_not_le before]
        rfl
    · dsimp only
      split
      · exact .stepAfter
      · exact .stepBefore

theorem State.reportFeed_mapsCircuits (s : State) (required : Feed) :
    s.MapsCircuits (s.reportFeed required) fun x y => y = s.reportedTo required x := ⟨_, rfl, fun _ _ => rfl⟩

/-! ## The light of several bindings released -/

/-- The light of bindings released one after another. -/
def State.releaseEach (s : State) (ids : List Nat) : State := ids.foldl (fun s b => s.releaseLight b) s

section
variable {s t : State} {ids : List Nat}

theorem State.releaseEach_onlyLight (s : State) (ids : List Nat) : s.OnlyLight (s.releaseEach ids) :=
  (State.OnlyLight.refl s).foldl ids fun u b h => h.trans (u.releaseLight_onlyLight b)

theorem State.releaseEach_lightLost (order : s.TablesInOrder) (ids : List Nat) : s.LightLost (s.releaseEach ids) :=
  (State.LightLost.refl s).foldl order ids fun _ b hu => State.releaseLight_lightLost hu b

theorem State.releaseEach_record (s : State) (ids : List Nat) (i : Nat) :
    (Table.at? (s.releaseEach ids).bindings i).map (·.record) = (Table.at? s.bindings i).map (·.record) := by
  induction ids generalizing s with
  | nil => rfl
  | cons b ids ih =>
    refine (ih (s.releaseLight b)).trans ?_
    rw [State.releaseLight_bindings_at?, Option.map_map]
    congr 1
    funext x
    by_cases own : i = b <;> simp [own]

/-- Of each binding whose light is among those released the five steps hold, after whatever else only loses light (R53). -/
theorem State.releaseEach_released (order : s.TablesInOrder) (sound : s.ListsSound) {b : Nat} {x : Binding} (mem : b ∈ ids)
    (found : Table.at? s.bindings b = some x) (after : (s.releaseEach ids).LightLost t) : s.Released t b x := by
  obtain ⟨before, rest, rfl⟩ := List.append_of_mem mem
  have lost := State.releaseEach_lightLost order before
  have orderB := lost.tables order
  obtain ⟨x', found', record⟩ : ∃ x', Table.at? (s.releaseEach before).bindings b = some x' ∧ x'.record = x.record := by
    have same := s.releaseEach_record before b
    rw [found, Option.map_some, Option.map_eq_some_iff] at same
    exact same
  have orderR := (State.releaseLight_lightLost orderB b).tables orderB
  have later := State.releaseEach_lightLost orderR rest
  have whole : s.releaseEach (before ++ b :: rest) = ((s.releaseEach before).releaseLight b).releaseEach rest :=
    List.foldl_append
  exact State.released_of_release order sound lost found' (congrArg _ record) (later.trans orderR (whole ▸ after))

end

/-- Every circuit keeps its configuration, and where a transfer may begin, that and its feed with its relay flag. -/
def State.KeepsFree (s t : State) : Prop :=
  ∀ c x, Table.at? s.circuits c = some x → ∃ y, Table.at? t.circuits c = some y ∧ x.KeptFree y

namespace State.KeepsFree

variable {s t u : State}

theorem refl (s : State) : s.KeepsFree s := fun _ x hx => ⟨x, hx, .refl x⟩

theorem trans (h : s.KeepsFree t) (k : t.KeepsFree u) : s.KeepsFree u := fun c x hx => by
  obtain ⟨y, hy, first⟩ := h c x hx
  obtain ⟨z, hz, second⟩ := k c y hy
  exact ⟨z, hz, first.trans second⟩

theorem foldl {α : Type} {f : State → α → State} (xs : List α) (h : s.KeepsFree t)
    (k : ∀ (u : State) x, u.KeepsFree (f u x)) : s.KeepsFree (xs.foldl f t) := by
  induction xs generalizing t with
  | nil => exact h
  | cons x xs ih => exact ih (h.trans (k t x))

theorem remove (s : State) (byOther : Bool) (o : Origin) (c : Nat) : s.KeepsFree (s.remove byOther o c) := fun i x hx => by
  refine ⟨_, by rw [State.remove_at?, hx]; rfl, ?_⟩
  split
  · exact .removed x ..
  · exact .refl x

theorem releaseScene (s : State) (n : Nat) : s.KeepsFree (s.releaseScene n) := by
  cases hn : Table.at? s.scenes n with
  | none => rw [State.releaseScene, hn]; exact refl s
  | some y =>
    rw [State.releaseScene_eq hn]
    exact (refl s).foldl _ fun u c => remove u _ _ c

theorem releaseLight (s : State) (b : Nat) : s.KeepsFree (s.releaseLight b) := by
  cases hx : Table.at? s.bindings b with
  | none => rw [State.releaseLight_of_free hx]; exact refl s
  | some x =>
    have own : s.KeepsFree (s.removeEverywhere (.binding b)) := (refl s).foldl _ fun u c => remove u _ _ c
    have claims : s.KeepsFree (s.claimsReleased b) := own.foldl _ releaseScene
    have circuits : (s.releaseLight b).circuits = (s.claimsReleased b).circuits := by
      rw [State.releaseLight_of_inUse hx]
      simp [State.tracesDropped]
    exact fun c y hy => circuits ▸ claims c y hy

theorem releaseEach (s : State) (ids : List Nat) : s.KeepsFree (s.releaseEach ids) := (refl s).foldl ids releaseLight

end State.KeepsFree

end Sys2Proof.Machine
end

section
/-! SUPPORT. A mode change as its steps, and what each leaves (R139 to R142). -/

namespace Sys2Proof.Machine

section
variable (s : State) (m : HouseMode)

/-- A mode change goes into or out of PERFORMANCE (R141). -/
abbrev State.CrossesPerformance : Prop := s.mode = .performance ∨ m = .performance

/-- Steps 1 and 2 of a mode change: the mode taken, and the light of each binding that leaves it released (R139, R140). -/
def State.modeReleased : State := (s.withMode m).releaseEach (s.leaving s.mode m)

/-- Steps 1 to 3 of a mode change: on one into or out of PERFORMANCE dormancy is re-evaluated (R139, R141). -/
def State.modeShifted : State :=
  if s.CrossesPerformance m then
    if m.requires = s.mode.requires then (s.modeReleased m).redormAll else (s.modeReleased m).redormBeforeReport
  else s.modeReleased m

end

theorem State.changeMode_present (s : State) : s.changeMode s.mode = s := if_pos rfl

section
variable {s : State} {m : HouseMode}

theorem State.changeMode_eq (h : m ≠ s.mode) : s.changeMode m =
    if m.requires = s.mode.requires then s.modeShifted m else (s.modeShifted m).reportFeed m.requires := by
  unfold State.changeMode
  rw [if_neg h]
  by_cases feed : m.requires = s.mode.requires
  · simp only [State.modeShifted, feed, if_true, Bool.or_eq_true, beq_iff_eq]
    rfl
  · simp only [State.modeShifted, feed, Ne.symm feed, if_false, Bool.or_eq_true, beq_iff_eq]
    rfl

/-- Step 4: a new required feed is reported (R142). -/
theorem State.changeMode_of_news (h : m ≠ s.mode) (news : m.requires ≠ s.mode.requires) :
    s.changeMode m = (s.modeShifted m).reportFeed m.requires := (State.changeMode_eq h).trans (if_neg news)

theorem State.changeMode_of_same_feed (h : m ≠ s.mode) (same : m.requires = s.mode.requires) :
    s.changeMode m = s.modeShifted m := (State.changeMode_eq h).trans (if_pos same)

/-! ## Steps 1 and 2 -/

theorem State.modeReleased_onlyLight (s : State) (m : HouseMode) : (s.withMode m).OnlyLight (s.modeReleased m) :=
  (s.withMode m).releaseEach_onlyLight _

theorem State.modeReleased_of_none_leaving (h : s.leaving s.mode m = []) : s.modeReleased m = s.withMode m := by
  rw [State.modeReleased, h]
  rfl

theorem State.mem_leaving {old new : HouseMode} {b : Nat} {x : Binding} (found : Table.at? s.bindings b = some x)
    (armed : x.record.suspended = false) (inOld : x.record.modes.has old = true) (notNew : x.record.modes.has new = false) :
    b ∈ s.leaving old new := Table.mem_idsWhere.2 ⟨x, Table.mem_of_at? found, by simp [armed, inOld, notNew]⟩

/-! ## Step 3 -/

theorem State.modeShifted_of_calm (calm : ¬ s.CrossesPerformance m) :
    s.modeShifted m = s.modeReleased m := if_neg calm

theorem State.modeShifted_of_same_feed (crosses : s.CrossesPerformance m)
    (same : m.requires = s.mode.requires) : s.modeShifted m = (s.modeReleased m).redormAll :=
  (if_pos crosses).trans (if_pos same)

theorem State.modeShifted_of_news (crosses : s.CrossesPerformance m)
    (news : m.requires ≠ s.mode.requires) : s.modeShifted m = (s.modeReleased m).redormBeforeReport :=
  (if_pos crosses).trans (if_neg news)

theorem State.modeShifted_mapsCircuits (crosses : s.CrossesPerformance m) :
    (s.modeReleased m).MapsCircuits (s.modeShifted m) (s.modeReleased m).RedormedTo := by
  by_cases feed : m.requires = s.mode.requires
  · rw [State.modeShifted_of_same_feed crosses feed]
    exact State.redormAll_mapsCircuits _
  · rw [State.modeShifted_of_news crosses feed]
    exact State.redormBeforeReport_mapsCircuits _

theorem State.modeShifted_frame (s : State) (m : HouseMode) : s.modeShifted m = { s.modeReleased m with
    circuits := (s.modeShifted m).circuits, stepTimer := (s.modeShifted m).stepTimer,
    freeUses := (s.modeShifted m).freeUses } := by
  by_cases crosses : s.CrossesPerformance m
  · by_cases feed : m.requires = s.mode.requires
    · rw [State.modeShifted_of_same_feed crosses feed]
      rfl
    · rw [State.modeShifted_of_news crosses feed]
      conv_lhs => rw [State.redormBeforeReport_frame]
      rw [State.redormBeforeReport_frame]
  · rw [State.modeShifted_of_calm crosses]

/-- The step timer runs again where an expiry of it falls into step 3, and a free value has been used (R142, log entry 31). -/
theorem State.redormBeforeReport_timer (s : State) : s.redormBeforeReport.freeUses = s.freeUses + 1 ∧
    (Config.stepInModeChange s.freeUses = none → s.redormBeforeReport.stepTimer = s.stepTimer) ∧
    (Config.stepInModeChange s.freeUses ≠ none → s.redormBeforeReport.stepTimer = some 20) := by
  unfold State.redormBeforeReport
  cases Config.stepInModeChange s.freeUses with
  | none => exact ⟨rfl, fun _ => rfl, fun some => absurd rfl some⟩
  | some c => exact ⟨rfl, nofun, fun _ => rfl⟩

theorem State.modeShifted_timer_of_news (crosses : s.CrossesPerformance m)
    (news : m.requires ≠ s.mode.requires) : (s.modeShifted m).freeUses = s.freeUses + 1 ∧
    (Config.stepInModeChange s.freeUses = none → (s.modeShifted m).stepTimer = s.stepTimer) ∧
    (Config.stepInModeChange s.freeUses ≠ none → (s.modeShifted m).stepTimer = some 20) := by
  have uses : (s.modeReleased m).freeUses = s.freeUses := by rw [(s.modeReleased_onlyLight m).1]; rfl
  have timer : (s.modeReleased m).stepTimer = s.stepTimer := by rw [(s.modeReleased_onlyLight m).1]; rfl
  have step := (s.modeReleased m).redormBeforeReport_timer
  rw [uses, timer] at step
  rwa [State.modeShifted_of_news crosses news]

theorem State.modeShifted_timer_of_quiet
    (quiet : ¬ (s.CrossesPerformance m ∧ m.requires ≠ s.mode.requires)) :
    (s.modeShifted m).stepTimer = s.stepTimer ∧ (s.modeShifted m).freeUses = s.freeUses := by
  have released : (s.modeReleased m).stepTimer = s.stepTimer ∧ (s.modeReleased m).freeUses = s.freeUses := by
    rw [(s.modeReleased_onlyLight m).1]
    exact ⟨rfl, rfl⟩
  by_cases crosses : s.CrossesPerformance m
  · have feed : m.requires = s.mode.requires := not_not.1 fun news => quiet ⟨crosses, news⟩
    rw [State.modeShifted_of_same_feed crosses feed]
    exact released
  · rwa [State.modeShifted_of_calm crosses]

/-- A circuit before the report of step 4: where no binding leaves and the circuit is not of the AUDIENCE, nothing but a step
of the step timer has reached it, and that on crossing PERFORMANCE alone (R141, R142). -/
theorem State.modeShifted_at? {c : Nat} {x : Circuit} (hx : Table.at? s.circuits c = some x) :
    ∃ w, Table.at? (s.modeShifted m).circuits c = some w ∧ x.KeptFree w ∧
      (s.leaving s.mode m = [] → x.config.audience = false →
        w = x ∨ s.CrossesPerformance m ∧ w = x.stepped) := by
  obtain ⟨r, hr, kept⟩ := State.KeepsFree.releaseEach (s.withMode m) (s.leaving s.mode m) c x hx
  have untouched (staying : s.leaving s.mode m = []) : r = x := by
    rw [staying] at hr
    exact Option.some.inj (hr.symm.trans hx)
  by_cases crosses : s.CrossesPerformance m
  · obtain ⟨w, hw, shifted⟩ := (State.modeShifted_mapsCircuits crosses).at? hr
    refine ⟨w, hw, kept.trans shifted.keptFree, fun staying plain => ?_⟩
    obtain rfl := untouched staying
    exact (shifted.of_plain plain).imp_right fun step => ⟨crosses, step⟩
  · rw [State.modeShifted_of_calm crosses]
    exact ⟨r, hr, kept, fun staying _ => .inl (untouched staying)⟩

theorem State.modeShifted_feedOnline (s : State) (m : HouseMode) (c : CircuitConfig) (f : Feed) :
    (s.modeShifted m).feedOnline c f = s.feedOnline c f := by
  rw [s.modeShifted_frame m, (s.modeReleased_onlyLight m).1]
  rfl

theorem State.modeShifted_latchCopy (s : State) (m : HouseMode) : (s.modeShifted m).latchCopy = s.latchCopy := by
  rw [s.modeShifted_frame m, (s.modeReleased_onlyLight m).1]
  rfl

/-! ## The change as a whole -/

/-- A circuit of the same configuration and with the same origins in its list, whose claims have the dormancy of a mode if it
is of the AUDIENCE and they are judged anew (R12). -/
structure Circuit.Reevaluated (mode : HouseMode) (anew : Prop) (x y : Circuit) : Prop where
  config : y.config = x.config
  origins : y.claims.map (·.origin) = x.claims.map (·.origin)
  dormant : anew → x.config.audience = true → ∀ k ∈ y.claims, k.dormant = dormantIn mode x.config k.tier

section
variable (h : m ≠ s.mode)
include h

/-- After the releases nothing changes but circuits, the required feed, the step timer and the count of free choices. -/
theorem State.changeMode_frame : s.changeMode m = { s.modeReleased m with
    circuits := (s.changeMode m).circuits, stepTimer := (s.modeShifted m).stepTimer,
    freeUses := (s.modeShifted m).freeUses, requiredFeed := (s.changeMode m).requiredFeed } := by
  by_cases feed : m.requires = s.mode.requires
  · rw [State.changeMode_of_same_feed h feed]
    conv_lhs => rw [s.modeShifted_frame m]
    rw [s.modeShifted_frame m]
  · rw [State.changeMode_of_news h feed]
    conv_lhs => rw [s.modeShifted_frame m]
    rw [s.modeShifted_frame m]
    rfl

theorem State.changeMode_requiredFeed (before : s.requiredFeed = s.mode.requires) :
    (s.changeMode m).requiredFeed = m.requires := by
  by_cases feed : m.requires = s.mode.requires
  · rw [State.changeMode_of_same_feed h feed, s.modeShifted_frame m, (s.modeReleased_onlyLight m).1]
    exact before.trans feed.symm
  · rw [State.changeMode_of_news h feed]
    rfl

/-- A mode change touches light, the mode and its feed, the step timer and the count of free choices alone (R139). -/
theorem State.changeMode_onlyLight : s.OnlyLight { s.changeMode m with
    mode := s.mode, requiredFeed := s.requiredFeed, stepTimer := s.stepTimer, freeUses := s.freeUses } := by
  obtain ⟨eq, lineA, lineB⟩ := s.modeReleased_onlyLight m
  have frame := State.changeMode_frame h
  have a : (s.changeMode m).lineA = (s.modeReleased m).lineA := by rw [frame]
  have b : (s.changeMode m).lineB = (s.modeReleased m).lineB := by rw [frame]
  refine ⟨?_, (congrArg _ a).trans lineA, (congrArg _ b).trans lineB⟩
  rw [frame, eq]
  rfl

theorem State.changeMode_record (b : Nat) :
    (Table.at? (s.changeMode m).bindings b).map (·.record) = (Table.at? s.bindings b).map (·.record) := by
  rw [State.changeMode_frame h]
  exact (s.withMode m).releaseEach_record _ b

/-- What follows the releases makes every circuit re-evaluated, in the new mode (R12, R141). -/
theorem State.changeMode_mapsCircuits :
    (s.modeReleased m).MapsCircuits (s.changeMode m) (Circuit.Reevaluated m (s.CrossesPerformance m)) := by
  have mode : (s.modeReleased m).mode = m := by rw [(s.modeReleased_onlyLight m).1]; rfl
  have shifted : (s.modeReleased m).MapsCircuits (s.modeShifted m) (Circuit.Reevaluated m (s.CrossesPerformance m)) := by
    by_cases crosses : s.CrossesPerformance m
    · exact (State.modeShifted_mapsCircuits crosses).mono fun x y redormed =>
        ⟨redormed.keptFree.1, redormed.origins, fun _ audience => mode ▸ redormed.dormant audience⟩
    · rw [State.modeShifted_of_calm crosses]
      exact .refl _ fun x => ⟨rfl, rfl, fun crosses' => absurd crosses' crosses⟩
  by_cases feed : m.requires = s.mode.requires
  · rwa [State.changeMode_of_same_feed h feed]
  · rw [State.changeMode_of_news h feed]
    refine (shifted.trans (State.reportFeed_mapsCircuits ..)).mono ?_
    rintro x _ ⟨y, ⟨config, origins, dormant⟩, rfl⟩
    constructor <;> simpa only [State.reportedTo_config, State.reportedTo_claims]

/-- In the new mode the claims of AUDIENCE circuits are dormant by its rule where the change crosses PERFORMANCE (R12). -/
theorem State.changeMode_dormant (crosses : s.CrossesPerformance m) {e : Nat × Circuit}
    (he : e ∈ (s.changeMode m).circuits) (audience : e.2.config.audience = true) :
    ∀ k ∈ e.2.claims, (k.dormant = true ↔ k.tier ≤ 1 ∧ m = .performance) := by
  obtain ⟨x, config, _, dormant⟩ := (State.changeMode_mapsCircuits h).mem he
  rw [config] at audience
  intro k hk
  rw [dormant crosses audience k hk]
  simp [dormantIn, audience]

end

/-- Circuits changed with the origins they hold kept, and nothing else that light is: no light is gained. -/
theorem State.LightLost.of_mapsCircuits {r u : State} (moves : Moves r u)
    (origins : r.MapsCircuits u fun x y => y.claims.map (·.origin) = x.claims.map (·.origin))
    (frame : ∃ x n k f, u = { r with circuits := x, stepTimer := n, freeUses := k, requiredFeed := f }) : r.LightLost u := by
  have holds (o : Origin) : u.holds o = r.holds o := congrArg List.length (origins.holders o)
  have held := origins.heldOn
  obtain ⟨x, n, k, f, rfl⟩ := frame
  exact {
    moves := moves
    held := held
    scenes := fun n y hy => ⟨y, hy, .inl rfl, fun held none => absurd ((holds _).symm.trans none) (Nat.ne_of_gt held)⟩
    repeats := fun _ mem => mem
    keys := fun key q hq => ⟨q, by obtain ⟨l, _, _⟩ := key; cases l <;> exact hq, fun _ mem => mem⟩
    captures := fun _ clear => clear }

/-- Each binding that leaves with the mode is released, and what follows the releases gains no light (R53, R140). -/
theorem State.changeMode_released (h : m ≠ s.mode) (sound : s.ListsSound) (order : s.TablesInOrder) {b : Nat} {x : Binding}
    (found : Table.at? s.bindings b = some x) (mem : b ∈ s.leaving s.mode m) : s.Released (s.changeMode m) b x := by
  have later : Moves (s.modeReleased m) (s.changeMode m) := by
    rw [State.changeMode_eq h]
    have shifted : Moves (s.modeReleased m) (s.modeShifted m) :=
      .ite (fun _ => .ite (fun _ => (Moves.refl _).redormAll) fun _ => (Moves.refl _).redormBeforeReport) fun _ => .refl _
    exact .ite (fun _ => shifted) fun _ => shifted.reportFeed _
  have lost : (s.modeReleased m).LightLost (s.changeMode m) :=
    .of_mapsCircuits later ((State.changeMode_mapsCircuits h).mono fun _ _ each => each.origins)
      ⟨_, _, _, _, State.changeMode_frame h⟩
  exact State.releaseEach_released (s := s.withMode m) order sound mem found lost

end

end Sys2Proof.Machine
end

section
/-! SetMode and ReadMode (O45). -/

namespace Sys2Proof.Machine

/-! ## The answers -/

theorem modeOfNat_above {n : Nat} (h : 5 < n) : modeOfNat n = none := by
  obtain ⟨k, rfl⟩ := Nat.exists_eq_add_of_lt h
  rw [show 5 + k + 1 = k + 6 by omega]
  rfl

theorem setMode_of_unknown {code : Byte} (h : 5 < code.toNat) (s : State) :
    setMode [code] s = .refuse .badRequest s := by rw [setMode, modeOfNat_above h]

theorem setMode_present (s : State) : setMode [s.mode.code] s = .done s := by
  rw [setMode, modeOfNat_code]
  exact congrArg Work.done s.changeMode_present

/-! ## The required feed on a circuit -/

section
variable {s : State} {m : HouseMode} (h : m ≠ s.mode) (news : m.requires ≠ s.mode.requires) {c : Nat} {x : Circuit}
include h news

/-- A new required feed is reported to a circuit as steps 1 to 3 left it (R142). -/
theorem State.changeMode_at?_of_news {w : Circuit} (hw : Table.at? (s.modeShifted m).circuits c = some w) :
    Table.at? (s.changeMode m).circuits c = some ((s.modeShifted m).reportedTo m.requires w) := by
  obtain ⟨y, hy, rfl⟩ := ((s.modeShifted m).reportFeed_mapsCircuits m.requires).at? hw
  rwa [State.changeMode_of_news h news]

/-- What a new required feed makes of a TRANSFER circuit on which a transfer may begin (R31, R32, R38, R142). -/
theorem State.changeMode_mayTransfer (hx : Table.at? s.circuits c = some x) (kind : x.config.kind = .transfer)
    (may : x.transition.phase.mayTransfer = true) : ∃ y, Table.at? (s.changeMode m).circuits c = some y ∧
      y.config = x.config ∧ y.transition.feed = x.transition.feed ∧ y.transition.relay = x.transition.relay ∧
      let z := y.transition
      (x.transition.feed = m.requires → z.pendingTransfer = none ∧ z.phase.mayTransfer = true) ∧
      (x.transition.feed ≠ m.requires → s.latchCopy = false → s.feedOnline x.config m.requires = true →
        z.phase = .downslope ∧ z.pendingTransfer = none ∧ z.origin = z.level ∧ z.fadeEnd = 0 ∧ z.stepCount = 0 ∧
        z.stepTotal = max 1 (5 * x.config.downslope) ∧
        (s.leaving s.mode m = [] → x.config.audience = false → z.origin = x.transition.level ∨
          s.CrossesPerformance m ∧ z.origin = (x.transition.step x.config).level)) ∧
      (x.transition.feed ≠ m.requires → s.latchCopy = true ∨ s.feedOnline x.config m.requires = false →
        z.pendingTransfer = some m.requires ∧ z.phase.mayTransfer = true) := by
  obtain ⟨w, hw, ⟨config, kept⟩, untouched⟩ := State.modeShifted_at? (m := m) hx
  obtain ⟨mayW, feed, relay⟩ := kept may
  have there := State.changeMode_at?_of_news h news hw
  rw [← config] at kind
  rw [← s.modeShifted_latchCopy m, ← s.modeShifted_feedOnline m, ← config, ← feed, ← relay]
  by_cases on : w.transition.feed = m.requires
  · rw [State.reportedTo_satisfied kind mayW on] at there
    exact ⟨_, there, rfl, rfl, rfl, fun _ => ⟨rfl, mayW⟩, fun off => absurd on off, fun off => absurd on off⟩
  by_cases ready : (s.modeShifted m).latchCopy = false ∧ (s.modeShifted m).feedOnline w.config m.requires = true
  · rw [State.reportedTo_begins kind mayW on ready.1 ready.2] at there
    refine ⟨_, there, rfl, rfl, rfl, fun on' => absurd on' on,
      fun _ _ _ => ⟨rfl, rfl, rfl, rfl, rfl, rfl, fun staying plain => ?_⟩, fun _ fails => by simp [ready.1, ready.2] at fails⟩
    refine (untouched staying (config ▸ plain)).imp (fun same => ?_) fun ⟨crosses, step⟩ => ⟨crosses, ?_⟩
    · rw [same]
      rfl
    · rw [step]
      rfl
  · have fails : (s.modeShifted m).latchCopy = true ∨ (s.modeShifted m).feedOnline w.config m.requires = false := by
      simpa [or_iff_not_imp_left] using ready
    rw [State.reportedTo_waits kind mayW on fails] at there
    exact ⟨_, there, rfl, rfl, rfl, fun on' => absurd on' on, fun _ clear online => absurd ⟨clear, online⟩ ready,
      fun _ _ => ⟨rfl, mayW⟩⟩

end

section
variable {s : State} {m : HouseMode} (staying : s.leaving s.mode m = []) (calm : ¬ s.CrossesPerformance m)
include staying calm

/-- With no binding that leaves and PERFORMANCE not crossed, steps 1 to 3 take the mode alone. -/
theorem State.modeShifted_of_untouched : s.modeShifted m = s.withMode m :=
  (State.modeShifted_of_calm calm).trans (State.modeReleased_of_none_leaving staying)

theorem State.changeMode_of_untouched (h : m ≠ s.mode) (before : s.requiredFeed = s.mode.requires) :
    s.changeMode m = { s with mode := m, requiredFeed := m.requires, circuits := (s.changeMode m).circuits } ∧
      (¬ m.requires ≠ s.mode.requires → (s.changeMode m).circuits = s.circuits) := by
  have shifted := State.modeShifted_of_untouched staying calm
  by_cases feed : m.requires = s.mode.requires
  · rw [State.changeMode_of_same_feed h feed, shifted, feed, ← before]
    exact ⟨rfl, fun _ => rfl⟩
  · rw [State.changeMode_of_news h feed, shifted]
    exact ⟨rfl, fun same => absurd feed same⟩

/-- What a new required feed makes of a circuit that nothing else reached, by its kind and phase (R38, R142). -/
theorem State.changeMode_reported (h : m ≠ s.mode) (news : m.requires ≠ s.mode.requires) {c : Nat} {x : Circuit}
    (hx : Table.at? s.circuits c = some x) :
    ∃ y, Table.at? (s.changeMode m).circuits c = some { x with transition := y } ∧
      (x.config.kind ≠ .transfer ∨ x.transition.phase = .block → y = x.transition) ∧
      (x.config.kind = .transfer → x.transition.phase.mayTransfer = true →
        (x.transition.feed = m.requires → y = { x.transition with pendingTransfer := none }) ∧
        (x.transition.feed ≠ m.requires → s.latchCopy = true ∨ s.feedOnline x.config m.requires = false →
          y = { x.transition with pendingTransfer := some m.requires }) ∧
        (x.transition.feed ≠ m.requires → s.latchCopy = false → s.feedOnline x.config m.requires = true →
          y = { x.transition with
            phase := .downslope, origin := x.transition.level, fadeEnd := 0, stepCount := 0,
            stepTotal := max 1 (5 * x.config.downslope), pendingTransfer := none,
            output := outputLevel x.config x.transition })) ∧
      (x.config.kind = .transfer → x.transition.phase = .downslope →
        (x.transition.feed ≠ m.requires → y = x.transition) ∧
        (x.transition.feed = m.requires → y = { x.transition with
          phase := .fading, origin := x.transition.level, fadeEnd := x.transition.target, stepCount := 0,
          stepTotal := max 1 (5 * x.config.upslope), output := outputLevel x.config x.transition })) := by
  have shifted := State.modeShifted_of_untouched staying calm
  have there := State.changeMode_at?_of_news h news (w := x) (by rw [shifted]; exact hx)
  rw [shifted, State.reportedTo_eq] at there
  exact ⟨_, there, fun unmoved => by rw [State.reportedTo_unmoved unmoved],
    fun kind may => ⟨fun on => by rw [State.reportedTo_satisfied kind may on],
      fun off fails => by rw [State.reportedTo_waits (s := s.withMode m) kind may off fails],
      fun off clear online => by rw [State.reportedTo_begins (s := s.withMode m) kind may off clear online]; rfl⟩,
    fun kind hp => ⟨fun off => by rw [State.reportedTo_downslope_off kind hp off],
      fun on => by rw [State.reportedTo_returns kind hp on]; rfl⟩⟩

end

/-- Settles O45: the mode change as its steps: `changeMode_released` for the bindings that leave, `changeMode_dormant` for
PERFORMANCE, and `reportedTo` by the phase of each circuit for the required feed. -/
theorem setModeAndReadMode : Obligations.SetModeAndReadMode := by
  unfold Obligations.SetModeAndReadMode
  intro s tag take
  refine ⟨fun code unknown => congrArg Host.Outcome.next (take.refused (by simp) (setMode_of_unknown unknown _)),
    congrArg Host.Outcome.next (take.done (by simp) (setMode_present (s.taken ..))),
    congrArg Host.Outcome.next (take.answered (t := s) (by simp) (Work.read_of_short (by simp) _)), fun m h before => ?_⟩
  intro crosses news
  refine ⟨s.changeMode m, exec_setMode_of_code take tag h, (State.changeMode_keepsReports h).mode,
    State.changeMode_requiredFeed h before, State.changeMode_onlyLight h, fun quiet => ?_, fun crossing changed => ?_,
    State.changeMode_record h, fun sound order b x found armed inOld notNew =>
      State.changeMode_released h sound order found (State.mem_leaving found armed inOld notNew),
    fun crossing e he => State.changeMode_dormant h crossing he,
    fun changed c x hx kind may => State.changeMode_mayTransfer h changed hx kind may, fun staying calm => ?_⟩
  · rw [State.changeMode_frame h]
    exact State.modeShifted_timer_of_quiet quiet
  · rw [State.changeMode_frame h]
    exact State.modeShifted_timer_of_news crossing changed
  · obtain ⟨frame, unmoved⟩ := State.changeMode_of_untouched staying calm h before
    exact ⟨frame, unmoved, fun changed c x hx => State.changeMode_reported staying calm h changed hx⟩

end Sys2Proof.Machine
end

section
/-! SUPPORT. The bodies and checks of ConfigureRack, ReadRack and SetTimings, and what each leaves (R149, R157, R166). -/

namespace Sys2Proof.Machine

theorem flagOfByte_of_above {b : Byte} (h : 1 < b.toNat) : flagOfByte b = none := by
  unfold flagOfByte
  split
  · omega
  · omega
  · rfl

theorem rackId_within {id : Byte} (h1 : id ≠ 0) (h8 : id.toNat ≤ 8) : within 1 8 id.toNat = true :=
  within_iff.2 ⟨Nat.not_lt.1 (byte_eq_zero_iff.not.1 h1), h8⟩

theorem rackId_outside {id : Byte} (out : id = 0 ∨ 8 < id.toNat) : within 1 8 id.toNat = false :=
  within_eq_false.2 (out.imp_left byte_eq_zero_iff.1)

theorem State.rackConfigured_iff {s : State} {rack : Nat} {r : Rack} (found : Table.at? s.racks rack = some r) :
    s.rackConfigured rack = true ↔ r.state ≠ .absent := by
  rw [State.rackConfigured, found, Option.any_some, Rack.configured, bne_iff_ne]

/-! ## ConfigureRack -/

section
variable {id setting : Byte}

theorem decodeRack_malformed (h : 1 < setting.toNat) : decodeRack [id, setting] = .malformed := by
  rw [decodeRack, flagOfByte_of_above h]

theorem decodeRack_outOfRange (h : setting.toNat ≤ 1) (out : id = 0 ∨ 8 < id.toNat) :
    decodeRack [id, setting] = .outOfRange := by
  obtain ⟨flag, decoded⟩ := flagOfByte_of_le h
  simp only [decodeRack, decoded, rackId_outside out, Bool.false_eq_true, if_false]

theorem decodeRack_ok {flag : Bool} (decoded : flagOfByte setting = some flag) (h1 : id ≠ 0) (h8 : id.toNat ≤ 8) :
    decodeRack [id, setting] = .ok (id.toNat, flag) := by
  simp only [decodeRack, decoded, rackId_within h1 h8, if_true]

end

section
variable {s : State} (free : s.saving = none)
include free

theorem configureRack_badRequest {body : List Byte} (bad : decodeRack body = .malformed) :
    configureRack body s = .refuse .badRequest s := by rw [configureRack, bad, State.parsed_malformed free]

theorem configureRack_outOfRange {body : List Byte} (out : decodeRack body = .outOfRange) :
    configureRack body s = .refuse .outOfRange s := by rw [configureRack, out, State.parsed_outOfRange free]

variable {id : Byte} (h1 : id ≠ 0) (h8 : id.toNat ≤ 8)
include h1 h8

theorem configureRack_yes : configureRack [id, 1] s =
    .done (if s.rackConfigured id.toNat = true then s else s.configureRack id.toNat) := by
  rw [configureRack, decodeRack_ok (flag := true) rfl h1 h8, State.parsed_ok free]
  rfl

theorem configureRack_no : configureRack [id, 0] s =
    if s.rackConfigured id.toNat = true then .done (s.unconfigureRack id.toNat) else .refuse .noSuch s := by
  rw [configureRack, decodeRack_ok (flag := false) rfl h1 h8, State.parsed_ok free]
  cases configured : s.rackConfigured id.toNat <;> simp [configured, State.inOrder_cons, State.inOrder_nil]

end

/-- A rack that is unconfigured leaves a blank record and a void slot, and its cleared faults are noticed (R149). -/
theorem State.unconfigureRack_of_found {s : State} {rack : Nat} {r : Rack} (found : Table.at? s.racks rack = some r) :
    s.unconfigureRack rack = { s with
      racks := Table.adjust s.racks rack fun _ => .blank,
      notices := { s.notices with racks := true, faults := s.notices.faults || decide (r.faults ≠ 0) },
      rackSlot := s.rackSlot.map fun x => { x with voided := x.voided || decide (x.rack = rack) } } := by
  have void : (fun x : RackSlot => if x.rack = rack then { x with voided := true } else x) =
      fun x => { x with voided := x.voided || decide (x.rack = rack) } := by
    funext x
    by_cases here : x.rack = rack <;> simp [here]
  have faulted : (r.faults != 0) = decide (r.faults ≠ 0) := Bool.eq_iff_iff.2 (by simp)
  rw [State.unconfigureRack, found, void, Option.any_some, faulted]
  cases decide (r.faults ≠ 0)
  · rw [Bool.or_false]
    rfl
  · rw [Bool.or_true]
    rfl

/-! ## ReadRack -/

@[simp] theorem bytes32_length (v : BitVec 32) : (bytes32 v).length = 4 := rfl

@[simp] theorem State.assignmentBytes_length (s : State) (rack : Nat) : (s.assignmentBytes rack).length = 96 := by
  refine length_flatMap_of_const (n := 3) (fun c => ?_) (identifiers 32)
  split <;> rfl

theorem lastFrameBytes_length {last : Option LevelFrame} (levels : ∀ f, last = some f → f.levels.length = 32) :
    (lastFrameBytes last).length = 68 := by
  cases last with
  | none => simp [lastFrameBytes]
  | some f => rw [lastFrameBytes, List.length_append, length_flatMap_of_const bytes16_length, levels f rfl, bytes32_length]

section
variable (s : State) (id : Nat) {r : Rack}

theorem State.rackBody_of_absent (absent : r.state = .absent) :
    s.rackBody id r = [0, r.state.code] ++ s.assignmentBytes id := by
  simp [State.rackBody, Rack.configured, absent, flagByte]

theorem State.rackBody_of_configured (present : r.state ≠ .absent) : s.rackBody id r =
    [1, r.state.code, byteOf r.missCount, orAbsent (r.status.map RackStatus.code)] ++ bytes32 r.faults ++
      s.assignmentBytes id ++ lastFrameBytes r.last := by
  have configured : r.configured = true := bne_iff_ne.2 present
  rw [State.rackBody, if_pos configured]
  rfl

/-- The answer on a rack fits its body (R163): at most 172 bytes, with the last frame. -/
theorem State.rackBody_length (levels : r.state ≠ .absent → ∀ f, r.last = some f → f.levels.length = 32) :
    (s.rackBody id r).length ≤ 250 := by
  by_cases absent : r.state = .absent
  · simp [s.rackBody_of_absent id absent]
  · simp [s.rackBody_of_configured id absent, lastFrameBytes_length (levels absent)]

end

section
variable {id : Byte} {s : State}

theorem readRack_outOfRange (out : id = 0 ∨ 8 < id.toNat) : readRack [id] s = .refuse .outOfRange s := by
  simp [readRack, rackId_outside out]

theorem readRack_of_found {r : Rack} (h1 : id ≠ 0) (h8 : id.toNat ≤ 8) (found : Table.at? s.racks id.toNat = some r)
    (levels : r.state ≠ .absent → ∀ f, r.last = some f → f.levels.length = 32) :
    readRack [id] s = .answered { result := .ok, body := s.rackBody id.toNat r } s := by
  rw [← Work.read_of_short (s.rackBody_length id.toNat levels)]
  simp [readRack, rackId_within h1 h8, found]

theorem exec_readRack {r : Rack} (take : s.TakesRequests) (tag : Byte) (h1 : id ≠ 0) (h8 : id.toNat ≤ 8)
    (found : Table.at? s.racks id.toNat = some r)
    (levels : r.state ≠ .absent → ∀ f, r.last = some f → f.levels.length = 32) :
    exec (.readRack tag [id]) s = .next (s.answered 1 tag .ok false (s.rackBody id.toNat r)) :=
  congrArg Host.Outcome.next (State.TakesRequests.answered (body := [id]) (r := { result := .ok, body := _ }) take (by simp)
    (readRack_of_found (s := s.taken 0x54 tag [id]) h1 h8 found levels))

end

/-! ## SetTimings -/

/-- Settings that are accepted lie in the ranges of R166. -/
theorem decodeSettings_inRange {body : List Byte} {settings : Settings} {p q : LineEnd}
    (decoded : decodeSettings body = .ok (settings, p, q)) :
    300 ≤ settings.hold ∧ settings.hold ≤ 3000 ∧ 150 ≤ settings.doubleWindow ∧ settings.doubleWindow ≤ 1000 ∧
      10 ≤ settings.stuck ∧ settings.stuck ≤ 600 ∧ settings.startFade ≤ 6000 := by
  unfold decodeSettings at decoded
  split at decoded
  · split at decoded
    · split at decoded
      · rename_i ranges
        cases decoded
        simp only [Bool.and_eq_true, within_iff] at ranges
        obtain ⟨⟨⟨hold, double⟩, stuck⟩, fade⟩ := ranges
        exact ⟨hold.1, hold.2, double.1, double.2, stuck.1, stuck.2, fade.2⟩
      · cases decoded
    · cases decoded
  · cases decoded

section
variable {s : State} {body : List Byte} (free : s.saving = none)
include free

theorem setTimings_badRequest (bad : decodeSettings body = .malformed) : setTimings body s = .refuse .badRequest s := by
  rw [setTimings, bad, State.parsed_malformed free]

theorem setTimings_outOfRange (out : decodeSettings body = .outOfRange) : setTimings body s = .refuse .outOfRange s := by
  rw [setTimings, out, State.parsed_outOfRange free]

theorem setTimings_of_ok {settings : Settings} {p q : LineEnd} (decoded : decodeSettings body = .ok (settings, p, q)) :
    setTimings body s = .done { s with
      settings := settings, lineA := { s.lineA with preferred := p }, lineB := { s.lineB with preferred := q } } := by
  rw [setTimings, decoded, State.parsed_ok free]

end

end Sys2Proof.Machine
end

section
/-! ConfigureRack, ReadRack and SetTimings (O47). -/

namespace Sys2Proof.Machine

/-- Settles O47: each answer by its own equation of the request; a rack unconfigured by `unconfigureRack_of_found`, and the
body of ReadRack, which fits by `rackBody_length`, by the state of the rack. -/
theorem rackRequestsAndSettings : Obligations.RackRequestsAndSettings := by
  unfold Obligations.RackRequestsAndSettings
  intro s tag take
  refine ⟨fun id setting => ?_, fun id => ⟨fun out => ?_, fun r h1 h8 found absent => ?_,
    fun r h1 h8 found present levels => ?_⟩, fun body short => ?_⟩
  · intro c refused
    have refuse {r : Result} (hw : configureRack [id, setting] (s.taken 0x53 tag [id, setting]) =
        .refuse r (s.taken 0x53 tag [id, setting])) : refused r :=
      congrArg Host.Outcome.next (State.TakesRequests.refused (body := [id, setting]) take (by simp) hw)
    have done {t : State} (hw : configureRack [id, setting] (s.taken 0x53 tag [id, setting]) =
        .done (t.taken 0x53 tag [id, setting])) : exec c s = .next (t.answered 2 tag .ok false []) :=
      congrArg Host.Outcome.next (State.TakesRequests.done (body := [id, setting]) take (by simp) hw)
    refine ⟨fun saving => refuse (State.parsed_of_saving (s := s.taken ..) saving ..),
      fun free high => refuse (configureRack_badRequest (s := s.taken ..) free (decodeRack_malformed high)),
      fun free low out => refuse (configureRack_outOfRange (s := s.taken ..) free (decodeRack_outOfRange low out)),
      fun r free h1 h8 found => ?_⟩
    have configured : (s.taken 0x53 tag [id, setting]).rackConfigured id.toNat = true ↔ r.state ≠ .absent :=
      State.rackConfigured_iff found
    refine ⟨?_, ?_, ?_, ?_⟩
    · rintro rfl present
      refine done ((configureRack_yes (s := s.taken ..) free h1 h8).trans ?_)
      rw [if_pos (configured.2 present)]
    · rintro rfl absent
      refine done ((configureRack_yes (s := s.taken ..) free h1 h8).trans ?_)
      rw [if_neg fun yes => configured.1 yes absent]
      rfl
    · rintro rfl absent
      refine refuse ((configureRack_no (s := s.taken ..) free h1 h8).trans ?_)
      rw [if_neg fun yes => configured.1 yes absent]
    · rintro rfl present
      refine done ((configureRack_no (s := s.taken ..) free h1 h8).trans ?_)
      rw [if_pos (configured.2 present), State.unconfigureRack_of_found (s := s.taken ..) found]
      rfl
  · exact congrArg Host.Outcome.next
      (State.TakesRequests.refused (body := [id]) take (by simp) (readRack_outOfRange out))
  · rw [exec_readRack take tag h1 h8 found fun present => absurd absent present, State.rackBody_of_absent _ _ absent]
  · rw [exec_readRack take tag h1 h8 found fun _ => levels, State.rackBody_of_configured _ _ present]
  · intro refused
    have refuse {r : Result} (hw : setTimings body (s.taken 0x60 tag body) = .refuse r (s.taken 0x60 tag body)) : refused r :=
      congrArg Host.Outcome.next (take.refused short hw)
    exact ⟨fun saving => refuse (State.parsed_of_saving (s := s.taken ..) saving ..), fun free =>
      ⟨fun bad => refuse (setTimings_badRequest (s := s.taken ..) free bad),
        fun out => refuse (setTimings_outOfRange (s := s.taken ..) free out),
        fun settings p q decoded => ⟨decodeSettings_inRange decoded,
          congrArg Host.Outcome.next (take.done short (setTimings_of_ok (s := s.taken ..) free decoded))⟩⟩⟩

end Sys2Proof.Machine
end

section
/-! SUPPORT. A step and the queue: no move touches the queue, and with none waiting a millisecond passes. -/

namespace Sys2Proof.Machine

theorem Move.pending {s t : State} (m : Move s t) : t.pending = s.pending := by
  cases m with
  | plain same => exact congrArg (fun x => x.2.2.2.2.2.2.2.2.2.2) same
  | unit l f => exact State.onUnit_pending ..
  | _ => rfl

theorem Moves.pending {s t : State} (h : Moves s t) : t.pending = s.pending :=
  h.keeps (P := fun u => u.pending = s.pending) (fun m kept => m.pending.trans kept) rfl

theorem step_of_cons {s : State} {c : Instr} {rest : List Instr} (waiting : s.pending = c :: rest) :
    step s = exec c (s.withPending rest) := by rw [step, waiting]

section
variable {s : State} (empty : s.pending = [])
include empty

theorem step_of_empty : step s = .next s.tick := by rw [step, empty]

theorem step_of_empty_of_reset (reset : s.power ≠ .running) : step s = .next s := by
  rw [step_of_empty empty, State.tick, if_neg reset]

end

end Sys2Proof.Machine
end

section
/-! The queue and the step (O1, O2). -/

namespace Sys2Proof.Machine

/-- Settles O2: every command is a chain of moves, and no move touches the queue. -/
theorem everyCommandCompletesAndKeepsTheQueue : Obligations.EveryCommandCompletesAndKeepsTheQueue := by
  intro c s
  obtain ⟨t, next, moves⟩ := exec_moves c s
  exact ⟨t, next, moves.pending⟩

/-- Settles O1: the step by its equation for each queue, and the millisecond by its definition. -/
theorem stepTakesTheFrontOrAMillisecond : Obligations.StepTakesTheFrontOrAMillisecond := by
  intro s
  refine ⟨fun c rest => step_of_cons, step_of_empty_of_reset, fun empty running => ?_⟩
  rw [step_of_empty empty, State.tick, if_pos running]
  rfl

end Sys2Proof.Machine
end

section
/-! SUPPORT. Commands as transfers and as events: what a transfer does that is not taken, by whether the part runs and its
slot is free, and which bodies the owners of the requests judge malformed (R160, R161, R173). -/

namespace Sys2Proof.Machine

/-- A request frame of the catalogue is the end of a request transfer with its tag and body (R160). -/
theorem exec_of_requestParts {c : Instr} {tag : Byte} {body : List Byte} (h : requestParts c = some (tag, body)) :
    ∃ code work, ∀ s, exec c s = .next (s.takeRequest code tag body work) := by
  cases c <;> cases h <;> exact ⟨_, _, fun _ => rfl⟩

/-- The bytes of a request transfer with a whole header (section 12.3). -/
theorem length_requestTransfer (code tag length : Byte) (body : List Byte) :
    (code :: tag :: length :: body).length = 3 + body.length := Nat.add_comm body.length 3

section
variable {s : State}

/-! ## In a reset -/

section
variable (reset : s.power ≠ .running)
include reset

theorem State.whileRunning_of_reset (f : State → State) : s.whileRunning f = s := if_neg reset

theorem State.fetched_of_reset (n : Nat) : s.fetched n = s := if_pos reset

theorem State.takeMalformed_of_reset (n : Nat) (tag : Byte) : s.takeMalformed n tag = s := if_pos reset

theorem State.transferEnd_of_reset (install : Bool) (bytes : List Byte) : s.transferEnd install bytes = s := by
  unfold State.transferEnd
  split
  · rfl
  · split
    · exact State.fetched_of_reset reset _
    · split
      · split
        · exact State.takeRequest_of_reset reset ..
        · exact State.takeMalformed_of_reset reset ..
      · exact State.takeMalformed_of_reset reset ..

/-- A reset ignores every transfer and every event but those of `actsInReset` (R173). -/
theorem exec_of_reset {c : Instr} (idle : actsInReset c = false) : exec c s = .next s := by
  cases parts : requestParts c with
  | some p =>
    obtain ⟨code, work, isRequest⟩ := exec_of_requestParts parts
    rw [isRequest, State.takeRequest_of_reset reset]
  | none =>
    cases c with
    | requestTransferMalformed install bytes => exact congrArg _ (State.transferEnd_of_reset reset install bytes)
    | fetch n => exact congrArg _ (State.fetched_of_reset reset n)
    | powerReset => cases idle
    | pinReset => cases idle
    | startUp => cases idle
    | panicInputChange => cases idle
    | _ => cases parts <;> exact congrArg _ (State.whileRunning_of_reset reset _)

end

/-! ## With the slot busy -/

section
variable (running : s.power = .running) (busy : s.hostSlot ≠ .idle)
include running busy

theorem State.takeMalformed_of_busy (n : Nat) (tag : Byte) :
    s.takeMalformed n tag = { s.shiftZeros n with collision := true } := by
  have same : (s.shiftZeros n).hostSlot = s.hostSlot := rfl
  simp only [State.takeMalformed, running, ne_eq, not_true_eq_false, if_false, same]

/-- Whatever it holds, a transfer that is no Fetch and finds the slot busy is discarded, and its collision is marked (R160). -/
theorem State.transferEnd_of_busy (install : Bool) {code : Byte} (request : code ≠ 0xA5) (rest : List Byte) :
    s.transferEnd install (code :: rest) = { s.shiftZeros (code :: rest).length with collision := true } := by
  simp only [State.transferEnd, if_neg request]
  split
  · split
    · rw [State.takeRequest_of_busy running busy, length_requestTransfer]
    · rw [State.takeMalformed_of_busy running busy]
  · rw [State.takeMalformed_of_busy running busy]

end

/-! ## Malformed transfers -/

theorem State.TakesRequests.takeMalformed (h : s.TakesRequests) (n : Nat) (tag : Byte) :
    s.takeMalformed n tag = (s.shiftZeros n).placeAnswer tag { result := .badRequest } := by
  obtain ⟨running, idle⟩ := h
  have same : (s.shiftZeros n).hostSlot = .idle := idle
  simp only [State.takeMalformed, running, ne_eq, not_true_eq_false, if_false, same]

/-- A request transfer with no whole header is malformed (R161). -/
theorem State.transferEnd_of_incomplete (install : Bool) {code : Byte} (request : code ≠ 0xA5) {rest : List Byte}
    (short : rest.length < 2) :
    s.transferEnd install (code :: rest) = s.takeMalformed (code :: rest).length (rest.headD 0) := by
  simp only [State.transferEnd, if_neg request]
  split
  · simp at short
  · rfl

/-- A code that is none of the catalogue, a length over 250 and one that is not that of the body are malformed (R161). -/
theorem State.transferEnd_of_malformed {install : Bool} {code tag length : Byte} {body : List Byte}
    (request : code ≠ 0xA5)
    (malformed : requestOf install code.toNat = none ∨ 250 < length.toNat ∨ body.length ≠ length.toNat) :
    s.transferEnd install (code :: tag :: length :: body) = s.takeMalformed (3 + body.length) tag := by
  simp only [State.transferEnd, if_neg request, length_requestTransfer, List.headD_cons]
  split
  · rename_i known same
    cases same
    have wrong : ¬ (length.toNat ≤ Config.bodyLimit ∧ body.length = length.toNat) := by
      rintro ⟨within, equal⟩
      rcases malformed with unknown | long | apart
      · simp [unknown] at known
      · exact absurd within (Nat.not_le.2 long)
      · exact apart equal
    rw [if_neg wrong]
  · rfl

end

/-! ## Bodies of a wrong length -/

/-- The owner of a request judges a body malformed, whatever the state. -/
def Malformed (work : List Byte → State → Work) (body : List Byte) : Prop := ∀ s, work body s = .refuse .badRequest s

section
variable {body : List Byte}

theorem malformed_of_some_byte (h : body.length ≠ 0) :
    Malformed identify body ∧ Malformed readAttention body ∧ Malformed readNotified body ∧ Malformed readMode body ∧
      Malformed clearEgress body ∧ Malformed restart body ∧ Malformed lockHouse body ∧ Malformed eraseHouse body := by
  cases body with
  | nil => exact absurd rfl h
  | cons => and_intros <;> exact fun _ => rfl

theorem malformed_of_not_one_byte (h : body.length ≠ 1) :
    Malformed readZone body ∧ Malformed readScene body ∧ Malformed deleteScene body ∧ Malformed releaseScene body ∧
      Malformed readGroupResult body ∧ Malformed survey body ∧ Malformed lineRestart body ∧ Malformed readLine body ∧
      Malformed setMode body ∧ Malformed readRack body := by
  match body, h with
  | [_], h => exact absurd rfl h
  | [], _ => and_intros <;> exact fun _ => rfl
  | _ :: _ :: _, _ => and_intros <;> exact fun _ => rfl

theorem malformed_of_not_two_bytes (h : body.length ≠ 2) :
    (Malformed unconfigureCircuit body ∧ Malformed readCircuit body ∧ Malformed releaseHostLevel body ∧
      Malformed readBinding body ∧ Malformed recallScene body ∧ Malformed removeStation body ∧ Malformed readStation body ∧
      Malformed sendGroupLamp body ∧ Malformed lineControl body ∧ Malformed selectEnd body) ∧
    Malformed retireBinding body ∧ Malformed suspendBinding body ∧ Malformed resumeBinding body := by
  match body, h with
  | [_, _], h => exact absurd rfl h
  | [], _ => and_intros <;> exact fun _ => rfl
  | [_], _ => and_intros <;> exact fun _ => rfl
  | _ :: _ :: _ :: _, _ => and_intros <;> exact fun _ => rfl

theorem setMaster_malformed (h : body.length ≠ 3) : Malformed setMaster body := fun s => by
  unfold setMaster
  split
  · simp at h
  · rfl

theorem setHostLevel_malformed (h : body.length ≠ 7) : Malformed setHostLevel body := fun s => by
  unfold setHostLevel
  split
  · simp at h
  · rfl

end

section
variable {s : State} {body : List Byte} {work : List Byte → State → Work} (malformed : Malformed work body)
  (take : s.TakesRequests) (short : body.length ≤ 250) (code tag : Byte)
include malformed take short

theorem Malformed.takeRequest :
    s.takeRequest code tag body (work body) = s.answered body.length tag .badRequest false [] :=
  take.refused short (malformed _)

/-- The INSTALL level is recorded even for a malformed body (log entry 5). -/
theorem Malformed.takeRequest_judged (install : Bool) :
    s.takeRequest code tag body (fun s => work body (s.seeInstall install)) =
      (s.seeInstall install).answered body.length tag .badRequest false [] :=
  take.answered short (t := s.seeInstall install) (r := { result := .badRequest }) (malformed _)

end

end Sys2Proof.Machine
end

section
/-! Requests that are not taken (O3). -/

namespace Sys2Proof.Machine

/-- Settles O3: transfers by the power and the slot they meet, and bodies by the lengths at which their owners refuse them. -/
theorem whenRequestsAreNotTaken : Obligations.WhenRequestsAreNotTaken := by
  unfold Obligations.WhenRequestsAreNotTaken
  intro s
  refine ⟨fun c reset => exec_of_reset reset,
    fun running busy => ⟨fun c tag body parts => ?_, fun install code rest request => ?_⟩,
    fun install tag body take short => ?_,
    fun install code take request => ⟨?_, fun tag => ?_, fun tag length body bad => ?_⟩⟩
  · obtain ⟨code, work, isRequest⟩ := exec_of_requestParts parts
    rw [isRequest, State.takeRequest_of_busy running busy]
    rfl
  · rw [Nat.add_comm]
    exact congrArg Host.Outcome.next (State.transferEnd_of_busy running busy install request rest)
  · intro seen refused refusedSeen
    have refuse {c : Instr} {code : Byte} {work : List Byte → State → Work}
        (request : exec c s = .next (s.takeRequest code tag body (work body))) (bad : Malformed work body) : refused c :=
      request.trans (congrArg Host.Outcome.next (bad.takeRequest take short code tag))
    have refuseSeen {c : Instr} {code : Byte} {work : List Byte → State → Work}
        (request : exec c s = .next (s.takeRequest code tag body fun s => work body (s.seeInstall install)))
        (bad : Malformed work body) : refusedSeen c :=
      request.trans (congrArg Host.Outcome.next (bad.takeRequest_judged take short code tag install))
    simp only [List.forall_mem_cons, List.not_mem_nil, false_imp_iff, implies_true, and_true]
    refine ⟨fun other => ?_, fun other => ?_, fun other => ?_, fun other => refuse rfl (setMaster_malformed other),
      fun other => refuse rfl (setHostLevel_malformed other),
      fun two four => refuse rfl (fireBinding_badRequest two four)⟩
    · obtain ⟨identity, attention, notified, mode, egress, restart, lock, erase⟩ := malformed_of_some_byte other
      exact ⟨⟨refuse rfl identity, refuse rfl attention, refuse rfl notified, refuse rfl mode, refuse rfl egress,
        refuse rfl restart⟩, refuseSeen rfl lock, refuseSeen rfl erase⟩
    · obtain ⟨zone, scene, delete, release, result, survey, restart, line, mode, rack⟩ := malformed_of_not_one_byte other
      exact ⟨refuse rfl zone, refuse rfl scene, refuse rfl delete, refuse rfl release, refuse rfl result,
        refuse rfl survey, refuse rfl restart, refuse rfl line, refuse rfl mode, refuse rfl rack⟩
    · obtain ⟨⟨drop, circuit, level, binding, recalled, remove, station, lamp, line, side⟩, retire, suspend, resume⟩ :=
        malformed_of_not_two_bytes other
      exact ⟨⟨refuse rfl drop, refuse rfl circuit, refuse rfl level, refuse rfl binding, refuse rfl recalled,
        refuse rfl remove, refuse rfl station, refuse rfl lamp, refuse rfl line, refuse rfl side⟩,
        refuseSeen rfl retire, refuseSeen rfl suspend, refuseSeen rfl resume⟩
  · exact congrArg Host.Outcome.next
      ((State.transferEnd_of_incomplete install request (by decide)).trans (take.takeMalformed 1 0))
  · exact congrArg Host.Outcome.next
      ((State.transferEnd_of_incomplete install request (rest := [tag]) (Nat.lt_succ_self 1)).trans (take.takeMalformed 2 tag))
  · exact congrArg Host.Outcome.next
      ((State.transferEnd_of_malformed request bad).trans (take.takeMalformed (3 + body.length) tag))

end Sys2Proof.Machine
end

section
/-! SUPPORT. What the host reads of the part: the bits of the link status and of the notice set, the answer a Fetch shifts
out, Identify and ReadAttention (R162, R163, R165, R169, section 12.3). -/

namespace Sys2Proof.Machine

@[simp] theorem flagByte_getElem (b : Bool) (i : Nat) (h : i < 8) : (flagByte b)[i] = (decide (i = 0) && b) := by
  cases b <;> simp [flagByte]

/-! ## The link status -/

section
variable (s : State)

theorem State.attention_eq : s.attention = decide (s.notices ≠ .empty) := by
  simp [State.attention, bne, beq_eq_decide]

/-- The collision flag and attention stand in bits 7 and 4 of the link status byte (section 12.3). -/
theorem State.linkStatus_flags :
    s.linkStatus.getLsbD 7 = s.collision ∧ s.linkStatus.getLsbD 4 = decide (s.notices ≠ .empty) := by
  rw [← s.attention_eq]
  cases slot : s.hostSlot <;> simp [State.linkStatus, slot]

/-- The slot state stands in bits 6 and 5, and bits 3 to 0 are 0 (section 12.3). -/
theorem State.linkStatus_slot :
    s.linkStatus.extractLsb' 5 2 = (match s.hostSlot with | .idle => 0 | .working _ => 1 | .answerReady _ => 2) ∧
      s.linkStatus.extractLsb' 0 4 = 0 := by
  unfold State.linkStatus
  generalize s.collision = c
  generalize s.attention = a
  cases s.hostSlot <;> dsimp only <;> revert c a <;> decide

end

/-! ## The Fetch -/

section
variable {s : State}

theorem State.answerFrame_of_ready {a : Answer} (waiting : s.hostSlot = .answerReady a) : s.answerFrame =
    [s.linkStatus, a.tag, a.result.code, flagByte a.clamped, byteOf a.body.length] ++ a.body := by
  rw [State.answerFrame, waiting]

theorem State.answerFrame_of_none (absent : ∀ a, s.hostSlot ≠ .answerReady a) :
    s.answerFrame = [s.linkStatus, 0, 255, 0, 0] := by
  unfold State.answerFrame
  split
  · exact absurd ‹_› (absent _)
  · rfl

theorem State.le_answerFrame_length (s : State) : 5 ≤ s.answerFrame.length := by
  unfold State.answerFrame
  split <;> simp

variable (running : s.power = .running) {n : Nat}
include running

/-- An answer that is all clocked out frees the slot (R162). -/
theorem State.fetched_of_whole {a : Answer} (waiting : s.hostSlot = .answerReady a) (whole : s.answerFrame.length ≤ n) :
    s.fetched n = { s with
      sdo := s.answerFrame ++ List.replicate (n - s.answerFrame.length) 0, collision := false, hostSlot := .idle } := by
  have nonzero : n ≠ 0 := Nat.ne_of_gt (Nat.lt_of_lt_of_le (by decide) (s.le_answerFrame_length.trans whole))
  simp [State.fetched, running, waiting, whole, nonzero]

/-- An answer that is clocked out in part waits on (R162). -/
theorem State.fetched_of_part {a : Answer} (waiting : s.hostSlot = .answerReady a) (clocked : 0 < n)
    (part : n < s.answerFrame.length) :
    s.fetched n = { s with sdo := s.answerFrame.take n, collision := false } := by
  have beyond : n - s.answerFrame.length = 0 := Nat.sub_eq_zero_of_le part.le
  simp [State.fetched, running, beyond, clocked.ne', waiting, Nat.not_le.2 part]

theorem State.fetched_of_none (absent : ∀ a, s.hostSlot ≠ .answerReady a) (clocked : 0 < n) :
    s.fetched n = { s with
      sdo := ([s.linkStatus, 0, 255, 0, 0] ++ List.replicate (n - 5) 0).take n, collision := false } := by
  rw [State.fetched, if_neg (not_not.2 running), State.answerFrame_of_none absent]
  cases slot : s.hostSlot with
  | answerReady a => exact absurd slot (absent a)
  | idle => simp [clocked.ne']
  | working q => simp [clocked.ne']

theorem State.fetched_zero : s.fetched 0 = { s with sdo := [] } := by
  have frame : s.answerFrame ≠ [] := fun e => absurd s.le_answerFrame_length (by simp [e])
  cases slot : s.hostSlot <;> simp [State.fetched, running, slot, frame]

end

/-! ## Identify -/

theorem identify_nil (s : State) : identify [] s = .answered { result := .ok, body := [0x0A, 0x00, 1,
    (match s.resetCause with | .power => 0 | .pin => 1 | .request => 2),
    (match s.image with | some _ => Config.openCode .imageValid | none => Config.openCode .imageInvalid)] } s := by
  cases cause : s.resetCause <;> cases image : s.image <;>
    simp [identify, State.inOrder, Work.read, ResetCause.code, imageStateCode, cause, image, bytes16, byteOf,
      Config.partIdentifier, Config.revision, Config.bodyLimit]

/-! ## The notice set -/

/-- A member's bit in the two bytes of a notice set (section 12.2). -/
def Notice.bitOf (hi lo : Byte) : Notice → Bool
  | .stations => lo.getLsbD 0 | .lines => lo.getLsbD 1 | .racks => lo.getLsbD 2 | .faults => lo.getLsbD 3
  | .stuck => lo.getLsbD 4 | .notify => lo.getLsbD 5 | .mode => lo.getLsbD 6 | .egress => lo.getLsbD 7
  | .group => hi.getLsbD 0 | .image => hi.getLsbD 1

/-- Bit i of the two bytes is the member of code i, and the other bits are 0 (section 12.2). -/
theorem NoticeSet.bytes_bits (x : NoticeSet) :
    ∃ hi lo, x.bytes = [hi, lo] ∧ (∀ n, x.has n = n.bitOf hi lo) ∧ hi.toNat < 4 := by
  refine ⟨_, _, rfl, fun n => ?_, ?_⟩
  · cases n <;> simp [NoticeSet.has, Notice.bitOf]
  · generalize x.group = g
    generalize x.image = i
    revert g i
    decide

theorem NoticeSet.has_with (x : NoticeSet) (n m : Notice) : (x.with n).has m = (decide (m = n) || x.has m) := by
  cases n <;> cases m <;> simp [NoticeSet.with, NoticeSet.has]

theorem NoticeSet.has_empty (m : Notice) : NoticeSet.empty.has m = false := by cases m <;> rfl

theorem NoticeSet.ne_empty_of_has {x : NoticeSet} {n : Notice} (h : x.has n = true) : x ≠ .empty := by
  rintro rfl
  rw [NoticeSet.has_empty] at h
  cases h

theorem exec_readAttention {s : State} (take : s.TakesRequests) (tag : Byte) : exec (.readAttention tag []) s =
    .next ({ s with notices := .empty }.answered 0 tag .ok false s.notices.bytes) :=
  congrArg Host.Outcome.next (take.answered (t := { s with notices := .empty }) (body := [])
    (r := { result := .ok, body := s.notices.bytes }) (Nat.zero_le _) rfl)

end Sys2Proof.Machine
end

section
/-! The Fetch, Identify and ReadAttention (O4, O5, O6). -/

namespace Sys2Proof.Machine

/-- Settles O4: the link status by its bits, and the Fetch by whether an answer waits and how much of it is clocked. -/
theorem fetchDeliversTheAnswer : Obligations.FetchDeliversTheAnswer := by
  unfold Obligations.FetchDeliversTheAnswer
  intro s n running
  obtain ⟨collision, attention⟩ := s.linkStatus_flags
  obtain ⟨slot, rest⟩ := s.linkStatus_slot
  refine ⟨⟨collision, attention, slot, rest⟩, fun a waiting => ?_,
    fun absent clocked => congrArg Host.Outcome.next (State.fetched_of_none running absent clocked),
    fun zero => zero ▸ congrArg Host.Outcome.next (State.fetched_zero running)⟩
  rw [← State.answerFrame_of_ready waiting]
  exact ⟨fun whole => congrArg Host.Outcome.next (State.fetched_of_whole running waiting whole),
    fun clocked part => congrArg Host.Outcome.next (State.fetched_of_part running waiting clocked part)⟩

/-- Settles O5: the body is empty, or the request is refused for its length. -/
theorem identifyAnswers : Obligations.IdentifyAnswers := by
  unfold Obligations.IdentifyAnswers
  intro s tag body take short
  split
  · subst body
    exact congrArg Host.Outcome.next (take.answered short (identify_nil (s.taken 0x01 tag [])))
  · obtain ⟨bad, _⟩ := malformed_of_some_byte (mt List.length_eq_zero_iff.1 ‹_›)
    exact congrArg Host.Outcome.next (bad.takeRequest take short 0x01 tag)

/-- Settles O6: the answer holds the set's bytes, whose bits are its members, and a raise adds its own member alone. -/
theorem readAttentionTakesTheSet : Obligations.ReadAttentionTakesTheSet := by
  unfold Obligations.ReadAttentionTakesTheSet
  intro s tag body take short
  obtain ⟨hi, lo, bytes, bits, high⟩ := s.notices.bytes_bits
  refine ⟨fun other => ?_, hi, lo, bits, high, bytes ▸ exec_readAttention take tag, ?_, fun n => ⟨?_, ?_⟩⟩
  · obtain ⟨_, bad, _⟩ := malformed_of_some_byte (mt List.length_eq_zero_iff.1 other)
    exact congrArg Host.Outcome.next (bad.takeRequest take short 0x02 tag)
  · simp [State.attn, State.attention, State.answered]
  · obtain ⟨hi', lo', bytes', bits', _⟩ := (s.raise n).notices.bytes_bits
    refine ⟨hi', lo', bytes' ▸ exec_readAttention (s := s.raise n) take tag, (bits' n).symm.trans ?_⟩
    simp [State.raise, NoticeSet.has_with]
  · intro after
    have members (m : Notice) : after.notices.has m = decide (m = n) := by
      simp [after, State.answered, State.raise, NoticeSet.has_with, NoticeSet.has_empty]
    have running : after.power = .running := take.1
    have raised : after.notices ≠ .empty := NoticeSet.ne_empty_of_has ((members n).trans (decide_eq_true rfl))
    refine ⟨members, ?_, ?_, rfl⟩
    · simp [State.attn, State.attention, running, raised]
    · simp [State.ready, after, State.answered, take.1]

end Sys2Proof.Machine
end

section
/-! Resets and Restart (O7). -/

namespace Sys2Proof.Machine

section
variable {s : State}

theorem State.beginPinReset_of_powerReset (h : s.power = .inReset .power) : s.beginPinReset = s := by
  simp [State.beginPinReset, h]

theorem State.beginPinReset_of_other (h : s.power ≠ .inReset .power) : s.beginPinReset = s.beginReset .pin := by
  unfold State.beginPinReset
  split
  · exact absurd ‹_› h
  · rfl

/-- Start-up takes no notice of the cause of the reset it ends, nor of the exchange with the host before it, but for the cause
it records and the bytes that were shifted out (R174). -/
theorem State.startUp_beginReset_taken (s : State) (cause : ResetCause) (code tag : Byte) (body : List Byte) :
    ((s.taken code tag body).beginReset cause).startUp cause = { (s.beginReset .power).startUp .power with
      resetCause := cause, sdo := List.replicate (3 + body.length) 0 } := rfl

theorem restart_nil (s : State) : restart [] s = .ended s.restart := rfl

/-- Restart leads to the state of a power reset and its start-up but for the cause, REQUEST, and its own zeros (R167). -/
theorem exec_restart (take : s.TakesRequests) (tag : Byte) : exec (.restart tag []) s =
    .next { (s.beginReset .power).startUp .power with resetCause := .request, sdo := [0, 0, 0] } :=
  congrArg Host.Outcome.next
    ((State.takeRequest_of_ended take.1 take.2 (Nat.zero_le _) (restart_nil (s.taken 0x62 tag []))).trans
      (s.startUp_beginReset_taken .request 0x62 tag []))

end

/-- Settles O7: the resets by what they interrupt, and Restart by `exec_restart`, whose slot holds no answer to fetch. -/
theorem resetsBeginAndEnd : Obligations.ResetsBeginAndEnd := by
  unfold Obligations.ResetsBeginAndEnd
  intro s silent
  refine ⟨rfl, fun other => congrArg Host.Outcome.next (State.beginPinReset_of_other other),
    fun power => congrArg Host.Outcome.next (State.beginPinReset_of_powerReset power), fun cause => ⟨rfl, rfl⟩,
    fun tag body take short => ⟨fun other => ?_, ?_⟩⟩
  · obtain ⟨_, _, _, _, _, bad, _⟩ := malformed_of_some_byte (mt List.length_eq_zero_iff.1 other)
    exact congrArg Host.Outcome.next (bad.takeRequest take short 0x62 tag)
  · refine ⟨_, _, rfl, exec_restart take tag, rfl, rfl, rfl, _, rfl, ?_⟩
    exact congrArg State.sdo (State.fetched_of_none (n := 5) rfl (by rintro a ⟨⟩) (by decide))

end Sys2Proof.Machine
end

section
/-! SUPPORT. What start-up leaves, read through the tables it loads: the groups and racks by their identifiers, the circuits
with the image's zones, and the first rack of the first round (R174, R175). -/

namespace Sys2Proof.Machine

/-! ## Tables over the identifiers from 1 on -/

theorem mem_identifiers {n i : Nat} : i ∈ identifiers n ↔ 1 ≤ i ∧ i ≤ n := by
  simp only [identifiers, List.mem_map, List.mem_range]
  exact ⟨by rintro ⟨k, low, rfl⟩; omega, fun ⟨low, high⟩ => ⟨i - 1, by omega, by omega⟩⟩

theorem Table.at?_identifiers {α : Type} (n : Nat) (f : Nat → α) (i : Nat) :
    Table.at? ((identifiers n).map fun k => (k, f k)) i = if 1 ≤ i ∧ i ≤ n then some (f i) else none := by
  split
  · rename_i within
    exact Table.at?_of_mem (Table.inOrder_identifiers n f) (List.mem_map.2 ⟨i, mem_identifiers.2 within, rfl⟩)
  · rename_i beyond
    refine Option.eq_none_iff_forall_ne_some.2 fun x found => beyond ?_
    obtain ⟨k, mem, same⟩ := List.mem_map.1 (Table.mem_of_at? found)
    cases same
    exact mem_identifiers.1 mem

theorem Table.idsWhere_identifiers {α : Type} (n : Nat) (f : Nat → α) (p : α → Bool) :
    Table.idsWhere ((identifiers n).map fun k => (k, f k)) p = (identifiers n).filter fun k => p (f k) := by
  simp [Table.idsWhere, List.filter_map, Function.comp_def]

/-! ## What start-up leaves -/

section
variable {s : State} {cause : ResetCause}

theorem State.endReset_of_inReset (h : s.power = .inReset cause) : s.endReset = s.startUp cause := by
  simp [State.endReset, h]

theorem exec_startUp (h : s.power = .inReset cause) : exec .startUp s = .next (s.startUp cause) :=
  congrArg Host.Outcome.next (State.endReset_of_inReset h)

end

/-- A rack is configured at start-up where the image lists it. -/
theorem Image.startRack_configured (i : Image) (r : Nat) :
    Rack.configured { Rack.blank with state := if i.racks.contains r then .waiting else .absent } = i.racks.contains r := by
  cases h : i.racks.contains r <;> simp [Rack.configured]

/-- The first round begins with the lowest configured rack, for every rack's identifier is above 0 (R150, R175). -/
theorem State.rackAbove_zero_of_startRacks {s : State} {i : Image} (racks : s.racks = i.startRacks) :
    s.rackAbove 0 = (identifiers 8).find? i.racks.contains := by
  rw [State.rackAbove, racks, Image.startRacks, Table.idsWhere_identifiers, List.find?_filter]
  refine List.find?_congr fun r mem => ?_
  have above : 0 < r := (mem_identifiers.1 mem).1
  simp only [i.startRack_configured, above, and_true, decide_eq_true, Bool.decide_eq_true]

section
variable (s : State) (cause : ResetCause)

theorem State.startUp_rackSlot_rack :
    (s.startUp cause).rackSlot.map (·.rack) = [1, 2, 3, 4, 5, 6, 7, 8].find? (s.image.getD .blank).racks.contains := by
  refine .trans ?_ (State.rackAbove_zero_of_startRacks (s := s.startUp cause) rfl)
  exact (Option.map_map ..).trans Option.map_id'

/-- Each circuit of the image, as start-up sets it, is resolved with the start fade under the master that the image gives its
zone (R174, step 6). -/
theorem State.startUp_circuits_at? (c : Nat) :
    let i := s.image.getD .blank
    Table.at? (s.startUp cause).circuits c = (Table.at? i.circuits c).map fun cfg =>
      (Circuit.atStart i.settings.startMode.requires cfg).resolve
        (cfg.zone.map fun z => ((Table.at? i.zones z).map (·.master)).getD 1000) i.settings.startFade := by
  intro i
  have circuits : (s.startUp cause).circuits = Table.mapAll (s.load cause i).circuits fun _ x =>
    x.resolve ((s.load cause i).masterOf x.config) i.settings.startFade := rfl
  have master (z : Nat) : ((s.load cause i).zoneRecord z).master = ((Table.at? i.zones z).map (·.master)).getD 1000 :=
    (Option.getD_map Zone.master .unconfigured (Table.at? i.zones z)).symm
  simp only [circuits, State.load, Table.at?_mapAll, Option.map_map, Function.comp_def, ← master]
  rfl

end

end Sys2Proof.Machine
end

section
/-! Start-up and the state after reset (O8, O9). -/

namespace Sys2Proof.Machine

/-- Settles O8: the fields that are not tables are those `State.load` names; each table is read at an identifier. -/
theorem startUpLoadsAndClears : Obligations.StartUpLoadsAndClears := by
  unfold Obligations.StartUpLoadsAndClears
  intro s cause power i
  have circuits := s.startUp_circuits_at? cause
  refine ⟨s.startUp cause, exec_startUp power, rfl, rfl, rfl, rfl, rfl, rfl, rfl, rfl, rfl, rfl, rfl, rfl, rfl, rfl, rfl, rfl,
    rfl, rfl, rfl, rfl, rfl, s.startUp_rackSlot_rack cause, circuits, fun c absent => ?_, fun z absent => ?_,
    Table.at?_mapAll i.bindings fun _ => Binding.fresh, Table.at?_mapAll i.scenes fun _ => Scene.define,
    fun g => Table.at?_identifiers .., fun r => Table.at?_identifiers .., ?_⟩
  · exact State.circuitRecord_of_unconfigured ((circuits c).trans (congrArg _ absent))
  · exact State.zoneRecord_of_unconfigured absent
  · intro l stored u
    have started : u = stored.start := by cases l <;> rfl
    clear_value u
    subst started
    refine ⟨rfl, rfl, rfl, rfl, rfl, rfl, rfl, rfl, rfl, rfl, rfl, rfl, rfl, rfl, rfl, rfl, fun a => ?_⟩
    refine (Table.at?_mapAll stored.stations (fun _ => Station.fresh) a).trans (Option.map_congr fun setup _ => ?_)
    cases setup <;> rfl

/-- With no circuit to resolve and no rack to serve, what start-up loads from an invalid image is what it leaves (R174). -/
theorem State.startUp_of_invalid {s : State} (invalid : s.image = none) (quiet : s.panicInput = false) :
    s.startUp .power = { State.reset with
      sdo := s.sdo, installInput := s.installInput, freeUses := s.freeUses, pending := s.pending } := by
  have loaded : s.load .power .blank = { State.reset with
      sdo := s.sdo, installInput := s.installInput, freeUses := s.freeUses, pending := s.pending } := by
    simp only [State.load, invalid, quiet]
    rfl
  simp only [State.startUp, invalid, Option.getD_none, loaded]
  rfl

theorem State.reset_tablesInOrder : State.reset.TablesInOrder :=
  have line : (LineUnit.fresh .a true []).TablesInOrder := LineImage.start_tablesInOrder (l := ⟨.a, true, []⟩) .nil
  ⟨.nil, .nil, .nil, .nil, line, line, Table.inOrder_identifiers 15 _, Table.inOrder_identifiers 8 _,
    (fun _ e => nomatch e), fun _ e => nomatch e⟩

/-- Settles O9: after an invalid image no circuit and no zone has a record, so an invariant of the circuits has nothing to
hold of. -/
theorem resetStateIsAfterPowerReset : Obligations.ResetStateIsAfterPowerReset := by
  unfold Obligations.ResetStateIsAfterPowerReset
  refine ⟨fun s power invalid quiet => ?_, fun c => ?_, fun z => ?_, List.forall_mem_nil _, State.reset_tablesInOrder,
    List.forall_mem_nil _, List.forall_mem_nil _, rfl, rfl⟩
  · rw [exec_startUp power, State.startUp_of_invalid invalid quiet]
  · exact State.circuitRecord_of_unconfigured rfl
  · exact State.zoneRecord_of_unconfigured rfl

end Sys2Proof.Machine
end
